-- ==== Sys2Proof/Word.lean ====
section
/-! DEFINITION. The word types of the Liper 2840 (R5, R8): bytes, 32-bit words, 64-bit pairs, lane masks. -/

namespace Sys2Proof

/-- One byte of memory (R5). -/
abbrev Byte := BitVec 8

/-- One 32-bit register or instruction word (R7, R75). -/
abbrev Word := BitVec 32

/-- A 64-bit value: a register pair, a virtual address, a system register image (R76, R142). -/
abbrev DWord := BitVec 64

/-- One bit per lane of a warp (R33). -/
abbrev LaneMask := BitVec 32

/-- The mask of all 32 lanes. -/
def allLanes : LaneMask := BitVec.allOnes 32

/-- The accrued exception flags in FPSTAT's order: NV DZ OF UF NX from bit 4 down to bit 0 (R113). -/
abbrev Flags := BitVec 5

end Sys2Proof
end

