-- ==== Sys2Proof/Syntax.lean ====
section
/-! DEFINITION. The instructions and events of the Liper 2840, one constructor per row of the opcode table, with
the enumerated operand fields of the formats (R75 to R93) as inductive types. -/

namespace Sys2Proof

/-- Types of the integer compares (R84). -/
inductive CmpTy where
  | i32 | n32 | i64 | n64
  deriving DecidableEq, Repr, Inhabited

/-- Type codes of `cvt` (R86). -/
inductive NumTy where
  | i8 | i16 | i32 | i64 | n8 | n16 | n32 | n64 | bf16 | f32 | f64
  deriving DecidableEq, Repr, Inhabited

/-- The rounding field of `cvt` (R86). -/
inductive RoundSel where
  | fpmode | rne | rtz | rdn | rup
  deriving DecidableEq, Repr, Inhabited

/-- Block codes of Gavotte (R87, R128). -/
inductive Blk where
  | identity | b16 | b64 | b256
  deriving DecidableEq, Repr, Inhabited

/-- The fmt field of `vrot` and `virot` (R87): source to destination. -/
inductive RotFmt where
  | f32f32 | f32bf16 | f32i8 | bf16f32 | i8f32
  deriving DecidableEq, Repr, Inhabited

/-- Access types of loads and stores (R89). -/
inductive MemTy where
  | n8 | i8 | n16 | i16 | b32 | b64 | b128
  deriving DecidableEq, Repr, Inhabited

/-- Retention hints (R89, R188). -/
inductive Hint where
  | default | stream | sticky | bypass
  deriving DecidableEq, Repr, Inhabited

/-- Types of the atomics (R90). -/
inductive AtomTy where
  | i32 | i64 | n32 | n64
  deriving DecidableEq, Repr, Inhabited

/-- Scopes a memory instruction names (R90, R214). -/
inductive Scope where
  | team | clu | dev | sys
  deriving DecidableEq, Repr, Inhabited

/-- Memory orders (R90). -/
inductive Order where
  | rlx | acq | rel | acqrel | sc
  deriving DecidableEq, Repr, Inhabited

/-- The counters of a warp (R81, R150). -/
inductive Ctr where
  | l | s | c | t
  deriving DecidableEq, Repr, Inhabited

/-- What a read may find wrong with its data (R181, R335). -/
inductive DataFault where
  | integrity | uncorr
  deriving DecidableEq, Repr, Inhabited

/-- What the next read of a line's DRAM cells finds (R335): a symbol that the ECC corrects, and a fault that it delivers. -/
structure CellFault where
  corrected : Bool
  fault : Option DataFault
  deriving DecidableEq, Repr, Inhabited

/-- What an Ethernet frame at the port carries (R365): a UDP datagram over IPv6, by its port, and its bytes; a router
advertisement; or anything else but the rest of Neighbor Discovery, which has its own events. -/
inductive FrameBody where
  | udp (port : Nat) (bytes : List Byte)
  | routerAdvertisement
  | other
  deriving DecidableEq, Repr, Inhabited

/-- An Ethernet frame at the port, of `size` bytes (R365). -/
structure EthernetFrame where
  size : Nat
  body : FrameBody
  deriving DecidableEq, Repr, Inhabited

/-- What the checks of a matrix operation's chunks find: the chunks that failed once and passed when recomputed, and the one that
failed again, if any (R259). -/
structure ChunkChecks where
  retries : List Nat
  failed : Option Nat
  deriving DecidableEq, Repr, Inhabited

/-- What every sessioned request carries (R365): the session, the sender's SEQ, the request tag, and whether the
message is well formed: LEN matches the operands and every zero byte of the layout is zero (R384). -/
structure MsgHead where
  session : Nat
  seq : Nat
  rtag : Nat
  formOk : Bool
  deriving DecidableEq, Repr, Inhabited

/-- A watch entry of a range access log (R341). -/
structure WatchEntry where
  kind : Nat
  ops : Nat
  lo : Nat
  hi : Nat
  deriving DecidableEq, Repr, Inhabited

/-- What a module reset finds (R24, R374 to R376): the supply voltage; the stage whose signature check fails, if any; the version and bytes of
each firmware image; whether memory trains; ORIENT as each AD reports it; whether the journals replay; and what
firmware sets up for world 0 (R317, R320): its table pages, the bytes it writes there, its roots, QTABLE and EVQ. -/
structure BootInputs where
  millivolts : Nat
  badSignature : Option Nat
  images : List (Nat × List Byte)
  trained : Bool
  orient : List Nat
  replayOk : Bool
  world0Pages : List Nat
  world0Bytes : List (Nat × List Byte)
  s2root : Nat
  s1root : Nat
  qtable : Nat
  evq : Nat
  deriving DecidableEq, Repr, Inhabited

/-- One constructor for each row of the opcode table: the encoded instructions first, then the events of the
machine's other agents and the host's messages, which have no instruction word. -/
inductive Instr where
  /-- S_ADD (R143): Scalar add of sa and sb into sd, 32-bit or 64-bit on pairs under w. -/
  | sAdd (d : Nat) (a : Nat) (b : Nat) (w : Bool)
  /-- S_SUB (R143): Scalar subtract sa minus sb into sd, 32-bit or 64-bit under w. -/
  | sSub (d : Nat) (a : Nat) (b : Nat) (w : Bool)
  /-- S_MUL (R143): Scalar low 32 bits of the product into sd. -/
  | sMul (d : Nat) (a : Nat) (b : Nat)
  /-- S_MULHI_I32 (R143): Scalar high 32 bits of the signed product. -/
  | sMulhiI32 (d : Nat) (a : Nat) (b : Nat)
  /-- S_MULHI_N32 (R143): Scalar high 32 bits of the unsigned product. -/
  | sMulhiN32 (d : Nat) (a : Nat) (b : Nat)
  /-- S_AND (R143): Scalar bitwise and, 32-bit or 64-bit under w. -/
  | sAnd (d : Nat) (a : Nat) (b : Nat) (w : Bool)
  /-- S_OR (R143): Scalar bitwise or, 32-bit or 64-bit under w. -/
  | sOr (d : Nat) (a : Nat) (b : Nat) (w : Bool)
  /-- S_XOR (R143): Scalar bitwise xor, 32-bit or 64-bit under w. -/
  | sXor (d : Nat) (a : Nat) (b : Nat) (w : Bool)
  /-- S_SHL (R143): Scalar shift left by register amount. -/
  | sShl (d : Nat) (a : Nat) (b : Nat) (w : Bool)
  /-- S_SHR (R143): Scalar logical shift right by register amount. -/
  | sShr (d : Nat) (a : Nat) (b : Nat) (w : Bool)
  /-- S_SRA (R143): Scalar arithmetic shift right by register amount. -/
  | sSra (d : Nat) (a : Nat) (b : Nat) (w : Bool)
  /-- S_MIN_I32 (R143): Scalar signed minimum. -/
  | sMinI32 (d : Nat) (a : Nat) (b : Nat)
  /-- S_MAX_I32 (R143): Scalar signed maximum. -/
  | sMaxI32 (d : Nat) (a : Nat) (b : Nat)
  /-- S_MIN_N32 (R143): Scalar unsigned minimum. -/
  | sMinN32 (d : Nat) (a : Nat) (b : Nat)
  /-- S_MAX_N32 (R143): Scalar unsigned maximum. -/
  | sMaxN32 (d : Nat) (a : Nat) (b : Nat)
  /-- S_MOVS (R143): Scalar register move, 32-bit or pair under w. -/
  | sMovs (d : Nat) (a : Nat) (w : Bool)
  /-- S_CMP_EQ (R143): Scalar compare equal, writing 1 or 0 to sd. -/
  | sCmpEq (d : Nat) (a : Nat) (b : Nat) (w : Bool)
  /-- S_CMP_NE (R143): Scalar compare not equal. -/
  | sCmpNe (d : Nat) (a : Nat) (b : Nat) (w : Bool)
  /-- S_CMP_LT_I32 (R143): Scalar signed less-than compare. -/
  | sCmpLtI32 (d : Nat) (a : Nat) (b : Nat) (w : Bool)
  /-- S_CMP_LE_I32 (R143): Scalar signed less-or-equal compare. -/
  | sCmpLeI32 (d : Nat) (a : Nat) (b : Nat) (w : Bool)
  /-- S_CMP_LT_N32 (R143): Scalar unsigned less-than compare. -/
  | sCmpLtN32 (d : Nat) (a : Nat) (b : Nat) (w : Bool)
  /-- S_CMP_LE_N32 (R143): Scalar unsigned less-or-equal compare. -/
  | sCmpLeN32 (d : Nat) (a : Nat) (b : Nat) (w : Bool)
  /-- S_CMP_GT_I32 (R143): Scalar signed greater-than compare. -/
  | sCmpGtI32 (d : Nat) (a : Nat) (b : Nat) (w : Bool)
  /-- S_CMP_GE_I32 (R143): Scalar signed greater-or-equal compare. -/
  | sCmpGeI32 (d : Nat) (a : Nat) (b : Nat) (w : Bool)
  /-- S_CMP_GT_N32 (R143): Scalar unsigned greater-than compare. -/
  | sCmpGtN32 (d : Nat) (a : Nat) (b : Nat) (w : Bool)
  /-- S_CMP_GE_N32 (R143): Scalar unsigned greater-or-equal compare. -/
  | sCmpGeN32 (d : Nat) (a : Nat) (b : Nat) (w : Bool)
  /-- SI_ADD (R143): Scalar add of a sign-extended immediate. -/
  | siAdd (d : Nat) (a : Nat) (imm : Int)
  /-- SI_SUB (R143): Scalar subtract of an immediate. -/
  | siSub (d : Nat) (a : Nat) (imm : Int)
  /-- SI_MUL (R143): Scalar multiply by an immediate, low 32 bits. -/
  | siMul (d : Nat) (a : Nat) (imm : Int)
  /-- SI_MULHI_I32 (R143): Scalar signed high product with an immediate. -/
  | siMulhiI32 (d : Nat) (a : Nat) (imm : Int)
  /-- SI_MULHI_N32 (R143): Scalar unsigned high product with an immediate. -/
  | siMulhiN32 (d : Nat) (a : Nat) (imm : Int)
  /-- SI_AND (R143): Scalar and with an immediate. -/
  | siAnd (d : Nat) (a : Nat) (imm : Int)
  /-- SI_OR (R143): Scalar or with an immediate. -/
  | siOr (d : Nat) (a : Nat) (imm : Int)
  /-- SI_XOR (R143): Scalar xor with an immediate. -/
  | siXor (d : Nat) (a : Nat) (imm : Int)
  /-- SI_SHL (R143): Scalar shift left by an immediate 0-31. -/
  | siShl (d : Nat) (a : Nat) (imm : Int)
  /-- SI_SHR (R143): Scalar logical shift right by an immediate. -/
  | siShr (d : Nat) (a : Nat) (imm : Int)
  /-- SI_SRA (R143): Scalar arithmetic shift right by an immediate. -/
  | siSra (d : Nat) (a : Nat) (imm : Int)
  /-- SI_MIN_I32 (R143): Scalar signed minimum with an immediate. -/
  | siMinI32 (d : Nat) (a : Nat) (imm : Int)
  /-- SI_MAX_I32 (R143): Scalar signed maximum with an immediate. -/
  | siMaxI32 (d : Nat) (a : Nat) (imm : Int)
  /-- SI_MIN_N32 (R143): Scalar unsigned minimum with an immediate. -/
  | siMinN32 (d : Nat) (a : Nat) (imm : Int)
  /-- SI_MAX_N32 (R143): Scalar unsigned maximum with an immediate. -/
  | siMaxN32 (d : Nat) (a : Nat) (imm : Int)
  /-- SI_MOVS (R143): Scalar move of a sign-extended immediate. -/
  | siMovs (d : Nat) (imm : Int)
  /-- SI_CMP_EQ (R143): Scalar compare equal with an immediate. -/
  | siCmpEq (d : Nat) (a : Nat) (imm : Int)
  /-- SI_CMP_NE (R143): Scalar compare not equal with an immediate. -/
  | siCmpNe (d : Nat) (a : Nat) (imm : Int)
  /-- SI_CMP_LT_I32 (R143): Scalar signed less-than with an immediate. -/
  | siCmpLtI32 (d : Nat) (a : Nat) (imm : Int)
  /-- SI_CMP_LE_I32 (R143): Scalar signed less-or-equal with an immediate. -/
  | siCmpLeI32 (d : Nat) (a : Nat) (imm : Int)
  /-- SI_CMP_LT_N32 (R143): Scalar unsigned less-than with an immediate. -/
  | siCmpLtN32 (d : Nat) (a : Nat) (imm : Int)
  /-- SI_CMP_LE_N32 (R143): Scalar unsigned less-or-equal with an immediate. -/
  | siCmpLeN32 (d : Nat) (a : Nat) (imm : Int)
  /-- SI_CMP_GT_I32 (R143): Scalar signed greater-than with an immediate. -/
  | siCmpGtI32 (d : Nat) (a : Nat) (imm : Int)
  /-- SI_CMP_GE_I32 (R143): Scalar signed greater-or-equal with an immediate. -/
  | siCmpGeI32 (d : Nat) (a : Nat) (imm : Int)
  /-- SI_CMP_GT_N32 (R143): Scalar unsigned greater-than with an immediate. -/
  | siCmpGtN32 (d : Nat) (a : Nat) (imm : Int)
  /-- SI_CMP_GE_N32 (R143): Scalar unsigned greater-or-equal with an immediate. -/
  | siCmpGeN32 (d : Nat) (a : Nat) (imm : Int)
  /-- SI_ADD_I64 (R143): Scalar 64-bit add of a sign-extended immediate on a pair. -/
  | siAddI64 (d : Nat) (a : Nat) (imm : Int)
  /-- LDL (R145): Loads one literal-pool word relative to the ldl word into sd. -/
  | ldl (d : Nat) (off : Int)
  /-- LDL_B64 (R145): Loads two consecutive literal-pool words into the pair sd. -/
  | ldlB64 (d : Nat) (off : Int)
  /-- BRA (R146): Unconditional branch of every active lane to the target header. -/
  | bra (off : Int)
  /-- BRC_Z (R146): Branches when sa is zero. -/
  | brcZ (a : Nat) (off : Int)
  /-- BRC_NZ (R146): Branches when sa is nonzero. -/
  | brcNz (a : Nat) (off : Int)
  /-- BRC_NEG (R146): Branches when sa is negative. -/
  | brcNeg (a : Nat) (off : Int)
  /-- BRC_NNEG (R146): Branches when sa is non-negative. -/
  | brcNneg (a : Nat) (off : Int)
  /-- BRC_POS (R146): Branches when sa is positive. -/
  | brcPos (a : Nat) (off : Int)
  /-- BRC_NPOS (R146): Branches when sa is non-positive. -/
  | brcNpos (a : Nat) (off : Int)
  /-- BRV (R50): Divergent branch on a predicate, pushing a reconvergence entry when lanes split. -/
  | brv (p : Nat) (tgt : Int) (join : Int)
  /-- BR_RG (R52): Branch marked for regrouping; waits for a team rendezvous or falls back to brv. -/
  | brRg (p : Nat) (tgt : Int)
  /-- CALL (R147): Pushes the fall-through header on the return stack and branches. -/
  | call (off : Int)
  /-- EXIT (R148): Ends every active lane and runs the reconvergence check. -/
  | exit
  /-- RET (R147): Pops the return stack into PC. -/
  | ret
  /-- NOP (R149): Does nothing. -/
  | nop
  /-- YIELD (R149): Keeps the picker from choosing the warp at the next opportunity if another is ready. -/
  | yield
  /-- GETS (R155): Copies vector register v of a named lane into sd. -/
  | gets (d : Nat) (v : Nat) (l : Nat)
  /-- GETS_FIRST (R155): Copies v of the lowest active lane into sd. -/
  | getsFirst (d : Nat) (v : Nat)
  /-- SETS (R155): Broadcasts sd into v in every active lane. -/
  | sets (d : Nat) (v : Nat)
  /-- BPOST (R153): Arrives on a named team barrier with the live active lane count and expected count. -/
  | bpost (n : Nat) (c : Nat)
  /-- BHOLD (R55): Blocks the warp until the phase it last arrived in completes. -/
  | bhold (n : Nat)
  /-- BARG (R56): Grid barrier of a cooperative grid; arrives and blocks until the phase completes. -/
  | barg
  /-- WAIT (R150): Blocks the warp until named tokens are zero and an optional counter is at most n. -/
  | wait (kmask : Nat) (ctr : Ctr) (cen : Bool) (n : Nat)
  /-- REP (R151): Repeats the next word count times with stepped register fields. -/
  | rep (cnt : Nat) (step : Nat) (sz : Nat)
  /-- V_ADD (R156): Vector 32-bit add. -/
  | vAdd (d : Nat) (a : Nat) (b : Nat)
  /-- V_SUB (R156): Vector 32-bit subtract. -/
  | vSub (d : Nat) (a : Nat) (b : Nat)
  /-- V_MUL (R156): Vector low 32 bits of product. -/
  | vMul (d : Nat) (a : Nat) (b : Nat)
  /-- V_MULHI_I32 (R156): Vector signed high product. -/
  | vMulhiI32 (d : Nat) (a : Nat) (b : Nat)
  /-- V_MULHI_N32 (R156): Vector unsigned high product. -/
  | vMulhiN32 (d : Nat) (a : Nat) (b : Nat)
  /-- V_MAD (R156): Vector multiply-add into vd. -/
  | vMad (d : Nat) (a : Nat) (b : Nat)
  /-- V_MIN_I32 (R156): Vector signed minimum. -/
  | vMinI32 (d : Nat) (a : Nat) (b : Nat)
  /-- V_MAX_I32 (R156): Vector signed maximum. -/
  | vMaxI32 (d : Nat) (a : Nat) (b : Nat)
  /-- V_MIN_N32 (R156): Vector unsigned minimum. -/
  | vMinN32 (d : Nat) (a : Nat) (b : Nat)
  /-- V_MAX_N32 (R156): Vector unsigned maximum. -/
  | vMaxN32 (d : Nat) (a : Nat) (b : Nat)
  /-- V_AND (R156): Vector bitwise and. -/
  | vAnd (d : Nat) (a : Nat) (b : Nat)
  /-- V_OR (R156): Vector bitwise or. -/
  | vOr (d : Nat) (a : Nat) (b : Nat)
  /-- V_XOR (R156): Vector bitwise xor. -/
  | vXor (d : Nat) (a : Nat) (b : Nat)
  /-- V_SHL (R156): Vector shift left by register. -/
  | vShl (d : Nat) (a : Nat) (b : Nat)
  /-- V_SHR (R156): Vector logical shift right by register. -/
  | vShr (d : Nat) (a : Nat) (b : Nat)
  /-- V_SRA (R156): Vector arithmetic shift right by register. -/
  | vSra (d : Nat) (a : Nat) (b : Nat)
  /-- V_CLZ (R156): Vector count of leading zeros. -/
  | vClz (d : Nat) (a : Nat)
  /-- V_POPC (R156): Vector population count. -/
  | vPopc (d : Nat) (a : Nat)
  /-- V_ABS_I32 (R156): Vector absolute value modulo 2^32. -/
  | vAbsI32 (d : Nat) (a : Nat)
  /-- V_ADD_SAT_I32 (R156): Vector saturating signed add. -/
  | vAddSatI32 (d : Nat) (a : Nat) (b : Nat)
  /-- V_SUB_SAT_I32 (R156): Vector saturating signed subtract. -/
  | vSubSatI32 (d : Nat) (a : Nat) (b : Nat)
  /-- V_MOV (R156): Vector register move. -/
  | vMov (d : Nat) (a : Nat)
  /-- VI_ADD (R156): Vector add of a sign-extended imm7. -/
  | viAdd (d : Nat) (a : Nat) (imm : Int)
  /-- VI_SUB (R156): Vector subtract of imm7. -/
  | viSub (d : Nat) (a : Nat) (imm : Int)
  /-- VI_MUL (R156): Vector multiply by imm7. -/
  | viMul (d : Nat) (a : Nat) (imm : Int)
  /-- VI_MULHI_I32 (R156): Vector signed high product with imm7. -/
  | viMulhiI32 (d : Nat) (a : Nat) (imm : Int)
  /-- VI_MULHI_N32 (R156): Vector unsigned high product with imm7. -/
  | viMulhiN32 (d : Nat) (a : Nat) (imm : Int)
  /-- VI_MIN_I32 (R156): Vector signed minimum with imm7. -/
  | viMinI32 (d : Nat) (a : Nat) (imm : Int)
  /-- VI_MAX_I32 (R156): Vector signed maximum with imm7. -/
  | viMaxI32 (d : Nat) (a : Nat) (imm : Int)
  /-- VI_MIN_N32 (R156): Vector unsigned minimum with imm7. -/
  | viMinN32 (d : Nat) (a : Nat) (imm : Int)
  /-- VI_MAX_N32 (R156): Vector unsigned maximum with imm7. -/
  | viMaxN32 (d : Nat) (a : Nat) (imm : Int)
  /-- VI_AND (R156): Vector and with imm7. -/
  | viAnd (d : Nat) (a : Nat) (imm : Int)
  /-- VI_OR (R156): Vector or with imm7. -/
  | viOr (d : Nat) (a : Nat) (imm : Int)
  /-- VI_XOR (R156): Vector xor with imm7. -/
  | viXor (d : Nat) (a : Nat) (imm : Int)
  /-- VI_SHL (R156): Vector shift left by immediate. -/
  | viShl (d : Nat) (a : Nat) (imm : Int)
  /-- VI_SHR (R156): Vector logical shift right by immediate. -/
  | viShr (d : Nat) (a : Nat) (imm : Int)
  /-- VI_SRA (R156): Vector arithmetic shift right by immediate. -/
  | viSra (d : Nat) (a : Nat) (imm : Int)
  /-- VI_MOV (R156): Vector move of a sign-extended immediate. -/
  | viMov (d : Nat) (imm : Int)
  /-- V64_ADD (R157): Vector 64-bit add on pairs. -/
  | v64Add (d : Nat) (a : Nat) (b : Nat)
  /-- V64_SUB (R157): Vector 64-bit subtract. -/
  | v64Sub (d : Nat) (a : Nat) (b : Nat)
  /-- V64_MUL (R157): Vector 64-bit low product. -/
  | v64Mul (d : Nat) (a : Nat) (b : Nat)
  /-- V64_MIN_I64 (R157): Vector 64-bit signed minimum. -/
  | v64MinI64 (d : Nat) (a : Nat) (b : Nat)
  /-- V64_MAX_I64 (R157): Vector 64-bit signed maximum. -/
  | v64MaxI64 (d : Nat) (a : Nat) (b : Nat)
  /-- V64_MIN_N64 (R157): Vector 64-bit unsigned minimum. -/
  | v64MinN64 (d : Nat) (a : Nat) (b : Nat)
  /-- V64_MAX_N64 (R157): Vector 64-bit unsigned maximum. -/
  | v64MaxN64 (d : Nat) (a : Nat) (b : Nat)
  /-- V64_AND (R157): Vector 64-bit and. -/
  | v64And (d : Nat) (a : Nat) (b : Nat)
  /-- V64_OR (R157): Vector 64-bit or. -/
  | v64Or (d : Nat) (a : Nat) (b : Nat)
  /-- V64_XOR (R157): Vector 64-bit xor. -/
  | v64Xor (d : Nat) (a : Nat) (b : Nat)
  /-- V64_SHL (R157): Vector 64-bit shift left by a single register. -/
  | v64Shl (d : Nat) (a : Nat) (b : Nat)
  /-- V64_SHR (R157): Vector 64-bit logical shift right. -/
  | v64Shr (d : Nat) (a : Nat) (b : Nat)
  /-- V64_SRA (R157): Vector 64-bit arithmetic shift right. -/
  | v64Sra (d : Nat) (a : Nat) (b : Nat)
  /-- V64_CLZ (R157): Vector 64-bit leading-zero count into a single vd. -/
  | v64Clz (d : Nat) (a : Nat)
  /-- V64_POPC (R157): Vector 64-bit population count into a single vd. -/
  | v64Popc (d : Nat) (a : Nat)
  /-- V64_MUL_WIDE_I32 (R157): Vector signed 32x32 product into a pair. -/
  | v64MulWideI32 (d : Nat) (a : Nat) (b : Nat)
  /-- V64_MUL_WIDE_N32 (R157): Vector unsigned 32x32 product into a pair. -/
  | v64MulWideN32 (d : Nat) (a : Nat) (b : Nat)
  /-- V_CMP_EQ (R158): Vector integer equal compare to predicate. -/
  | vCmpEq (p : Nat) (a : Nat) (b : Nat) (ty : CmpTy)
  /-- V_CMP_NE (R158): Vector integer not-equal compare to predicate. -/
  | vCmpNe (p : Nat) (a : Nat) (b : Nat) (ty : CmpTy)
  /-- V_CMP_LT (R158): Vector integer less-than compare to predicate. -/
  | vCmpLt (p : Nat) (a : Nat) (b : Nat) (ty : CmpTy)
  /-- V_CMP_LE (R158): Vector integer less-or-equal compare to predicate. -/
  | vCmpLe (p : Nat) (a : Nat) (b : Nat) (ty : CmpTy)
  /-- V_CMP_GT (R158): Vector integer greater-than compare to predicate. -/
  | vCmpGt (p : Nat) (a : Nat) (b : Nat) (ty : CmpTy)
  /-- V_CMP_GE (R158): Vector integer greater-or-equal compare to predicate. -/
  | vCmpGe (p : Nat) (a : Nat) (b : Nat) (ty : CmpTy)
  /-- V_FCMP_EQ (R159): Floating equal compare to predicate. -/
  | vFcmpEq (p : Nat) (a : Nat) (b : Nat) (f64 : Bool)
  /-- V_FCMP_NE (R159): Floating not-equal compare to predicate. -/
  | vFcmpNe (p : Nat) (a : Nat) (b : Nat) (f64 : Bool)
  /-- V_FCMP_LT (R159): Floating less-than compare to predicate. -/
  | vFcmpLt (p : Nat) (a : Nat) (b : Nat) (f64 : Bool)
  /-- V_FCMP_LE (R159): Floating less-or-equal compare to predicate. -/
  | vFcmpLe (p : Nat) (a : Nat) (b : Nat) (f64 : Bool)
  /-- V_FCMP_GT (R159): Floating greater-than compare to predicate. -/
  | vFcmpGt (p : Nat) (a : Nat) (b : Nat) (f64 : Bool)
  /-- V_FCMP_GE (R159): Floating greater-or-equal compare to predicate. -/
  | vFcmpGe (p : Nat) (a : Nat) (b : Nat) (f64 : Bool)
  /-- V_FCMP_NUM (R159): Floating compare true when neither operand is NaN. -/
  | vFcmpNum (p : Nat) (a : Nat) (b : Nat) (f64 : Bool)
  /-- V_FCMP_NAN (R159): Floating compare true when an operand is NaN. -/
  | vFcmpNan (p : Nat) (a : Nat) (b : Nat) (f64 : Bool)
  /-- V_FADD_F32 (R161): FP32 add under FPMODE. -/
  | vFaddF32 (d : Nat) (a : Nat) (b : Nat)
  /-- V_FSUB_F32 (R161): FP32 subtract. -/
  | vFsubF32 (d : Nat) (a : Nat) (b : Nat)
  /-- V_FMUL_F32 (R161): FP32 multiply. -/
  | vFmulF32 (d : Nat) (a : Nat) (b : Nat)
  /-- V_FMA_F32 (R161): FP32 fused multiply-add into vd. -/
  | vFmaF32 (d : Nat) (a : Nat) (b : Nat)
  /-- V_FMIN_F32 (R161): FP32 minimumNumber. -/
  | vFminF32 (d : Nat) (a : Nat) (b : Nat)
  /-- V_FMAX_F32 (R161): FP32 maximumNumber. -/
  | vFmaxF32 (d : Nat) (a : Nat) (b : Nat)
  /-- V_FABS_F32 (R161): FP32 sign clear. -/
  | vFabsF32 (d : Nat) (a : Nat)
  /-- V_FNEG_F32 (R161): FP32 sign invert. -/
  | vFnegF32 (d : Nat) (a : Nat)
  /-- V_FADD_F64 (R161): FP64 add on pairs. -/
  | vFaddF64 (d : Nat) (a : Nat) (b : Nat)
  /-- V_FSUB_F64 (R161): FP64 subtract. -/
  | vFsubF64 (d : Nat) (a : Nat) (b : Nat)
  /-- V_FMUL_F64 (R161): FP64 multiply. -/
  | vFmulF64 (d : Nat) (a : Nat) (b : Nat)
  /-- V_FMA_F64 (R161): FP64 fused multiply-add. -/
  | vFmaF64 (d : Nat) (a : Nat) (b : Nat)
  /-- V_FMIN_F64 (R161): FP64 minimumNumber. -/
  | vFminF64 (d : Nat) (a : Nat) (b : Nat)
  /-- V_FMAX_F64 (R161): FP64 maximumNumber. -/
  | vFmaxF64 (d : Nat) (a : Nat) (b : Nat)
  /-- V_FABS_F64 (R161): FP64 sign clear. -/
  | vFabsF64 (d : Nat) (a : Nat)
  /-- V_FNEG_F64 (R161): FP64 sign invert. -/
  | vFnegF64 (d : Nat) (a : Nat)
  /-- V_RCP_F32 (R162): Correctly rounded FP32 reciprocal. -/
  | vRcpF32 (d : Nat) (a : Nat)
  /-- V_RSQ_F32 (R162): Correctly rounded FP32 reciprocal square root. -/
  | vRsqF32 (d : Nat) (a : Nat)
  /-- V_SQRT_F32 (R162): Correctly rounded FP32 square root. -/
  | vSqrtF32 (d : Nat) (a : Nat)
  /-- V_EXP2_F32 (R162): Correctly rounded FP32 base-2 exponential. -/
  | vExp2F32 (d : Nat) (a : Nat)
  /-- V_LOG2_F32 (R162): Correctly rounded FP32 base-2 logarithm. -/
  | vLog2F32 (d : Nat) (a : Nat)
  /-- V_SIN_F32 (R162): Correctly rounded FP32 sine. -/
  | vSinF32 (d : Nat) (a : Nat)
  /-- V_COS_F32 (R162): Correctly rounded FP32 cosine. -/
  | vCosF32 (d : Nat) (a : Nat)
  /-- V_RCP_F64 (R162): Correctly rounded FP64 reciprocal. -/
  | vRcpF64 (d : Nat) (a : Nat)
  /-- V_RSQ_F64 (R162): Correctly rounded FP64 reciprocal square root. -/
  | vRsqF64 (d : Nat) (a : Nat)
  /-- V_SQRT_F64 (R162): Correctly rounded FP64 square root. -/
  | vSqrtF64 (d : Nat) (a : Nat)
  /-- CVT (R163): Converts each active lane from type st to type dt under a rounding mode and saturation. -/
  | cvt (d : Nat) (a : Nat) (dt : NumTy) (st : NumTy) (rm : RoundSel) (sat : Bool)
  /-- VROT (R165): Forward Gavotte rotation of register blocks with optional narrowing to BF16 or INT8. -/
  | vrot (d : Nat) (a : Nat) (blk : Blk) (sg : Nat) (fmt : RotFmt)
  /-- VIROT (R166): Inverse Gavotte rotation of register blocks back to FP32. -/
  | virot (d : Nat) (a : Nat) (blk : Blk) (sg : Nat) (fmt : RotFmt)
  /-- LX_AT (R171): Lane exchange reading the operand of an absolute source lane. -/
  | lxAt (d : Nat) (a : Nat) (src : Nat) (imm : Bool) (sm : Nat)
  /-- LX_LO (R171): Lane exchange from lane l minus c. -/
  | lxLo (d : Nat) (a : Nat) (src : Nat) (imm : Bool) (sm : Nat)
  /-- LX_HI (R171): Lane exchange from lane l plus c. -/
  | lxHi (d : Nat) (a : Nat) (src : Nat) (imm : Bool) (sm : Nat)
  /-- LX_XOR (R171): Lane exchange from lane l xor c. -/
  | lxXor (d : Nat) (a : Nat) (src : Nat) (imm : Bool) (sm : Nat)
  /-- POLL_EVERY (R172): Vote true when the predicate is 1 in every participant. -/
  | pollEvery (d : Nat) (a : Nat) (sm : Nat)
  /-- POLL_SOME (R172): Vote true when the predicate is 1 in some participant. -/
  | pollSome (d : Nat) (a : Nat) (sm : Nat)
  /-- POLL_BITS (R172): Gathers participants' predicates into a scalar mask. -/
  | pollBits (d : Nat) (a : Nat) (sm : Nat)
  /-- PEERS_B32 (R172): Writes the mask of participants holding an equal 32-bit value. -/
  | peersB32 (d : Nat) (a : Nat) (sm : Nat)
  /-- PEERS_B64 (R172): Writes the mask of participants holding an equal 64-bit value. -/
  | peersB64 (d : Nat) (a : Nat) (sm : Nat)
  /-- COMB_ADD_I32 (R173): Lane reduction by 32-bit add. -/
  | combAddI32 (d : Nat) (a : Nat) (sm : Nat)
  /-- COMB_MIN_I32 (R173): Lane reduction by signed minimum. -/
  | combMinI32 (d : Nat) (a : Nat) (sm : Nat)
  /-- COMB_MAX_I32 (R173): Lane reduction by signed maximum. -/
  | combMaxI32 (d : Nat) (a : Nat) (sm : Nat)
  /-- COMB_MIN_N32 (R173): Lane reduction by unsigned minimum. -/
  | combMinN32 (d : Nat) (a : Nat) (sm : Nat)
  /-- COMB_MAX_N32 (R173): Lane reduction by unsigned maximum. -/
  | combMaxN32 (d : Nat) (a : Nat) (sm : Nat)
  /-- COMB_AND_B32 (R173): Lane reduction by and. -/
  | combAndB32 (d : Nat) (a : Nat) (sm : Nat)
  /-- COMB_OR_B32 (R173): Lane reduction by or. -/
  | combOrB32 (d : Nat) (a : Nat) (sm : Nat)
  /-- COMB_XOR_B32 (R173): Lane reduction by xor. -/
  | combXorB32 (d : Nat) (a : Nat) (sm : Nat)
  /-- COMB_ADD_F32 (R173): Lane reduction by FP32 add in a fixed tree. -/
  | combAddF32 (d : Nat) (a : Nat) (sm : Nat)
  /-- COMB_MIN_F32 (R173): Lane reduction by FP32 minimumNumber. -/
  | combMinF32 (d : Nat) (a : Nat) (sm : Nat)
  /-- COMB_MAX_F32 (R173): Lane reduction by FP32 maximumNumber. -/
  | combMaxF32 (d : Nat) (a : Nat) (sm : Nat)
  /-- SEL (R160): Selects va where pa is 1 and vb elsewhere. -/
  | sel (d : Nat) (a : Nat) (b : Nat) (p : Nat)
  /-- PAND (R174): Predicate and. -/
  | pand (d : Nat) (a : Nat) (b : Nat)
  /-- POR (R174): Predicate or. -/
  | por (d : Nat) (a : Nat) (b : Nat)
  /-- PXOR (R174): Predicate xor. -/
  | pxor (d : Nat) (a : Nat) (b : Nat)
  /-- PANDN (R174): Predicate pa and not pb. -/
  | pandn (d : Nat) (a : Nat) (b : Nat)
  /-- PNOT (R174): Predicate not. -/
  | pnot (d : Nat) (a : Nat)
  /-- PMOV (R174): Predicate move. -/
  | pmov (d : Nat) (a : Nat)
  /-- PFROM (R174): Sets each lane's predicate from a bit of a scalar. -/
  | pfrom (d : Nat) (sr : Nat)
  /-- PTO (R174): Writes active lanes' predicates into a scalar mask. -/
  | pto (a : Nat) (sr : Nat)
  /-- LD_G (R186): Global load with address checks, raising L. -/
  | ldG (ty : MemTy) (hint : Hint) (d : Nat) (a : Nat) (off : Int)
  /-- ST_G (R186): Global store with address checks, raising S. -/
  | stG (ty : MemTy) (hint : Hint) (d : Nat) (a : Nat) (off : Int)
  /-- LD_S (R186): Scratchpad load, held by overlapping write intervals. -/
  | ldS (ty : MemTy) (d : Nat) (a : Nat) (off : Int)
  /-- ST_S (R186): Scratchpad store, held by overlapping intervals. -/
  | stS (ty : MemTy) (d : Nat) (a : Nat) (off : Int)
  /-- ATOM_LD (R189): Global atomic load at a scope and order. -/
  | atomLd (d : Nat) (a : Nat) (ty : AtomTy) (scope : Scope) (ord : Order) (pro : Bool)
  /-- ATOM_ST (R189): Global atomic store at a scope and order. -/
  | atomSt (d : Nat) (a : Nat) (ty : AtomTy) (scope : Scope) (ord : Order) (pro : Bool)
  /-- ATOM_EXCH (R189): Global atomic exchange. -/
  | atomExch (d : Nat) (a : Nat) (ty : AtomTy) (scope : Scope) (ord : Order) (pro : Bool)
  /-- ATOM_CAS (R189): Global atomic compare-and-swap. -/
  | atomCas (d : Nat) (a : Nat) (ty : AtomTy) (scope : Scope) (ord : Order) (pro : Bool)
  /-- ATOM_ADD (R189): Global atomic add. -/
  | atomAdd (d : Nat) (a : Nat) (ty : AtomTy) (scope : Scope) (ord : Order) (pro : Bool)
  /-- ATOM_MIN (R189): Global atomic minimum. -/
  | atomMin (d : Nat) (a : Nat) (ty : AtomTy) (scope : Scope) (ord : Order) (pro : Bool)
  /-- ATOM_MAX (R189): Global atomic maximum. -/
  | atomMax (d : Nat) (a : Nat) (ty : AtomTy) (scope : Scope) (ord : Order) (pro : Bool)
  /-- ATOM_AND (R189): Global atomic and. -/
  | atomAnd (d : Nat) (a : Nat) (ty : AtomTy) (scope : Scope) (ord : Order) (pro : Bool)
  /-- ATOM_OR (R189): Global atomic or. -/
  | atomOr (d : Nat) (a : Nat) (ty : AtomTy) (scope : Scope) (ord : Order) (pro : Bool)
  /-- ATOM_S_LD (R189): Scratchpad atomic load. -/
  | atomSLd (d : Nat) (a : Nat) (ty : AtomTy) (ord : Order)
  /-- ATOM_S_ST (R189): Scratchpad atomic store. -/
  | atomSSt (d : Nat) (a : Nat) (ty : AtomTy) (ord : Order)
  /-- ATOM_S_EXCH (R189): Scratchpad atomic exchange. -/
  | atomSExch (d : Nat) (a : Nat) (ty : AtomTy) (ord : Order)
  /-- ATOM_S_CAS (R189): Scratchpad atomic compare-and-swap. -/
  | atomSCas (d : Nat) (a : Nat) (ty : AtomTy) (ord : Order)
  /-- ATOM_S_ADD (R189): Scratchpad atomic add. -/
  | atomSAdd (d : Nat) (a : Nat) (ty : AtomTy) (ord : Order)
  /-- ATOM_S_MIN (R189): Scratchpad atomic minimum. -/
  | atomSMin (d : Nat) (a : Nat) (ty : AtomTy) (ord : Order)
  /-- ATOM_S_MAX (R189): Scratchpad atomic maximum. -/
  | atomSMax (d : Nat) (a : Nat) (ty : AtomTy) (ord : Order)
  /-- ATOM_S_AND (R189): Scratchpad atomic and. -/
  | atomSAnd (d : Nat) (a : Nat) (ty : AtomTy) (ord : Order)
  /-- ATOM_S_OR (R189): Scratchpad atomic or. -/
  | atomSOr (d : Nat) (a : Nat) (ty : AtomTy) (ord : Order)
  /-- FENCE (R192): Memory fence at a scope and order, optionally promoted. -/
  | fence (scope : Scope) (ord : Order) (pro : Bool)
  /-- CCTL_INV (R193): Drops clean copies of the world's lines at a scope. -/
  | cctlInv (a : Nat) (scope : Scope)
  /-- CCTL_WB (R193): Writes back M or O lines to the next level. -/
  | cctlWb (a : Nat) (scope : Scope)
  /-- CCTL_WBINV (R193): Writes back and then drops lines. -/
  | cctlWbinv (a : Nat) (scope : Scope)
  /-- PREFETCH (R194): Asks for lines to be filled into L2 or the LLC without observable access. -/
  | prefetch (a : Nat) (scope : Scope)
  /-- WAITMON (R195): Arms monitors on lines and blocks the warp until a wake event. -/
  | waitmon (a : Nat)
  /-- WAITGE (R196): Blocks until a 64-bit word reaches a threshold in every active lane. -/
  | waitge (d : Nat) (a : Nat) (sp : Bool)
  /-- TMLD (R200): Starts loading a 128-byte tensor map into a slot, making it busy. -/
  | tmld (kn : Nat) (d : Nat) (a : Nat)
  /-- TMSET (R201): Writes one field of a tensor-map slot at issue. -/
  | tmset (d : Nat) (a : Nat) (b : Nat)
  /-- CPY (R203): Issues a tensor copy from a parameter block, registering scoreboard intervals. -/
  | cpy (kn : Nat) (d : Nat)
  /-- CPYM (R208): Issues a multicast copy to up to eight teams of the cluster. -/
  | cpym (kn : Nat) (d : Nat)
  /-- SGSET (R202): Sets a world sign-seed register. -/
  | sgset (d : Nat) (a : Nat)
  /-- ROT (R245): Issues a forward block rotation of a tensor with narrowing. -/
  | rot (kn : Nat) (d : Nat)
  /-- IROT (R246): Issues an inverse rotation of a rotated tensor. -/
  | irot (kn : Nat) (d : Nat)
  /-- MMA (R253): Issues a matrix LOADB or MUL from a matrix parameter block. -/
  | mma (kn : Nat) (d : Nat)
  /-- ACC_LD (R250): Issues a load of a tensor into an accumulator strip. -/
  | accLd (kn : Nat) (d : Nat)
  /-- ACC_ST (R251): Issues a store of an accumulator strip to a tensor, with scaling and rotation. -/
  | accSt (kn : Nat) (d : Nat)
  /-- ACC_ZERO (R249): Zeroes named accumulator tiles and sets their KIND. -/
  | accZero (d : Nat)
  /-- BSWAP (R258): Sets the active B bank pointer. -/
  | bswap (d : Nat)
  /-- LAYER_F (R262): Issues a forward evaluation of an array region with adapter. -/
  | layerF (kn : Nat) (d : Nat)
  /-- LAYER_T (R263): Issues a transposed evaluation of an array region. -/
  | layerT (kn : Nat) (d : Nat)
  /-- LAYER_P (R264): Issues a probe evaluation of raw codes. -/
  | layerP (kn : Nat) (d : Nat)
  /-- APUSH (R268): Pushes bytes from a map onto the activation stack. -/
  | apush (kn : Nat) (d : Nat) (a : Nat)
  /-- APOP (R268): Pops bytes from the activation stack into a map. -/
  | apop (kn : Nat) (d : Nat) (a : Nat)
  /-- REEL_SMAX (R271): Issues a masked soft-maximum over rows, storing max and sum. -/
  | reelSmax (kn : Nat) (d : Nat)
  /-- REEL_NORM (R273): Issues a row normalisation, storing mean and reciprocal deviation. -/
  | reelNorm (kn : Nat) (d : Nat)
  /-- REEL_DSMAX (R272): Issues the soft-maximum gradient from stored statistics. -/
  | reelDsmax (kn : Nat) (d : Nat)
  /-- REEL_DNORM (R274): Issues the normalisation gradient with optional dgamma and dbeta. -/
  | reelDnorm (kn : Nat) (d : Nat)
  /-- REEL_STAT (R275): Issues export or import of Reel statistics entries. -/
  | reelStat (kn : Nat) (d : Nat)
  /-- REEL_CLR (R275): Issues clearing of Reel statistics entries. -/
  | reelClr (kn : Nat) (d : Nat)
  /-- PIMX (R307): Submits a near-bank command block to the hub's queue after issue checks. -/
  | pimx (kn : Nat) (d : Nat)
  /-- PIMLD (R304): Starts loading the team's near-bank microprogram. -/
  | pimld (kn : Nat) (d : Nat) (a : Nat)
  /-- MARK (R314): Places an ordering marker in the team's memory traffic. -/
  | mark (kn : Nat)
  /-- PIMWAIT (R315): Blocks the warp until its earlier pimx, pimld and mark complete. -/
  | pimwait
  /-- TRAP (R357): Enters the trap handler or suspends with F_TRAP. -/
  | trap (n : Nat)
  /-- ERET (R358): Returns from the trap handler using the trap frame. -/
  | eret
  /-- HOSTCALL (R177): Posts a HOSTCALL event record, waiting while the queue is full. -/
  | hostcall (a : Nat) (c : Nat)
  /-- GETSR (R175): Reads a system register into a scalar or vector register. -/
  | getsr (d : Nat) (r : Nat)
  /-- SETSR (R176): Writes a system register from a scalar register. -/
  | setsr (a : Nat) (r : Nat)
  /-- SLEEP (R178): Makes the warp not ready for about 32n cycles. -/
  | sleep (n : Nat)
  /-- CLAUSE_START (R66): A warp reaches a clause header, checks it and waits for its tokens and counters before issuing. -/
  | clauseStart
  /-- REGROUP_RENDEZVOUS (R53): When no live warp of the team is running, waiting br.rg rendezvous complete and threads are packed into slots. -/
  | regroupRendezvous (team : Nat)
  /-- SLEEP_EXPIRE (R178): A warp's sleep time runs out and it becomes ready. -/
  | sleepExpire (team warp : Nat)
  /-- WAITMON_WAKE (R195): A write, eviction or spurious event on a monitored line wakes the warp and releases its monitors. -/
  | waitmonWake (team warp : Nat)
  /-- WAITMON_TIMEOUT (R195): A waitmon's timeout expires and wakes the warp. -/
  | waitmonTimeout (team warp : Nat)
  /-- WAITGE_REREAD (R196): A write to a waited word makes waitge read again and end when the condition holds. -/
  | waitgeReread (team warp : Nat)
  /-- RETURN_STACK_SPILL (R147): The device moves return-stack entries between the core and the spill area. -/
  | returnStackSpill (team warp : Nat) (keep : Nat)
  /-- LAUNCH_RECORD_TAKE (R39): The dispatcher takes a record from a non-empty enabled queue and checks it. -/
  | launchRecordTake (world queue : Nat)
  /-- DEPENDENCE_CHECK (R37): The dispatcher reads a dependence word again after a write and decides it. -/
  | dependenceCheck (launch : Nat)
  /-- DISPATCH_DECISION (R42): The global dispatcher chooses a ready head launch and sends a batch of teams. -/
  | dispatchDecision
  /-- TEAM_END (R40): A team whose warps have exited and whose operations have completed ends and frees its resources. -/
  | teamEnd (team : Nat)
  /-- LOAD_COMPLETE (R183): A load's data return and its destinations are written or poisoned, lowering L. -/
  | loadComplete (op : Nat) (units : List Nat) (hitL1 : Bool)
  /-- STORE_COMPLETE (R183): A store is performed at the cluster's L2 or scratchpad, lowering S. -/
  | storeComplete (op : Nat) (units : List Nat)
  /-- ATOMIC_COMPLETE (R191): An atomic is performed at its point of coherence, taking a ticket if .sc, and its old value returns. -/
  | atomicComplete (op : Nat) (order : List Nat)
  /-- GATHER_BUFFER_DRAIN (R216): Gathered store bytes reach their coherent line at an unspecified time: those of some lines. -/
  | gatherBufferDrain (cluster : Nat) (lines : List Nat)
  /-- PAGE_WALK (R326): A TLB miss is walked through both stages when a walker is free and checked against the POT. -/
  | pageWalk (core world va : Nat)
  /-- HOME_GETS (R233): The home serves a GetS request for a line. -/
  | homeGets (line cluster : Nat)
  /-- HOME_GETM (R233): The home serves a GetM request for a line. -/
  | homeGetm (line cluster : Nat)
  /-- HOME_UPG (R234): The home serves an Upg, as an upgrade or as GetM if the requester is no longer a sharer. -/
  | homeUpg (line cluster : Nat)
  /-- HOME_PUTE (R232): The home takes a PutE eviction without data. -/
  | homePute (line cluster : Nat)
  /-- HOME_PUTM (R235): The home takes a PutM with data, or discards it from a former owner. -/
  | homePutm (line cluster : Nat)
  /-- HOME_PUTO (R235): The home takes a PutO with data, leaving S or I. -/
  | homePuto (line cluster : Nat)
  /-- HOME_MEMORY_DATA (R233): Data from memory arrive at the home and the line leaves ID. -/
  | homeMemoryData (line : Nat)
  /-- HOME_INVALIDATION_ACK (R233): An invalidation acknowledgement reaches the home and may end SA. -/
  | homeInvalidationAck (line cluster : Nat)
  /-- HOME_FORWARD_CONFIRM (R233): An owner's confirmation of a forward reaches the home and ends FD. -/
  | homeForwardConfirm (line cluster : Nat)
  /-- L2_INVALIDATION (R234): An L2 receives an invalidation, drops its copy and acknowledges. -/
  | l2Invalidation (line cluster : Nat)
  /-- L2_FORWARDED_REQUEST (R235): An owning L2 answers a forwarded request from its line or write-back buffer. -/
  | l2ForwardedRequest (line cluster : Nat)
  /-- L2_GRANT (R233): Data or an exclusive grant reaches the requesting L2, which performs its waiting access. -/
  | l2Grant (line cluster : Nat)
  /-- PROMOTION_DRAIN (R223): A drain request reaches a cluster, which merges the world's gathered stores and acknowledges. -/
  | promotionDrain (world cluster : Nat)
  /-- DRAIN_ACK (R223): A drain acknowledgement reaches the home, LRS becomes device and the promoted acquire proceeds. -/
  | drainAck (world cluster : Nat)
  /-- DIRECTORY_ENTRY_DROP (R223): The home drops a directory entry, draining first if LRS is narrower than device. -/
  | directoryEntryDrop (line : Nat)
  /-- TMLD_COMPLETE (R200): The tensor map arrives in its slot of the team, lowering L and the token. -/
  | tmldComplete (op team : Nat)
  /-- COPY_BEAT (R210): A copy path grants and moves one 64-byte beat of a copy. -/
  | copyBeat (op : Nat)
  /-- COPY_BUCKET_TICK (R211): Each hc the expert bucket and debt of every world on each cluster are updated. -/
  | copyBucketTick
  /-- CPY_COMPLETE (R207): A cpy adds its arrival word, writes status, arrives on its barrier and retires its entry. -/
  | cpyComplete (op : Nat)
  /-- CPYM_BEAT_ARRIVAL (R208): A multicast beat reaches a target core and is written or dropped by generation. -/
  | cpymBeatArrival (op target : Nat)
  /-- CPYM_COMPLETE (R208): Every target finished or dropped; the sender's STATUS and SMASK are written and C falls. -/
  | cpymComplete (op : Nat)
  /-- TENSOR_OP_COMPLETE (R242): A tensor, matrix, layer or Reel operation writes its results, flags, STATUS and barrier arrival and retires. -/
  | tensorOpComplete (op : Nat) (checks : ChunkChecks)
  /-- TILE_EVALUATION (R283): An AD plane evaluates one tile for an input vector and delivers ADC codes to its adder tree. -/
  | tileEvaluation (op vector tile : Nat)
  /-- STACK_COPY_COMPLETE (R268): An apush or apop finishes moving its bytes, lowering C and its token. -/
  | stackCopyComplete (op : Nat)
  /-- PIMLD_COMPLETE (R304): A microprogram has been read and validated, replacing the team's program or making it INVALID. -/
  | pimldComplete (op team : Nat)
  /-- PIM_COMMAND_START (R308): The hub translates and checks a command's pages and writes back their LLC lines before its rows. -/
  | pimCommandStart (op : Nat)
  /-- BP_ROW (R305): A bank processor runs the microprogram over one open row. -/
  | bpRow (op : Nat)
  /-- BP_FILL_ROW (R308): A bank processor sets every field of a row to the FILL pattern. -/
  | bpFillRow (op : Nat)
  /-- PIM_BLOCK_COMPLETE (R310): A command block writes its accumulators and status, arrives on its barrier and lowers C. -/
  | pimBlockComplete (op : Nat)
  /-- ORDINARY_BANK_REQUEST (R311): An ordinary read or write reaches a bank running a BP row and is queued until the row ends. -/
  | ordinaryBankRequest (bank : Nat)
  /-- BP_YIELD_WINDOW_EXPIRE (R311): The yield window W elapses and the bank processor resumes at its next row. -/
  | bpYieldWindowExpire (bank : Nat)
  /-- MARK_COMPLETE (R314): Traffic issued before a mark has been performed and its token falls. -/
  | markComplete (op : Nat)
  /-- EVENT_RECORD_ENTER (R373): An event or fault record enters the world's queue when room exists, with a PAD if needed. -/
  | eventRecordEnter (world source : Nat)
  /-- EVENT_QUEUE_RETRY (R373): The device retries a blocked event-queue access at least once per millisecond. -/
  | eventQueueRetry (world : Nat)
  /-- EVENT_FRAME_SEND (R373): Gathered records are sent in an EVENT frame after 45 records or 10 microseconds. -/
  | eventFrameSend (world : Nat)
  /-- PREEMPT_SAVE (R361): Once every warp of the team is takeable, operations drain or pause and the context is saved. -/
  | preemptSave (team : Nat)
  /-- PREEMPT_CANCEL (R361): A warp not takeable within 2^20 cc cancels the pre-emption. -/
  | preemptCancel (team : Nat)
  /-- TEAM_RESTORE (R362): A saved team is checked against allotments, scrubbed, restored and released when it fits. -/
  | teamRestore (team core : Nat)
  /-- WATCHDOG_EXPIRE (R364): A team idle for LIMIT ms has its warps suspended with F_WATCHDOG and optionally pre-empted. -/
  | watchdogExpire (team : Nat)
  /-- PAVANE_BATCH_START (R287): The batch interval or a mismatch starts a probe batch on a VALID region. -/
  | pavaneBatchStart (region : Nat)
  /-- PAVANE_BATCH_COMPLETE (R288): A finished batch updates every column's gain and offset, applies limits and saves them. -/
  | pavaneBatchComplete (region : Nat)
  /-- REVOKE_COMPLETE (R292): No valid handle or operation holds a REVOKING region; INTENT is written or the region is freed. -/
  | revokeComplete (region : Nat)
  /-- TILE_PROGRAMMED (R292): An AD finishes erasing and programming a tile and writes PROGRESS. -/
  | tileProgrammed (region ad : Nat)
  /-- REGION_VERIFY_COMPLETE (R292): Every AD has written VERIFY; the region commits to VALID with a new GEN or becomes FAILED. -/
  | regionVerifyComplete (region : Nat)
  /-- SCRUB_COMPLETE (R337): A page's scrubbing FILL closes and the page becomes owned. -/
  | scrubComplete (page : Nat)
  /-- LOG_WINDOW_CLOSE (R342): A 1-microsecond window ends and its coalesced access-log records are written. -/
  | logWindowClose (world : Nat)
  /-- HEALTH_WINDOW_AGE (R377): Soft-error or link-failure counts age out of the 24-hour window and HEALTH bits change. -/
  | healthWindowAge (soft link : Nat)
  /-- OPEN (R366): Opens a session binding a host endpoint to a world after credential check. -/
  | openSession (rtag : Nat) (formOk : Bool) (world : Nat) (nonce ciphertext signature : List Byte)
  /-- ATTEST (R345): Returns signed evidence of a world for a nonce. -/
  | attest (rtag : Nat) (formOk : Bool) (world : Nat) (nonce : List Byte)
  /-- RELEASE (R347): Decapsulates and decrypts a secret and writes it into world memory if the layout generation matches. -/
  | releaseSecret (rtag : Nat) (formOk : Bool) (world layoutGen : Nat) (kem : List Byte) (gpa len : Nat)
      (ciphertext tag : List Byte)
  /-- WRITE (R371): Writes host data into the session world's guest-physical memory as a system-scope release. -/
  | write (h : MsgHead) (gpa : Nat) (data : List Byte)
  /-- READ (R371): Reads bytes of the session world's guest-physical memory as a system-scope acquire; `rest`, what the message holds past
  its operands. -/
  | read (h : MsgHead) (gpa : Nat) (len : Nat) (rest : List Byte)
  /-- KICK (R372): Stores a queue's TAIL as a system-scope release. -/
  | kick (h : MsgHead) (queue : Nat) (tail : Nat)
  /-- CLOSE (R366): Ends a session. -/
  | closeSession (h : MsgHead)
  /-- FRAME_DISCARD (R365): A frame that is oversized, not HCT, of a bad version, tag or SEQ is discarded without reply. -/
  | frameDiscard (f : EthernetFrame)
  /-- NEIGHBOR_SOLICITATION (R365): The port answers an IPv6 neighbour solicitation for its addresses. -/
  | neighborSolicitation (target : Nat)
  /-- WORLD_CREATE (R318): Makes a FREE world ACTIVE with fresh keys and reset allotments. -/
  | worldCreate (h : MsgHead) (w : Nat) (pimok : Bool) (qtable evq : Nat)
  /-- WORLD_DESTROY (R318): Aborts a world's work, erases keys and frees its pages, then makes it FREE. -/
  | worldDestroy (h : MsgHead) (w : Nat)
  /-- S2ROOT_SET (R318): Sets the root of a world's stage-2 tables. -/
  | s2rootSet (h : MsgHead) (w pa : Nat)
  /-- PAGE_ASSIGN (R337): Assigns free pages to a world, starting their scrub. -/
  | pageAssign (h : MsgHead) (w : Nat) (pim : Bool) (pages : List Nat)
  /-- PAGE_SHARE (R323): Makes owned pages shared-read-only after invalidations and merges. -/
  | pageShare (h : MsgHead) (pages : List Nat)
  /-- PAGE_RELEASE (R323): Frees pages after invalidating translations and discarding cached and gathered data. -/
  | pageRelease (h : MsgHead) (pages : List Nat)
  /-- CACHEALLOT_SET (R328): Writes a world's cache allotment and re-derives way masks. -/
  | cacheallotSet (h : MsgHead) (w value : Nat)
  /-- LOG_SET (R341): Configures a world's range access log and resets its header. -/
  | logSet (h : MsgHead) (w logBase logSize : Nat) (watch : List WatchEntry)
  /-- S1ROOT_SET (R318): Sets the root of the sender world's stage-1 tables. -/
  | s1rootSet (h : MsgHead) (gpa : Nat)
  /-- TLB_INV (R327): Invalidates matching TLB entries of a world's stage across the module. -/
  | tlbInv (h : MsgHead) (w stage range lo hi : Nat)
  /-- CTX_SET (R360): Names the sender world's context pool. -/
  | ctxSet (h : MsgHead) (va len : Nat)
  /-- REGION_STAGE (R291): Writes image bytes, probe sets or placement tables into AD staging pools. -/
  | regionStage (h : MsgHead) (adMask kind id offset : Nat) (data : List Byte)
  /-- REGION_PROGRAM (R292): Accepts reprogramming of a region and moves it to REVOKING. -/
  | regionProgram (h : MsgHead) (region id pavaneCtl : Nat) (digest : List Byte)
  /-- REGION_FREE (R291): Moves a region to REVOKING for freeing. -/
  | regionFree (h : MsgHead) (region : Nat)
  /-- HANDLE_SET (R281): Writes a world's array handle entries and HCOUNT. -/
  | handleSet (h : MsgHead) (w hcount first : Nat) (entries : List Nat)
  /-- COLUMN_SET (R290): Writes Pavane gains and offsets of region columns at once. -/
  | columnSet (h : MsgHead) (region first : Nat) (pairs : List (Nat × Nat))
  /-- PAVANE_SET (R290): Writes a region's PAVANE_CTL. -/
  | pavaneSet (h : MsgHead) (region value : Nat)
  /-- REGION_READ (R369): Returns bytes of a region's descriptor, placement table or column table. -/
  | regionRead (h : MsgHead) (region part len offset : Nat)
  /-- RESUME (R351): Resumes a suspended warp, re-issuing or skipping the faulting instruction. -/
  | resume (h : MsgHead) (w source seq : Nat) (skip : Bool)
  /-- OP_RESUME (R353): Resumes a parked operation from its saved progress. -/
  | opResume (h : MsgHead) (w rid : Nat)
  /-- OP_ABANDON (R354): Completes a parked operation with STATUS FAULT. -/
  | opAbandon (h : MsgHead) (w rid : Nat)
  /-- TEAM_ABORT (R363): Ends a team with F_ABORT and abandons its parked operations. -/
  | teamAbort (h : MsgHead) (w queue record teamId : Nat)
  /-- LAUNCH_ABORT (R40): Ends a launch with status ABORTED. -/
  | launchAbort (h : MsgHead) (w queue record : Nat)
  /-- PREEMPT (R359): Requests pre-emption of a world's, a launch's or a team's teams. -/
  | preempt (h : MsgHead) (w scope queue record teamId : Nat)
  /-- RECEIPT (R340): Returns a world's signed scrub receipt. -/
  | receipt (h : MsgHead) (w : Nat) (nonce : List Byte)
  /-- CHECKPOINT (R343): Returns a world's signed access-log checkpoint. -/
  | checkpoint (h : MsgHead) (w : Nat) (nonce : List Byte)
  /-- MEASLOG_READ (R375): Returns the measurement log. -/
  | measlogRead (h : MsgHead)
  /-- ADDR_SET (R365): Adds the module's global IPv6 address with duplicate address detection. -/
  | addrSet (h : MsgHead) (address : Nat)
  /-- CRED_SET (R366): Sets a world's session credential. -/
  | credSet (h : MsgHead) (w : Nat) (key : List Byte)
  /-- OCC_READ (R331): Returns a world's cache occupancy counters for a range of slices. -/
  | occRead (h : MsgHead) (w cache first n : Nat)
  /-- SOFTERR_READ (R377): Returns lifetime soft-error counts by kind. -/
  | softerrRead (h : MsgHead)
  /-- POWER_SET (R378): Writes POWERCTL, setting the power limit in force. -/
  | powerSet (h : MsgHead) (value : Nat)
  /-- REG_READ (R369): Returns the value of a module or world register. -/
  | regRead (h : MsgHead) (reg index : Nat)
  /-- REG_WRITE (R369): Writes DISPCTL, BOOSTCTL, PIMCTL, PREEMPTCTL or WDCTL. -/
  | regWrite (h : MsgHead) (reg index value : Nat)
  /-- XALLOT_WRITE (R60): Writes a world's XALLOT unless RESV limits forbid it, moving the layout generation and retrying restores. -/
  | xallotWrite (h : MsgHead) (w value : Nat)
  /-- CPYBW_WRITE (R210): Writes a world's copy-bandwidth allotment, applying from the next beat. -/
  | cpybwWrite (h : MsgHead) (w value : Nat)
  /-- MODULE_RESET (R374): Module reset runs the boot sequence of verification, training, orientation checks, replay and key generation. -/
  | moduleReset (boot : BootInputs)
  /-- POWER_SAMPLE (R379): Input power is measured every 100 microseconds. -/
  | powerSample (watts : Nat)
  /-- POWER_CONTROL_DECISION (R379): Each 1 ms interval sets the module level F and evaluation pacing from mean power and temperature. -/
  | powerControlDecision (celsius : List Nat)
  /-- THERMAL_TRIP (R380): A die reaching 115 degrees C triggers the power-loss sequence. -/
  | thermalTrip (celsius : Nat)
  /-- SUPPLY_UNDERVOLTAGE (R381): The supply falls below 40 V and the module performs the power-loss sequence on hold-up energy. -/
  | supplyUndervoltage (millivolts : Nat)
  /-- UNASSIGNED_WORD (R79): A warp reaches a clause word whose major opcode is 0x3F or unassigned, or whose funct or field value is unassigned or reserved bits nonzero, and raises F_ILLEGAL at that word. -/
  | unassignedWord
  /-- UNKNOWN_TYPE_OR_COMMAND_CODE (R368): A frame of an unknown TYPE, or a MGMT request with an unknown command code, is answered with BAD_REQUEST and nothing is performed. -/
  | unknownTypeOrCommandCode (h : MsgHead) (mgmt : Bool) (code : Nat)
  /-- DUPLICATE_ADDRESS_DETECTION (R365): Duplicate address detection for one of the port's IPv6 addresses reaches its end after its wait. -/
  | duplicateAddressDetection (address : Nat) (conflict : Bool)
  deriving DecidableEq, Repr, Inhabited

/-- What the machine does next: a scheduler of a core takes an issue opportunity (R48), another agent acts, or something
outside the module damages a line's DRAM cells (R335) or the next packet that carries it (R333). -/
inductive Tick where
  | issue (core sched : Nat)
  | event (e : Instr)
  | damageCells (line : Nat) (fault : CellFault)
  | damagePacket (line : Nat)
  deriving DecidableEq, Repr, Inhabited

end Sys2Proof
end

