-- ==== Sys2Proof/Config.lean ====
section
/-! DEFINITION. What an implementation fixes and what the manual leaves open: constants without a body, so that no
proof can see a value. Each is applied to the operands it depends on or to the counter `State.fresh`. -/

namespace Sys2Proof.Config

/-- A fresh number, for every value the manual calls an unspecified member of a set: used modulo the size of the
set. -/
opaque freeNat : Nat → Nat

/-- A fresh byte: contents the manual leaves open (racing bytes, device-internal layouts). -/
opaque freeByte : Nat → Byte

/-- What acts next when nothing is scheduled: the manual orders no two agents except by its own rules. -/
opaque freeTick : Nat → Tick

/-- The NQ4 code of a value midway between the codes 7 and 8, whose magnitudes are equal (R123 names no choice). -/
opaque nq4Zero : Nat → Nat

/-- Whether the ML-DSA-44 signature verifies under the credential over the message (R366). -/
opaque verify : List Byte → List Byte → List Byte → Bool

/-- The ML-DSA-44 signature of 2,420 bytes under the device identity key (R340, R344). -/
opaque sign : List Byte → List Byte

/-- The shared secret that the boot's ML-KEM-768 private key decapsulates (R344, R347): boot number, ciphertext. -/
opaque decapsulate : Nat → List Byte → List Byte

/-- The ML-KEM-768 public key of 1,184 bytes drawn at a boot (R344). -/
opaque kemPublicKey : Nat → List Byte

/-- 32 bytes of Suzin's random source, for the keys of a world (R332). -/
opaque freeKey : Nat → List Byte

/-- AES-256-XTS of a 128-byte line (R334): the two keys, the tweak, the plaintext. -/
opaque xts : List Byte → List Byte → Nat → List Byte → List Byte

/-- AES-256-CMAC of a message under a key (R334). -/
opaque cmac : List Byte → List Byte → List Byte

/-- AES-256-GCM sealing of a packet (R332, R333): key, 96-bit nonce, additional data, plaintext; the ciphertext and the
128-bit tag. -/
opaque gcmSeal : List Byte → Nat → List Byte → List Byte → List Byte × List Byte

/-- AES-256-GCM opening: key, nonce, additional data, ciphertext, tag; none when the tag fails (R347). -/
opaque gcmOpen : List Byte → List Byte → List Byte → List Byte → List Byte → Option (List Byte)

/-- The owner credential held in Suzin, written at provisioning (R366). -/
opaque ownerCredential : List Byte

/-- Set of the L1 that a line lies in, used modulo the number of sets (R14 names none). -/
opaque freeL1Set : Nat → Nat

/-- Efwin's factory MAC address, from which the link-local address is formed (R365). -/
opaque factoryMac : Nat

end Sys2Proof.Config
end

