-- ==== Sys2Proof/Machine/Store.lean ====
section
/-! DEFINITION. Sparse stores as plain data: association lists in one canonical form (keys strictly rising),
used for memory, register files and every numbered table of the machine. -/

namespace Sys2Proof.Machine

/-- A finite map from numbers, kept sorted by key with no repeats. -/
abbrev KMap (α : Type) := List (Nat × α)

/-- The entry at `k`, if the map lists one. -/
def KMap.find {α : Type} : KMap α → Nat → Option α
  | [], _ => none
  | (j, v) :: r, k => if j = k then some v else KMap.find r k

/-- The map without the entry at `k`. -/
def KMap.erase {α : Type} : KMap α → Nat → KMap α
  | [], _ => []
  | (j, v) :: r, k => if j = k then KMap.erase r k else (j, v) :: KMap.erase r k

/-- `(k, v)` put before the first larger key. -/
def KMap.insertSorted {α : Type} (k : Nat) (v : α) : KMap α → KMap α
  | [] => [(k, v)]
  | (j, x) :: r => if k < j then (k, v) :: (j, x) :: r else (j, x) :: KMap.insertSorted k v r

/-- The map with `k` bound to `v`. -/
def KMap.put {α : Type} (m : KMap α) (k : Nat) (v : α) : KMap α :=
  KMap.insertSorted k v (KMap.erase m k)

/-- The keys rise strictly. -/
def KMap.sorted {α : Type} : KMap α → Bool
  | [] => true
  | (j, _) :: r => (r.all fun e => decide (j < e.1)) && KMap.sorted r

/-- A store with a value for every number: what is not listed reads as the default. -/
abbrev Sparse (α : Type) := KMap α

/-- The value at `k`; `d` is what an unlisted key reads as. -/
def Sparse.get {α : Type} (d : α) (m : Sparse α) (k : Nat) : α := (KMap.find m k).getD d

/-- The store with `v` at `k`: writing the default removes the entry, so equal stores are equal lists. -/
def Sparse.set {α : Type} [DecidableEq α] (d : α) (m : Sparse α) (k : Nat) (v : α) : Sparse α :=
  if v = d then KMap.erase m k else KMap.put m k v

/-- The canonical form: keys strictly rising and no entry equal to the default. -/
def Sparse.wf {α : Type} [DecidableEq α] (d : α) (m : Sparse α) : Bool :=
  KMap.sorted m && m.all fun e => decide (e.2 ≠ d)

/-- `n` consecutive values from `k`. -/
def Sparse.getN {α : Type} (d : α) (m : Sparse α) (k : Nat) : Nat → List α
  | 0 => []
  | n + 1 => Sparse.get d m k :: Sparse.getN d m (k + 1) n

/-- The values of a list written at consecutive keys from `k`. -/
def Sparse.setN {α : Type} [DecidableEq α] (d : α) (m : Sparse α) (k : Nat) : List α → Sparse α
  | [] => m
  | v :: r => Sparse.setN d (Sparse.set d m k v) (k + 1) r

/-- Little-endian value of a list of bytes (R5). -/
def leVal : List Byte → Nat
  | [] => 0
  | b :: r => b.toNat + 256 * leVal r

/-- The `n` low bytes of a number, lowest first (R5). -/
def leBytes : Nat → Nat → List Byte
  | 0, _ => []
  | n + 1, v => BitVec.ofNat 8 (v % 256) :: leBytes n (v / 256)

/-- The field `[hi:lo]` of a number read as bits (R5). -/
def field (v hi lo : Nat) : Nat := v / 2 ^ lo % 2 ^ (hi + 1 - lo)

/-- Bit `n` of a number. -/
def bitOf (v n : Nat) : Bool := v / 2 ^ n % 2 == 1

/-- `v` with the field `[hi:lo]` replaced by `x`. -/
def setField (v hi lo x : Nat) : Nat :=
  v - field v hi lo * 2 ^ lo + x % 2 ^ (hi + 1 - lo) * 2 ^ lo

/-- The two's-complement reading of an `n`-bit number (R77). -/
def signExt (n v : Nat) : Int := if v % 2 ^ n < 2 ^ (n - 1) then (v % 2 ^ n : Nat) else (v % 2 ^ n : Nat) - (2 ^ n : Nat)

/-- `⌈a / b⌉`. -/
def ceilDiv (a b : Nat) : Nat := (a + b - 1) / b

/-- The lanes of a mask, ascending. -/
def lanesOf (m : LaneMask) : List Nat := (List.range 32).filter fun l => m.getLsbD l

/-- popcount of a lane mask. -/
def popcount (m : LaneMask) : Nat := (lanesOf m).length

end Sys2Proof.Machine
end

