-- ==== Sys2Proof/Machine/Num.lean ====
section
/-! DEFINITION. Number formats, rounding and exact arithmetic (R105 to R119): values are exact extended reals
(sign and a fraction), and rounding to a format is one function. -/

namespace Sys2Proof.Machine

/-- A binary floating-point format: exponent and fraction widths (R105). -/
structure Fmt where
  ebits : Nat
  mbits : Nat
  deriving DecidableEq, Repr

/-- binary64 (R105). -/
def fp64 : Fmt := { ebits := 11, mbits := 52 }
/-- binary32 (R105). -/
def fp32 : Fmt := { ebits := 8, mbits := 23 }
/-- bfloat16, the upper 16 bits of binary32 (R105). -/
def bf16 : Fmt := { ebits := 8, mbits := 7 }

/-- The exponent bias. -/
def Fmt.bias (f : Fmt) : Nat := 2 ^ (f.ebits - 1) - 1
/-- The bits of +Inf. -/
def Fmt.inf (f : Fmt) : Nat := (2 ^ f.ebits - 1) * 2 ^ f.mbits
/-- The sign bit. -/
def Fmt.sign (f : Fmt) : Nat := 2 ^ (f.ebits + f.mbits)
/-- The canonical quiet NaN (R105, R107). -/
def Fmt.qnan (f : Fmt) : Nat := f.inf + 2 ^ (f.mbits - 1)
/-- The exponent of the smallest subnormal (R105). -/
def Fmt.qmin (f : Fmt) : Int := 1 - (f.bias : Int) - (f.mbits : Int)

/-- The rounding modes (R108). -/
inductive Mode where
  | rne | rtz | rdn | rup
  deriving DecidableEq, Repr

def flagNV : Flags := 16#5
def flagDZ : Flags := 8#5
def flagOF : Flags := 4#5
def flagUF : Flags := 2#5
def flagNX : Flags := 1#5

/-- An exact extended real: NaN, a signed infinity, or a signed fraction `n / d` (zero has `n = 0` and keeps
its sign). -/
inductive XR where
  | nan
  | inf (neg : Bool)
  | fin (neg : Bool) (n d : Nat)
  deriving DecidableEq, Repr

/-- `2 ^ k` for an integer `k` as a fraction times `n / d`. -/
def scaleFrac (n d : Nat) (k : Int) : Nat × Nat :=
  if 0 ≤ k then (n * 2 ^ k.toNat, d) else (n, d * 2 ^ (-k).toNat)

/-- `⌊log2 (n / d)⌋` for `n, d > 0`. -/
def floorLog2 (n d : Nat) : Int :=
  let e : Int := (Nat.log2 n : Int) - (Nat.log2 d : Int)
  let c := scaleFrac n d (-e)
  if c.1 < c.2 then e - 1 else e

/-- Whether a mode takes the member of larger magnitude when `m + r / d` (with `r < d`) lies between two
members (R108). -/
def roundsUp (mode : Mode) (neg : Bool) (m r d : Nat) : Bool :=
  match mode with
  | .rne => decide (2 * r > d) || (decide (2 * r = d) && decide (m % 2 = 1))
  | .rtz => false
  | .rdn => neg && decide (r ≠ 0)
  | .rup => !neg && decide (r ≠ 0)

/-- `n / d` rounded to a whole number of magnitude (sign `neg`). -/
def roundMag (mode : Mode) (neg : Bool) (n d : Nat) : Nat :=
  let m := n / d
  let r := n % d
  if roundsUp mode neg m r d then m + 1 else m

/-- The result of an overflow by mode, as a magnitude: +Inf or the largest finite value (R109). -/
def overflowMag (f : Fmt) (mode : Mode) (neg : Bool) : Nat :=
  match mode, neg with
  | .rne, _ => f.inf
  | .rtz, _ => f.inf - 1
  | .rdn, true => f.inf
  | .rdn, false => f.inf - 1
  | .rup, true => f.inf - 1
  | .rup, false => f.inf

/-- A nonzero magnitude `n / d` rounded to a format: the magnitude's bits and the flags (R108 to R111). -/
def roundFrac (f : Fmt) (mode : Mode) (ftz : Bool) (neg : Bool) (n d : Nat) : Nat × Flags :=
  let e := floorLog2 n d
  let q := max (e - (f.mbits : Int)) f.qmin
  let c := scaleFrac n d (-q)
  let inexact := c.1 % c.2 != 0
  let bits := (q - f.qmin).toNat * 2 ^ f.mbits + roundMag mode neg c.1 c.2
  let u := scaleFrac n d ((f.mbits : Int) - e)
  let carries := roundMag mode neg u.1 u.2 == 2 ^ (f.mbits + 1)
  let emin : Int := 1 - (f.bias : Int)
  let tiny := decide (e < emin) && !(decide (e = emin - 1) && carries)
  if f.inf ≤ bits then (overflowMag f mode neg, flagOF ||| flagNX)
  else if tiny && ftz then (0, flagUF ||| flagNX)
  else (bits, (if inexact then flagNX else 0#5) ||| (if tiny && inexact then flagUF else 0#5))

/-- An exact value delivered in a format (R107 to R111). -/
def XR.round (f : Fmt) (mode : Mode) (ftz : Bool) : XR → Nat × Flags
  | .nan => (f.qnan, 0#5)
  | .inf neg => (f.inf + (if neg then f.sign else 0), 0#5)
  | .fin neg n d =>
    if n = 0 then ((if neg then f.sign else 0), 0#5)
    else
      let r := roundFrac f mode ftz neg n d
      (r.1 + (if neg then f.sign else 0), r.2)

/-- `round_rne(x, fmt)` without FTZ (R108). -/
def XR.rne (f : Fmt) (x : XR) : Nat × Flags := x.round f .rne false

/-- Whether a bit pattern is a NaN. -/
def Fmt.isNaN (f : Fmt) (b : Nat) : Bool := decide (f.inf < b % f.sign)
/-- Whether a bit pattern is a signalling NaN: quiet bit clear (R107). -/
def Fmt.isSNaN (f : Fmt) (b : Nat) : Bool := f.isNaN b && !bitOf b (f.mbits - 1)
/-- Whether a bit pattern is an infinity. -/
def Fmt.isInf (f : Fmt) (b : Nat) : Bool := decide (b % f.sign = f.inf)
/-- The sign of a bit pattern. -/
def Fmt.neg (f : Fmt) (b : Nat) : Bool := bitOf b (f.ebits + f.mbits)

/-- The exact value of a bit pattern; with `ftz` a subnormal reads as a zero of its sign (R105, R111). -/
def Fmt.val (f : Fmt) (ftz : Bool) (b : Nat) : XR :=
  let mag := b % f.sign
  let e := mag / 2 ^ f.mbits
  let m := mag % 2 ^ f.mbits
  if f.inf < mag then .nan
  else if mag = f.inf then .inf (f.neg b)
  else if e = 0 then
    if ftz then .fin (f.neg b) 0 1
    else
      let c := scaleFrac m 1 f.qmin
      .fin (f.neg b) c.1 c.2
  else
    let c := scaleFrac (m + 2 ^ f.mbits) 1 ((e : Int) - 1 + f.qmin)
    .fin (f.neg b) c.1 c.2

/-- An integer as an exact value. -/
def XR.ofInt (i : Int) : XR := .fin (decide (i < 0)) i.natAbs 1

/-- The fraction `i / d`. -/
def XR.ofFrac (i : Int) (d : Nat) : XR := .fin (decide (i < 0)) i.natAbs d

def XR.isNaN : XR → Bool
  | .nan => true
  | _ => false

def XR.isZero : XR → Bool
  | .fin _ n _ => n == 0
  | _ => false

def XR.isInf : XR → Bool
  | .inf _ => true
  | _ => false

/-- Neither NaN nor infinity. -/
def XR.isFin : XR → Bool
  | .fin _ _ _ => true
  | _ => false

def XR.neg : XR → XR
  | .nan => .nan
  | .inf s => .inf (!s)
  | .fin s n d => .fin (!s) n d

/-- The numerator with its sign. -/
def signedNum (neg : Bool) (n : Nat) : Int := if neg then -(n : Int) else (n : Int)

/-- The exact sum. A zero result takes its sign as IEEE 754-2019 prescribes: -0 from a sum of opposite-signed
operands only under RDN (R107); infinities of opposite sign are invalid (R161). -/
def XR.add (mode : Mode) : XR → XR → XR × Flags
  | .nan, _ => (.nan, 0#5)
  | _, .nan => (.nan, 0#5)
  | .inf a, .inf b => if a = b then (.inf a, 0#5) else (.nan, flagNV)
  | .inf a, _ => (.inf a, 0#5)
  | _, .inf b => (.inf b, 0#5)
  | .fin a n d, .fin b m k =>
    let s := signedNum a n * (k : Int) + signedNum b m * (d : Int)
    if s = 0 then (.fin (if a = b then a else decide (mode = .rdn)) 0 1, 0#5)
    else (.fin (decide (s < 0)) s.natAbs (d * k), 0#5)

/-- The exact product; zero by infinity is invalid (R161). -/
def XR.mul : XR → XR → XR × Flags
  | .nan, _ => (.nan, 0#5)
  | _, .nan => (.nan, 0#5)
  | .inf a, .inf b => (.inf (a != b), 0#5)
  | .inf a, .fin b m _ => if m = 0 then (.nan, flagNV) else (.inf (a != b), 0#5)
  | .fin a n _, .inf b => if n = 0 then (.nan, flagNV) else (.inf (a != b), 0#5)
  | .fin a n d, .fin b m k => (.fin (a != b) (n * m) (d * k), 0#5)

/-- The exact quotient as IEEE 754-2019 gives it. -/
def XR.div : XR → XR → XR × Flags
  | .nan, _ => (.nan, 0#5)
  | _, .nan => (.nan, 0#5)
  | .inf _, .inf _ => (.nan, flagNV)
  | .inf a, .fin b _ _ => (.inf (a != b), 0#5)
  | .fin a _ _, .inf b => (.fin (a != b) 0 1, 0#5)
  | .fin a n d, .fin b m k =>
    if m = 0 then if n = 0 then (.nan, flagNV) else (.inf (a != b), flagDZ)
    else (.fin (a != b) (n * k) (d * m), 0#5)

/-- The value times `2 ^ k`. -/
def XR.scale2 (k : Int) : XR → XR
  | .fin s n d => let c := scaleFrac n d k; .fin s c.1 c.2
  | x => x

/-- `x ≤ y` on values that are not NaN; -0 equals +0. -/
def XR.le : XR → XR → Bool
  | .nan, _ => false
  | _, .nan => false
  | .inf true, _ => true
  | _, .inf false => true
  | .inf false, _ => false
  | _, .inf true => false
  | .fin a n d, .fin b m k => decide (signedNum a n * (k : Int) ≤ signedNum b m * (d : Int))

/-- `x < y` on values that are not NaN. -/
def XR.lt (x y : XR) : Bool := !x.isNaN && !y.isNaN && !(XR.le y x)

/-- `x = y` as numbers. -/
def XR.eqv (x y : XR) : Bool := XR.le x y && XR.le y x

/-- An exact finite value rounded to an integer (R108, format "integer"). -/
def XR.toInt (mode : Mode) : XR → Int
  | .fin s n d => signedNum s (roundMag mode s n d)
  | _ => 0

/-- Whether a finite value is a whole number. -/
def XR.isInt : XR → Bool
  | .fin _ n d => n % d == 0
  | _ => false

/-- The magnitude of a value. -/
def XR.abs : XR → XR
  | .nan => .nan
  | .inf _ => .inf false
  | .fin _ n d => .fin false n d

/-- The larger of two values that are not NaN. -/
def XR.max (x y : XR) : XR := if XR.le x y then y else x

/-- `⌊log2 |x|⌋` of a nonzero finite value. -/
def XR.log2 : XR → Int
  | .fin _ n d => floorLog2 n d
  | _ => 0

/-- Integer square root, bit by bit from `2 ^ k`: the largest `r` with `r * r ≤ n` among the bits tried. -/
def isqrtFrom (n : Nat) : Nat → Nat → Nat
  | 0, r => if (r + 1) * (r + 1) ≤ n then r + 1 else r
  | k + 1, r =>
    let t := r + 2 ^ (k + 1)
    isqrtFrom n k (if t * t ≤ n then t else r)

/-- `⌊√n⌋`. -/
def isqrt (n : Nat) : Nat := if n = 0 then 0 else isqrtFrom n (Nat.log2 n / 2 + 1) 0

/-- The magnitude known to lie strictly between `m · 2^-p` and `(m+1) · 2^-p`, or equal to `m · 2^-p` when `ex`:
as a fraction that rounds as the value does. -/
def betweenFrac (m p : Nat) (ex : Bool) : Nat × Nat :=
  if ex then (m, 2 ^ p) else (2 * m + 1, 2 ^ (p + 1))

/-- `√(n/d)` as a fraction that rounds as the root does: 160 bits or more are kept. -/
def sqrtFrac (n d : Nat) : Nat × Nat :=
  let p := 160 + Nat.log2 d
  let v := n * 2 ^ (2 * p) / d
  let s := isqrt v
  betweenFrac s p (decide (s * s * d = n * 2 ^ (2 * p)))

/-- The working precision of the transcendental functions, in bits after the point. -/
def workBits : Nat := 512

/-- `atanh(1/k)`-style series with `terms` terms in fixed point: sum over i of `x^(2i+1)/(2i+1)`, `t` holding
the current power and `sq` the square as a fraction `a / b`. -/
def oddSeries (a b : Nat) : Nat → Nat → Int → Int → Int
  | 0, _, _, acc => acc
  | n + 1, i, t, acc => oddSeries a b n (i + 1) (t * (a : Int) / (b : Int)) (acc + t / ((2 * i + 1 : Nat) : Int))

/-- The alternating form of the series, for `atan(1/k)`. -/
def altSeries (k : Nat) : Nat → Nat → Int → Int → Int
  | 0, _, _, acc => acc
  | n + 1, i, t, acc => altSeries k n (i + 1) (-(t / ((k * k : Nat) : Int))) (acc + t / ((2 * i + 1 : Nat) : Int))

/-- `ln 2 · 2^p`, as `2 · atanh(1/3)`. -/
def ln2Fixed (p : Nat) : Int := 2 * oddSeries 1 9 (p / 3 + 4) 0 ((2 ^ p : Nat) / 3 : Nat) 0

/-- `π · 2^p`, by Machin's formula. -/
def piFixed (p : Nat) : Int :=
  4 * (4 * altSeries 5 (p / 4 + 4) 0 ((2 ^ p : Nat) / 5 : Nat) 0 - altSeries 239 (p / 15 + 4) 0 ((2 ^ p : Nat) / 239 : Nat) 0)

/-- `exp(y)` for `0 ≤ y < 1` in fixed point with `p` bits: the Taylor series. -/
def expSeries (p : Nat) (y : Int) : Nat → Nat → Int → Int → Int
  | 0, _, _, acc => acc
  | n + 1, i, t, acc => expSeries p y n (i + 1) (t * y / ((2 ^ p : Nat) : Int) / ((i + 1 : Nat) : Int)) (acc + t)

/-- The Taylor series of sine (from `t = r`, `i = 1`) and cosine (from `t = 1`, `i = 0`) in fixed point. -/
def trigSeries (p : Nat) (r2 : Int) : Nat → Nat → Int → Int → Int
  | 0, _, _, acc => acc
  | n + 1, i, t, acc =>
    trigSeries p r2 n (i + 2) (-(t * r2 / ((2 ^ p : Nat) : Int) / (((i + 1) * (i + 2) : Nat) : Int))) (acc + t)

/-- A fixed-point value with `workBits` bits that is not a whole multiple of a rounding boundary, as an exact
value that rounds the same way: its 24 lowest bits, which carry the series' own error, are dropped. -/
def fixedXR (v : Int) : XR :=
  let m := v.natAbs / 2 ^ 24
  .fin (decide (v < 0)) (2 * m + 1) (2 ^ (workBits - 24 + 1))

/-- `2^x` (R117): exact at whole numbers; far outside FP32's range a value that rounds as the true one does. -/
def XR.exp2 : XR → XR
  | .nan => .nan
  | .inf neg => if neg then .fin false 0 1 else .inf false
  | .fin neg n d =>
    if n = 0 then .fin false 1 1
    else
      let i : Int := signedNum neg n / (d : Int)
      let f := (signedNum neg n - i * (d : Int)).toNat
      if 1024 < i then .fin false (2 ^ 1024) 1
      else if i < -1024 then .fin false 1 (2 ^ 1024)
      else if f = 0 then XR.scale2 i (.fin false 1 1)
      else
        let y := ln2Fixed workBits * (f : Int) / (d : Int)
        XR.scale2 i (fixedXR (expSeries workBits y 120 0 ((2 ^ workBits : Nat) : Int) 0))

/-- `log2 x` for a positive finite value (R117): exact at powers of two. -/
def log2Pos (n d : Nat) : XR :=
  let e := floorLog2 n d
  let c := scaleFrac n d (-e)
  if c.1 = c.2 then XR.ofInt e
  else
    let z : Int := (((c.1 - c.2) * 2 ^ workBits / (c.1 + c.2) : Nat) : Int)
    let a := (c.1 - c.2) * (c.1 - c.2)
    let b := (c.1 + c.2) * (c.1 + c.2)
    let lnY := 2 * oddSeries a b (workBits / 3 + 8) 0 z 0
    fixedXR (e * ((2 ^ workBits : Nat) : Int) + lnY * ((2 ^ workBits : Nat) : Int) / ln2Fixed workBits)

/-- sine or cosine of a finite nonzero value, x in radians, correct for every finite FP32 (R117): `k` counts the
quarter turns removed. -/
def trig (cosine : Bool) (neg : Bool) (n d : Nat) : XR :=
  let p := workBits + 160
  let pi := piFixed p
  let x : Int := signedNum neg n * ((2 ^ p : Nat) : Int) / (d : Int)
  let k : Int := (2 * x + pi / 2) / pi
  let r : Int := (x - k * pi / 2) / ((2 ^ 160 : Nat) : Int)
  let r2 := r * r / ((2 ^ workBits : Nat) : Int)
  let s := trigSeries workBits r2 80 1 r 0
  let c := trigSeries workBits r2 80 0 ((2 ^ workBits : Nat) : Int) 0
  let quarter := (k + (if cosine then 1 else 0)) % 4
  if quarter = 0 then fixedXR s
  else if quarter = 1 then fixedXR c
  else if quarter = 2 then fixedXR (-s)
  else fixedXR (-c)

end Sys2Proof.Machine
end

