-- ==== Sys2Proof/WellFormed.lean ====
section
/-! DEFINITION. Well-formed instructions: every field within the range its format's field can hold (R75 to R77), and
every enumerated field a value the opcode assigns. Events and messages carry no instruction word. -/

namespace Sys2Proof

/-- `v` is a two's-complement number of `n` bits (R77). -/
def fitsInt (n : Nat) (v : Int) : Bool :=
  decide (-(2 ^ (n - 1) : Nat) ≤ v) && decide (v < (2 ^ (n - 1) : Nat))

/-- The types a store may name (R89). -/
def isStoreTy : MemTy → Bool
  | .n8 | .n16 | .b32 | .b64 | .b128 => true
  | .i8 | .i16 => false

/-- Every field of the instruction fits its format. -/
def Instr.wf (i : Instr) : Bool :=
  match i with
  | .sAdd d a b _ => decide (d < 64) && decide (a < 64) && decide (b < 64)
  | .sSub d a b _ => decide (d < 64) && decide (a < 64) && decide (b < 64)
  | .sMul d a b => decide (d < 64) && decide (a < 64) && decide (b < 64)
  | .sMulhiI32 d a b => decide (d < 64) && decide (a < 64) && decide (b < 64)
  | .sMulhiN32 d a b => decide (d < 64) && decide (a < 64) && decide (b < 64)
  | .sAnd d a b _ => decide (d < 64) && decide (a < 64) && decide (b < 64)
  | .sOr d a b _ => decide (d < 64) && decide (a < 64) && decide (b < 64)
  | .sXor d a b _ => decide (d < 64) && decide (a < 64) && decide (b < 64)
  | .sShl d a b _ => decide (d < 64) && decide (a < 64) && decide (b < 64)
  | .sShr d a b _ => decide (d < 64) && decide (a < 64) && decide (b < 64)
  | .sSra d a b _ => decide (d < 64) && decide (a < 64) && decide (b < 64)
  | .sMinI32 d a b => decide (d < 64) && decide (a < 64) && decide (b < 64)
  | .sMaxI32 d a b => decide (d < 64) && decide (a < 64) && decide (b < 64)
  | .sMinN32 d a b => decide (d < 64) && decide (a < 64) && decide (b < 64)
  | .sMaxN32 d a b => decide (d < 64) && decide (a < 64) && decide (b < 64)
  | .sMovs d a _ => decide (d < 64) && decide (a < 64)
  | .sCmpEq d a b _ => decide (d < 64) && decide (a < 64) && decide (b < 64)
  | .sCmpNe d a b _ => decide (d < 64) && decide (a < 64) && decide (b < 64)
  | .sCmpLtI32 d a b _ => decide (d < 64) && decide (a < 64) && decide (b < 64)
  | .sCmpLeI32 d a b _ => decide (d < 64) && decide (a < 64) && decide (b < 64)
  | .sCmpLtN32 d a b _ => decide (d < 64) && decide (a < 64) && decide (b < 64)
  | .sCmpLeN32 d a b _ => decide (d < 64) && decide (a < 64) && decide (b < 64)
  | .sCmpGtI32 d a b _ => decide (d < 64) && decide (a < 64) && decide (b < 64)
  | .sCmpGeI32 d a b _ => decide (d < 64) && decide (a < 64) && decide (b < 64)
  | .sCmpGtN32 d a b _ => decide (d < 64) && decide (a < 64) && decide (b < 64)
  | .sCmpGeN32 d a b _ => decide (d < 64) && decide (a < 64) && decide (b < 64)
  | .siAdd d a imm => decide (d < 64) && decide (a < 64) && fitsInt 9 imm
  | .siSub d a imm => decide (d < 64) && decide (a < 64) && fitsInt 9 imm
  | .siMul d a imm => decide (d < 64) && decide (a < 64) && fitsInt 9 imm
  | .siMulhiI32 d a imm => decide (d < 64) && decide (a < 64) && fitsInt 9 imm
  | .siMulhiN32 d a imm => decide (d < 64) && decide (a < 64) && fitsInt 9 imm
  | .siAnd d a imm => decide (d < 64) && decide (a < 64) && fitsInt 9 imm
  | .siOr d a imm => decide (d < 64) && decide (a < 64) && fitsInt 9 imm
  | .siXor d a imm => decide (d < 64) && decide (a < 64) && fitsInt 9 imm
  | .siShl d a imm => decide (d < 64) && decide (a < 64) && fitsInt 9 imm
  | .siShr d a imm => decide (d < 64) && decide (a < 64) && fitsInt 9 imm
  | .siSra d a imm => decide (d < 64) && decide (a < 64) && fitsInt 9 imm
  | .siMinI32 d a imm => decide (d < 64) && decide (a < 64) && fitsInt 9 imm
  | .siMaxI32 d a imm => decide (d < 64) && decide (a < 64) && fitsInt 9 imm
  | .siMinN32 d a imm => decide (d < 64) && decide (a < 64) && fitsInt 9 imm
  | .siMaxN32 d a imm => decide (d < 64) && decide (a < 64) && fitsInt 9 imm
  | .siMovs d imm => decide (d < 64) && fitsInt 9 imm
  | .siCmpEq d a imm => decide (d < 64) && decide (a < 64) && fitsInt 9 imm
  | .siCmpNe d a imm => decide (d < 64) && decide (a < 64) && fitsInt 9 imm
  | .siCmpLtI32 d a imm => decide (d < 64) && decide (a < 64) && fitsInt 9 imm
  | .siCmpLeI32 d a imm => decide (d < 64) && decide (a < 64) && fitsInt 9 imm
  | .siCmpLtN32 d a imm => decide (d < 64) && decide (a < 64) && fitsInt 9 imm
  | .siCmpLeN32 d a imm => decide (d < 64) && decide (a < 64) && fitsInt 9 imm
  | .siCmpGtI32 d a imm => decide (d < 64) && decide (a < 64) && fitsInt 9 imm
  | .siCmpGeI32 d a imm => decide (d < 64) && decide (a < 64) && fitsInt 9 imm
  | .siCmpGtN32 d a imm => decide (d < 64) && decide (a < 64) && fitsInt 9 imm
  | .siCmpGeN32 d a imm => decide (d < 64) && decide (a < 64) && fitsInt 9 imm
  | .siAddI64 d a imm => decide (d < 64) && decide (a < 64) && fitsInt 9 imm
  | .ldl d off => decide (d < 64) && fitsInt 19 off
  | .ldlB64 d off => decide (d < 64) && fitsInt 19 off
  | .bra off => fitsInt 23 off
  | .brcZ a off => decide (a < 64) && fitsInt 17 off
  | .brcNz a off => decide (a < 64) && fitsInt 17 off
  | .brcNeg a off => decide (a < 64) && fitsInt 17 off
  | .brcNneg a off => decide (a < 64) && fitsInt 17 off
  | .brcPos a off => decide (a < 64) && fitsInt 17 off
  | .brcNpos a off => decide (a < 64) && fitsInt 17 off
  | .brv p tgt join => decide (p < 8) && fitsInt 13 tgt && fitsInt 10 join
  | .brRg p tgt => decide (p < 8) && fitsInt 13 tgt
  | .call off => fitsInt 23 off
  | .exit => true
  | .ret => true
  | .nop => true
  | .yield => true
  | .gets d v l => decide (d < 64) && decide (v < 128) && decide (l < 32)
  | .getsFirst d v => decide (d < 64) && decide (v < 128)
  | .sets d v => decide (d < 64) && decide (v < 128)
  | .bpost n c => decide (n < 16) && decide (c < 2048)
  | .bhold n => decide (n < 16)
  | .barg => true
  | .wait kmask ctr cen n => decide (kmask < 256) && decide (n < 64) && (cen || (ctr == .l && n == 0))
  | .rep cnt step sz => decide (cnt < 64) && decide (step < 8) && decide (sz < 4)
  | .vAdd d a b => decide (d < 128) && decide (a < 128) && decide (b < 128)
  | .vSub d a b => decide (d < 128) && decide (a < 128) && decide (b < 128)
  | .vMul d a b => decide (d < 128) && decide (a < 128) && decide (b < 128)
  | .vMulhiI32 d a b => decide (d < 128) && decide (a < 128) && decide (b < 128)
  | .vMulhiN32 d a b => decide (d < 128) && decide (a < 128) && decide (b < 128)
  | .vMad d a b => decide (d < 128) && decide (a < 128) && decide (b < 128)
  | .vMinI32 d a b => decide (d < 128) && decide (a < 128) && decide (b < 128)
  | .vMaxI32 d a b => decide (d < 128) && decide (a < 128) && decide (b < 128)
  | .vMinN32 d a b => decide (d < 128) && decide (a < 128) && decide (b < 128)
  | .vMaxN32 d a b => decide (d < 128) && decide (a < 128) && decide (b < 128)
  | .vAnd d a b => decide (d < 128) && decide (a < 128) && decide (b < 128)
  | .vOr d a b => decide (d < 128) && decide (a < 128) && decide (b < 128)
  | .vXor d a b => decide (d < 128) && decide (a < 128) && decide (b < 128)
  | .vShl d a b => decide (d < 128) && decide (a < 128) && decide (b < 128)
  | .vShr d a b => decide (d < 128) && decide (a < 128) && decide (b < 128)
  | .vSra d a b => decide (d < 128) && decide (a < 128) && decide (b < 128)
  | .vClz d a => decide (d < 128) && decide (a < 128)
  | .vPopc d a => decide (d < 128) && decide (a < 128)
  | .vAbsI32 d a => decide (d < 128) && decide (a < 128)
  | .vAddSatI32 d a b => decide (d < 128) && decide (a < 128) && decide (b < 128)
  | .vSubSatI32 d a b => decide (d < 128) && decide (a < 128) && decide (b < 128)
  | .vMov d a => decide (d < 128) && decide (a < 128)
  | .viAdd d a imm => decide (d < 128) && decide (a < 128) && fitsInt 7 imm
  | .viSub d a imm => decide (d < 128) && decide (a < 128) && fitsInt 7 imm
  | .viMul d a imm => decide (d < 128) && decide (a < 128) && fitsInt 7 imm
  | .viMulhiI32 d a imm => decide (d < 128) && decide (a < 128) && fitsInt 7 imm
  | .viMulhiN32 d a imm => decide (d < 128) && decide (a < 128) && fitsInt 7 imm
  | .viMinI32 d a imm => decide (d < 128) && decide (a < 128) && fitsInt 7 imm
  | .viMaxI32 d a imm => decide (d < 128) && decide (a < 128) && fitsInt 7 imm
  | .viMinN32 d a imm => decide (d < 128) && decide (a < 128) && fitsInt 7 imm
  | .viMaxN32 d a imm => decide (d < 128) && decide (a < 128) && fitsInt 7 imm
  | .viAnd d a imm => decide (d < 128) && decide (a < 128) && fitsInt 7 imm
  | .viOr d a imm => decide (d < 128) && decide (a < 128) && fitsInt 7 imm
  | .viXor d a imm => decide (d < 128) && decide (a < 128) && fitsInt 7 imm
  | .viShl d a imm => decide (d < 128) && decide (a < 128) && fitsInt 7 imm
  | .viShr d a imm => decide (d < 128) && decide (a < 128) && fitsInt 7 imm
  | .viSra d a imm => decide (d < 128) && decide (a < 128) && fitsInt 7 imm
  | .viMov d imm => decide (d < 128) && fitsInt 7 imm
  | .v64Add d a b => decide (d < 128) && decide (a < 128) && decide (b < 128)
  | .v64Sub d a b => decide (d < 128) && decide (a < 128) && decide (b < 128)
  | .v64Mul d a b => decide (d < 128) && decide (a < 128) && decide (b < 128)
  | .v64MinI64 d a b => decide (d < 128) && decide (a < 128) && decide (b < 128)
  | .v64MaxI64 d a b => decide (d < 128) && decide (a < 128) && decide (b < 128)
  | .v64MinN64 d a b => decide (d < 128) && decide (a < 128) && decide (b < 128)
  | .v64MaxN64 d a b => decide (d < 128) && decide (a < 128) && decide (b < 128)
  | .v64And d a b => decide (d < 128) && decide (a < 128) && decide (b < 128)
  | .v64Or d a b => decide (d < 128) && decide (a < 128) && decide (b < 128)
  | .v64Xor d a b => decide (d < 128) && decide (a < 128) && decide (b < 128)
  | .v64Shl d a b => decide (d < 128) && decide (a < 128) && decide (b < 128)
  | .v64Shr d a b => decide (d < 128) && decide (a < 128) && decide (b < 128)
  | .v64Sra d a b => decide (d < 128) && decide (a < 128) && decide (b < 128)
  | .v64Clz d a => decide (d < 128) && decide (a < 128)
  | .v64Popc d a => decide (d < 128) && decide (a < 128)
  | .v64MulWideI32 d a b => decide (d < 128) && decide (a < 128) && decide (b < 128)
  | .v64MulWideN32 d a b => decide (d < 128) && decide (a < 128) && decide (b < 128)
  | .vCmpEq p a b _ => decide (p < 8) && decide (a < 128) && decide (b < 128)
  | .vCmpNe p a b _ => decide (p < 8) && decide (a < 128) && decide (b < 128)
  | .vCmpLt p a b _ => decide (p < 8) && decide (a < 128) && decide (b < 128)
  | .vCmpLe p a b _ => decide (p < 8) && decide (a < 128) && decide (b < 128)
  | .vCmpGt p a b _ => decide (p < 8) && decide (a < 128) && decide (b < 128)
  | .vCmpGe p a b _ => decide (p < 8) && decide (a < 128) && decide (b < 128)
  | .vFcmpEq p a b _ => decide (p < 8) && decide (a < 128) && decide (b < 128)
  | .vFcmpNe p a b _ => decide (p < 8) && decide (a < 128) && decide (b < 128)
  | .vFcmpLt p a b _ => decide (p < 8) && decide (a < 128) && decide (b < 128)
  | .vFcmpLe p a b _ => decide (p < 8) && decide (a < 128) && decide (b < 128)
  | .vFcmpGt p a b _ => decide (p < 8) && decide (a < 128) && decide (b < 128)
  | .vFcmpGe p a b _ => decide (p < 8) && decide (a < 128) && decide (b < 128)
  | .vFcmpNum p a b _ => decide (p < 8) && decide (a < 128) && decide (b < 128)
  | .vFcmpNan p a b _ => decide (p < 8) && decide (a < 128) && decide (b < 128)
  | .vFaddF32 d a b => decide (d < 128) && decide (a < 128) && decide (b < 128)
  | .vFsubF32 d a b => decide (d < 128) && decide (a < 128) && decide (b < 128)
  | .vFmulF32 d a b => decide (d < 128) && decide (a < 128) && decide (b < 128)
  | .vFmaF32 d a b => decide (d < 128) && decide (a < 128) && decide (b < 128)
  | .vFminF32 d a b => decide (d < 128) && decide (a < 128) && decide (b < 128)
  | .vFmaxF32 d a b => decide (d < 128) && decide (a < 128) && decide (b < 128)
  | .vFabsF32 d a => decide (d < 128) && decide (a < 128)
  | .vFnegF32 d a => decide (d < 128) && decide (a < 128)
  | .vFaddF64 d a b => decide (d < 128) && decide (a < 128) && decide (b < 128)
  | .vFsubF64 d a b => decide (d < 128) && decide (a < 128) && decide (b < 128)
  | .vFmulF64 d a b => decide (d < 128) && decide (a < 128) && decide (b < 128)
  | .vFmaF64 d a b => decide (d < 128) && decide (a < 128) && decide (b < 128)
  | .vFminF64 d a b => decide (d < 128) && decide (a < 128) && decide (b < 128)
  | .vFmaxF64 d a b => decide (d < 128) && decide (a < 128) && decide (b < 128)
  | .vFabsF64 d a => decide (d < 128) && decide (a < 128)
  | .vFnegF64 d a => decide (d < 128) && decide (a < 128)
  | .vRcpF32 d a => decide (d < 128) && decide (a < 128)
  | .vRsqF32 d a => decide (d < 128) && decide (a < 128)
  | .vSqrtF32 d a => decide (d < 128) && decide (a < 128)
  | .vExp2F32 d a => decide (d < 128) && decide (a < 128)
  | .vLog2F32 d a => decide (d < 128) && decide (a < 128)
  | .vSinF32 d a => decide (d < 128) && decide (a < 128)
  | .vCosF32 d a => decide (d < 128) && decide (a < 128)
  | .vRcpF64 d a => decide (d < 128) && decide (a < 128)
  | .vRsqF64 d a => decide (d < 128) && decide (a < 128)
  | .vSqrtF64 d a => decide (d < 128) && decide (a < 128)
  | .cvt d a _ _ _ _ => decide (d < 128) && decide (a < 128)
  | .vrot d a _ sg _ => decide (d < 128) && decide (a < 128) && decide (sg < 8)
  | .virot d a _ sg _ => decide (d < 128) && decide (a < 128) && decide (sg < 8)
  | .lxAt d a src _ sm => decide (d < 128) && decide (a < 128) && decide (src < 128) && decide (sm < 16)
  | .lxLo d a src _ sm => decide (d < 128) && decide (a < 128) && decide (src < 128) && decide (sm < 16)
  | .lxHi d a src _ sm => decide (d < 128) && decide (a < 128) && decide (src < 128) && decide (sm < 16)
  | .lxXor d a src _ sm => decide (d < 128) && decide (a < 128) && decide (src < 128) && decide (sm < 16)
  | .pollEvery d a sm => decide (d < 8) && decide (a < 8) && decide (sm < 64)
  | .pollSome d a sm => decide (d < 8) && decide (a < 8) && decide (sm < 64)
  | .pollBits d a sm => decide (d < 64) && decide (a < 8) && decide (sm < 64)
  | .peersB32 d a sm => decide (d < 128) && decide (a < 128) && decide (sm < 64)
  | .peersB64 d a sm => decide (d < 128) && decide (a < 128) && decide (sm < 64)
  | .combAddI32 d a sm => decide (d < 128) && decide (a < 128) && decide (sm < 64)
  | .combMinI32 d a sm => decide (d < 128) && decide (a < 128) && decide (sm < 64)
  | .combMaxI32 d a sm => decide (d < 128) && decide (a < 128) && decide (sm < 64)
  | .combMinN32 d a sm => decide (d < 128) && decide (a < 128) && decide (sm < 64)
  | .combMaxN32 d a sm => decide (d < 128) && decide (a < 128) && decide (sm < 64)
  | .combAndB32 d a sm => decide (d < 128) && decide (a < 128) && decide (sm < 64)
  | .combOrB32 d a sm => decide (d < 128) && decide (a < 128) && decide (sm < 64)
  | .combXorB32 d a sm => decide (d < 128) && decide (a < 128) && decide (sm < 64)
  | .combAddF32 d a sm => decide (d < 128) && decide (a < 128) && decide (sm < 64)
  | .combMinF32 d a sm => decide (d < 128) && decide (a < 128) && decide (sm < 64)
  | .combMaxF32 d a sm => decide (d < 128) && decide (a < 128) && decide (sm < 64)
  | .sel d a b p => decide (d < 128) && decide (a < 128) && decide (b < 128) && decide (p < 8)
  | .pand d a b => decide (d < 8) && decide (a < 8) && decide (b < 8)
  | .por d a b => decide (d < 8) && decide (a < 8) && decide (b < 8)
  | .pxor d a b => decide (d < 8) && decide (a < 8) && decide (b < 8)
  | .pandn d a b => decide (d < 8) && decide (a < 8) && decide (b < 8)
  | .pnot d a => decide (d < 8) && decide (a < 8)
  | .pmov d a => decide (d < 8) && decide (a < 8)
  | .pfrom d s => decide (d < 8) && decide (s < 64)
  | .pto a s => decide (a < 8) && decide (s < 64)
  | .ldG _ _ d a off => decide (d < 128) && decide (a < 128) && fitsInt 7 off
  | .stG ty _ d a off => isStoreTy ty && decide (d < 128) && decide (a < 128) && fitsInt 7 off
  | .ldS _ d a off => decide (d < 128) && decide (a < 128) && fitsInt 7 off
  | .stS ty d a off => isStoreTy ty && decide (d < 128) && decide (a < 128) && fitsInt 7 off
  | .atomLd d a _ _ _ _ => decide (d < 128) && decide (a < 128)
  | .atomSt d a _ _ _ _ => decide (d < 128) && decide (a < 128)
  | .atomExch d a _ _ _ _ => decide (d < 128) && decide (a < 128)
  | .atomCas d a _ _ _ _ => decide (d < 128) && decide (a < 128)
  | .atomAdd d a _ _ _ _ => decide (d < 128) && decide (a < 128)
  | .atomMin d a _ _ _ _ => decide (d < 128) && decide (a < 128)
  | .atomMax d a _ _ _ _ => decide (d < 128) && decide (a < 128)
  | .atomAnd d a _ _ _ _ => decide (d < 128) && decide (a < 128)
  | .atomOr d a _ _ _ _ => decide (d < 128) && decide (a < 128)
  | .atomSLd d a _ _ => decide (d < 128) && decide (a < 128)
  | .atomSSt d a _ _ => decide (d < 128) && decide (a < 128)
  | .atomSExch d a _ _ => decide (d < 128) && decide (a < 128)
  | .atomSCas d a _ _ => decide (d < 128) && decide (a < 128)
  | .atomSAdd d a _ _ => decide (d < 128) && decide (a < 128)
  | .atomSMin d a _ _ => decide (d < 128) && decide (a < 128)
  | .atomSMax d a _ _ => decide (d < 128) && decide (a < 128)
  | .atomSAnd d a _ _ => decide (d < 128) && decide (a < 128)
  | .atomSOr d a _ _ => decide (d < 128) && decide (a < 128)
  | .fence _ _ _ => true
  | .cctlInv a _ => decide (a < 128)
  | .cctlWb a _ => decide (a < 128)
  | .cctlWbinv a _ => decide (a < 128)
  | .prefetch a _ => decide (a < 128)
  | .waitmon a => decide (a < 128)
  | .waitge d a _ => decide (d < 128) && decide (a < 128)
  | .tmld kn d a => decide (kn < 8) && decide (d < 64) && decide (a < 64)
  | .tmset d a b => decide (d < 64) && decide (a < 64) && decide (b < 64)
  | .cpy kn d => decide (kn < 8) && decide (d < 64)
  | .cpym kn d => decide (kn < 8) && decide (d < 64)
  | .sgset d a => decide (d < 64) && decide (a < 64)
  | .rot kn d => decide (kn < 8) && decide (d < 64)
  | .irot kn d => decide (kn < 8) && decide (d < 64)
  | .mma kn d => decide (kn < 8) && decide (d < 64)
  | .accLd kn d => decide (kn < 8) && decide (d < 64)
  | .accSt kn d => decide (kn < 8) && decide (d < 64)
  | .accZero d => decide (d < 64)
  | .bswap d => decide (d < 64)
  | .layerF kn d => decide (kn < 8) && decide (d < 64)
  | .layerT kn d => decide (kn < 8) && decide (d < 64)
  | .layerP kn d => decide (kn < 8) && decide (d < 64)
  | .apush kn d a => decide (kn < 8) && decide (d < 64) && decide (a < 64)
  | .apop kn d a => decide (kn < 8) && decide (d < 64) && decide (a < 64)
  | .reelSmax kn d => decide (kn < 8) && decide (d < 64)
  | .reelNorm kn d => decide (kn < 8) && decide (d < 64)
  | .reelDsmax kn d => decide (kn < 8) && decide (d < 64)
  | .reelDnorm kn d => decide (kn < 8) && decide (d < 64)
  | .reelStat kn d => decide (kn < 8) && decide (d < 64)
  | .reelClr kn d => decide (kn < 8) && decide (d < 64)
  | .pimx kn d => decide (kn < 8) && decide (d < 64)
  | .pimld kn d a => decide (kn < 8) && decide (d < 64) && decide (a < 64)
  | .mark kn => decide (kn < 8)
  | .pimwait => true
  | .trap n => decide (n < 512)
  | .eret => true
  | .hostcall a c => decide (a < 64) && decide (c < 512)
  | .getsr d r => decide (d < 128) && decide (r < 512)
  | .setsr a r => decide (a < 64) && decide (r < 512)
  | .sleep n => decide (n < 512)
  | .clauseStart => true
  | .regroupRendezvous _ => true
  | .sleepExpire _ _ => true
  | .waitmonWake _ _ => true
  | .waitmonTimeout _ _ => true
  | .waitgeReread _ _ => true
  | .returnStackSpill _ _ _ => true
  | .launchRecordTake _ _ => true
  | .dependenceCheck _ => true
  | .dispatchDecision => true
  | .teamEnd _ => true
  | .loadComplete _ _ _ => true
  | .storeComplete _ _ => true
  | .atomicComplete _ _ => true
  | .gatherBufferDrain _ _ => true
  | .pageWalk _ _ _ => true
  | .homeGets _ _ => true
  | .homeGetm _ _ => true
  | .homeUpg _ _ => true
  | .homePute _ _ => true
  | .homePutm _ _ => true
  | .homePuto _ _ => true
  | .homeMemoryData _ => true
  | .homeInvalidationAck _ _ => true
  | .homeForwardConfirm _ _ => true
  | .l2Invalidation _ _ => true
  | .l2ForwardedRequest _ _ => true
  | .l2Grant _ _ => true
  | .promotionDrain _ _ => true
  | .drainAck _ _ => true
  | .directoryEntryDrop _ => true
  | .tmldComplete _ _ => true
  | .copyBeat _ => true
  | .copyBucketTick => true
  | .cpyComplete _ => true
  | .cpymBeatArrival _ _ => true
  | .cpymComplete _ => true
  | .tensorOpComplete _ _ => true
  | .tileEvaluation _ _ _ => true
  | .stackCopyComplete _ => true
  | .pimldComplete _ _ => true
  | .pimCommandStart _ => true
  | .bpRow _ => true
  | .bpFillRow _ => true
  | .pimBlockComplete _ => true
  | .ordinaryBankRequest _ => true
  | .bpYieldWindowExpire _ => true
  | .markComplete _ => true
  | .eventRecordEnter _ _ => true
  | .eventQueueRetry _ => true
  | .eventFrameSend _ => true
  | .preemptSave _ => true
  | .preemptCancel _ => true
  | .teamRestore _ _ => true
  | .watchdogExpire _ => true
  | .pavaneBatchStart _ => true
  | .pavaneBatchComplete _ => true
  | .revokeComplete _ => true
  | .tileProgrammed _ _ => true
  | .regionVerifyComplete _ => true
  | .scrubComplete _ => true
  | .logWindowClose _ => true
  | .healthWindowAge _ _ => true
  | .openSession _ _ _ _ _ _ => true
  | .attest _ _ _ _ => true
  | .releaseSecret _ _ _ _ _ _ _ _ _ => true
  | .write _ _ _ => true
  | .read _ _ _ _ => true
  | .kick _ _ _ => true
  | .closeSession _ => true
  | .frameDiscard _ => true
  | .neighborSolicitation _ => true
  | .worldCreate _ _ _ _ _ => true
  | .worldDestroy _ _ => true
  | .s2rootSet _ _ _ => true
  | .pageAssign _ _ _ _ => true
  | .pageShare _ _ => true
  | .pageRelease _ _ => true
  | .cacheallotSet _ _ _ => true
  | .logSet _ _ _ _ _ => true
  | .s1rootSet _ _ => true
  | .tlbInv _ _ _ _ _ _ => true
  | .ctxSet _ _ _ => true
  | .regionStage _ _ _ _ _ _ => true
  | .regionProgram _ _ _ _ _ => true
  | .regionFree _ _ => true
  | .handleSet _ _ _ _ _ => true
  | .columnSet _ _ _ _ => true
  | .pavaneSet _ _ _ => true
  | .regionRead _ _ _ _ _ => true
  | .resume _ _ _ _ _ => true
  | .opResume _ _ _ => true
  | .opAbandon _ _ _ => true
  | .teamAbort _ _ _ _ _ => true
  | .launchAbort _ _ _ _ => true
  | .preempt _ _ _ _ _ _ => true
  | .receipt _ _ _ => true
  | .checkpoint _ _ _ => true
  | .measlogRead _ => true
  | .addrSet _ _ => true
  | .credSet _ _ _ => true
  | .occRead _ _ _ _ _ => true
  | .softerrRead _ => true
  | .powerSet _ _ => true
  | .regRead _ _ _ => true
  | .regWrite _ _ _ _ => true
  | .xallotWrite _ _ _ => true
  | .cpybwWrite _ _ _ => true
  | .moduleReset _ => true
  | .powerSample _ => true
  | .powerControlDecision _ => true
  | .thermalTrip _ => true
  | .supplyUndervoltage _ => true
  | .unassignedWord => true
  | .unknownTypeOrCommandCode _ _ _ => true
  | .duplicateAddressDetection _ _ => true

end Sys2Proof
end

