-- ==== Sys2Proof/Decode.lean ====
section
/-! DEFINITION. Decoding of clause headers (R65) and instruction words (R75 to R93), total and refusing by name, and
the encoder written from the same tables. Lean's code generator has no object tags beyond 243, and Instr has more
constructors with fields than that: what builds the later ones is marked for evaluation by the kernel only. -/

namespace Sys2Proof
open Sys2Proof.Machine

/-- Why a word is no instruction (R79 step 1 and step 4): each raises F_ILLEGAL. -/
inductive DecodeError where
  /-- Major opcode 0x3F. -/
  | reservedOpcode
  /-- A major opcode the map of R78 leaves unassigned. -/
  | unassignedOpcode
  /-- A funct or condition value with no instruction. -/
  | unassignedFunct
  /-- An enumerated field holds a value not listed. -/
  | unassignedField
  /-- A reserved or unused field is nonzero. -/
  | reservedBits
  deriving DecidableEq, Repr, Inhabited

/-- Refuse when a field that must be zero is not (R77, R79). -/
def reserved (x : Nat) (r : Except DecodeError Instr) : Except DecodeError Instr :=
  if x = 0 then r else .error .reservedBits

/-- Refuse when an enumerated field holds an unassigned value (R79). -/
def assigned {α : Type} (o : Option α) (k : α → Except DecodeError Instr) : Except DecodeError Instr :=
  match o with
  | some x => k x
  | none => .error .unassignedField

/-- type of an integer compare (R84). -/
def decodeCmpTy : Nat → Option CmpTy
  | 0 => some .i32 | 1 => some .n32 | 2 => some .i64 | 3 => some .n64 | _ => none
def cmpTyCode : CmpTy → Nat
  | .i32 => 0 | .n32 => 1 | .i64 => 2 | .n64 => 3
/-- Type codes of cvt (R86). -/
def decodeNumTy : Nat → Option NumTy
  | 0 => some .i8 | 1 => some .i16 | 2 => some .i32 | 3 => some .i64 | 4 => some .n8 | 5 => some .n16
  | 6 => some .n32 | 7 => some .n64 | 8 => some .bf16 | 9 => some .f32 | 10 => some .f64 | _ => none
def numTyCode : NumTy → Nat
  | .i8 => 0 | .i16 => 1 | .i32 => 2 | .i64 => 3 | .n8 => 4 | .n16 => 5 | .n32 => 6 | .n64 => 7
  | .bf16 => 8 | .f32 => 9 | .f64 => 10
/-- rm of cvt (R86). -/
def decodeRoundSel : Nat → Option RoundSel
  | 0 => some .fpmode | 1 => some .rne | 2 => some .rtz | 3 => some .rdn | 4 => some .rup | _ => none
def roundSelCode : RoundSel → Nat
  | .fpmode => 0 | .rne => 1 | .rtz => 2 | .rdn => 3 | .rup => 4
/-- blk of the rotations (R87). -/
def decodeBlk : Nat → Option Blk
  | 0 => some .identity | 1 => some .b16 | 2 => some .b64 | 3 => some .b256 | _ => none
def blkCode : Blk → Nat
  | .identity => 0 | .b16 => 1 | .b64 => 2 | .b256 => 3
/-- fmt of the rotations (R87). -/
def decodeRotFmt : Nat → Option RotFmt
  | 0 => some .f32f32 | 1 => some .f32bf16 | 2 => some .f32i8 | 3 => some .bf16f32 | 4 => some .i8f32 | _ => none
def rotFmtCode : RotFmt → Nat
  | .f32f32 => 0 | .f32bf16 => 1 | .f32i8 => 2 | .bf16f32 => 3 | .i8f32 => 4
/-- type of a load (R89). -/
def decodeMemTy : Nat → Option MemTy
  | 0 => some .n8 | 1 => some .i8 | 2 => some .n16 | 3 => some .i16 | 4 => some .b32 | 5 => some .b64
  | 6 => some .b128 | _ => none
def memTyCode : MemTy → Nat
  | .n8 => 0 | .i8 => 1 | .n16 => 2 | .i16 => 3 | .b32 => 4 | .b64 => 5 | .b128 => 6
/-- type of a store: the signed narrow types are unassigned (R89). -/
def decodeStoreTy (n : Nat) : Option MemTy :=
  match decodeMemTy n with
  | some t => if isStoreTy t then some t else none
  | none => none
/-- hint (R89). -/
def decodeHint : Nat → Option Hint
  | 0 => some .default | 1 => some .stream | 2 => some .sticky | 3 => some .bypass | _ => none
def hintCode : Hint → Nat
  | .default => 0 | .stream => 1 | .sticky => 2 | .bypass => 3
/-- atype (R90). -/
def decodeAtomTy : Nat → Option AtomTy
  | 0 => some .i32 | 1 => some .i64 | 2 => some .n32 | 3 => some .n64 | _ => none
def atomTyCode : AtomTy → Nat
  | .i32 => 0 | .i64 => 1 | .n32 => 2 | .n64 => 3
/-- scope (R90). -/
def decodeScope : Nat → Option Scope
  | 0 => some .team | 1 => some .clu | 2 => some .dev | 3 => some .sys | _ => none
def scopeCode : Scope → Nat
  | .team => 0 | .clu => 1 | .dev => 2 | .sys => 3
/-- ord (R90). -/
def decodeOrder : Nat → Option Order
  | 0 => some .rlx | 1 => some .acq | 2 => some .rel | 3 => some .acqrel | 4 => some .sc | _ => none
def orderCode : Order → Nat
  | .rlx => 0 | .acq => 1 | .rel => 2 | .acqrel => 3 | .sc => 4
/-- ctr of wait (R81). -/
def decodeCtr : Nat → Option Ctr
  | 0 => some .l | 1 => some .s | 2 => some .c | 3 => some .t | _ => none
def ctrCode : Ctr → Nat
  | .l => 0 | .s => 1 | .c => 2 | .t => 3

/-- A flag as a bit of a word. -/
def boolBit (b : Bool) : Nat := if b then 1 else 0

/-- An immediate as the two's-complement bits of its field (R77). -/
def immBits (n : Nat) (v : Int) : Nat := (v % (2 ^ n : Nat)).toNat

/-- The classes of clauses (R65). -/
inductive ClauseClass where
  | salu | valu | vmem | async | sys | lit
  deriving DecidableEq, Repr, Inhabited

/-- A clause header (R65). -/
structure Header where
  cls : ClauseClass
  kwait : Nat
  wl : Bool
  ws : Bool
  yield : Bool
  count : Nat
  deriving DecidableEq, Repr, Inhabited

/-- CLASS (R65). -/
def decodeClass : Nat → Option ClauseClass
  | 0 => some .salu | 1 => some .valu | 2 => some .vmem | 3 => some .async | 4 => some .sys | 5 => some .lit
  | _ => none
def classCode : ClauseClass → Nat
  | .salu => 0 | .valu => 1 | .vmem => 2 | .async => 3 | .sys => 4 | .lit => 5

/-- A word read as a clause header, or none where R66 raises F_CLAUSE. -/
def decodeHeader (w : Nat) : Option Header :=
  match decodeClass (field w 27 25) with
  | none => none
  | some c =>
    if field w 31 28 ≠ 0xC then none
    else if field w 3 0 = 0 then none
    else if field w 13 4 ≠ 0 then none
    else if c = .lit ∧ field w 24 14 ≠ 0 then none
    else some { cls := c, kwait := field w 24 17, wl := bitOf w 16, ws := bitOf w 15, yield := bitOf w 14,
                count := field w 3 0 }

/-- The word of a clause header (R65). -/
def encodeHeader (h : Header) : Nat :=
  0xC * 2 ^ 28 + classCode h.cls * 2 ^ 25 + h.kwait * 2 ^ 17 + boolBit h.wl * 2 ^ 16 + boolBit h.ws * 2 ^ 15
    + boolBit h.yield * 2 ^ 14 + h.count

/-- The class whose range of R68 holds a major opcode; none for 0x3F. -/
def opcodeClass (op : Nat) : Option ClauseClass :=
  if op ≤ 0x0F then some .salu
  else if op ≤ 0x2F then some .valu
  else if op ≤ 0x37 then some .vmem
  else if op ≤ 0x3D then some .async
  else if op = 0x3E then some .sys
  else none

/-- Whether a clause of class `c` admits the major opcode (R68): `rep` is admitted in three classes. -/
def classAdmits (c : ClauseClass) (op : Nat) : Bool :=
  if op = 0x0C then c == .salu || c == .valu || c == .vmem else opcodeClass op == some c

/-- Whether a word is a control transfer (R69): `bra`, `brc`, `brv`, `br.rg`, `call`, `ret`, `exit`. -/
def isTransferWord (w : Nat) : Bool :=
  let op := field w 31 26
  (decide (3 ≤ op) && decide (op ≤ 7)) || (op == 8 && decide (field w 25 22 ≤ 1))

/-- A word from its fixed bits and its fields, each given with the place of its lowest bit. -/
def word0 (base : Nat) : Nat := base
def word1 (base x i : Nat) : Nat := base + x * 2 ^ i
def word2 (base x i y j : Nat) : Nat := base + x * 2 ^ i + y * 2 ^ j
def word3 (base x i y j z k : Nat) : Nat := base + x * 2 ^ i + y * 2 ^ j + z * 2 ^ k
def word4 (base x i y j z k u l : Nat) : Nat := base + x * 2 ^ i + y * 2 ^ j + z * 2 ^ k + u * 2 ^ l
def word5 (base x i y j z k u l v m : Nat) : Nat :=
  base + x * 2 ^ i + y * 2 ^ j + z * 2 ^ k + u * 2 ^ l + v * 2 ^ m
def word6 (base x i y j z k u l v m t n : Nat) : Nat :=
  base + x * 2 ^ i + y * 2 ^ j + z * 2 ^ k + u * 2 ^ l + v * 2 ^ m + t * 2 ^ n

/-- Words of major opcode 0x00, format S (R75, R78). -/
def decodeOp00 (w : Nat) : Except DecodeError Instr :=
  match field w 4 0 with
  | 0 => reserved (field w 7 6) <| .ok (.sAdd (field w 25 20) (field w 19 14) (field w 13 8) (bitOf w 5))
  | 1 => reserved (field w 7 6) <| .ok (.sSub (field w 25 20) (field w 19 14) (field w 13 8) (bitOf w 5))
  | 2 => reserved (field w 7 5) <| .ok (.sMul (field w 25 20) (field w 19 14) (field w 13 8))
  | 3 => reserved (field w 7 5) <| .ok (.sMulhiI32 (field w 25 20) (field w 19 14) (field w 13 8))
  | 4 => reserved (field w 7 5) <| .ok (.sMulhiN32 (field w 25 20) (field w 19 14) (field w 13 8))
  | 5 => reserved (field w 7 6) <| .ok (.sAnd (field w 25 20) (field w 19 14) (field w 13 8) (bitOf w 5))
  | 6 => reserved (field w 7 6) <| .ok (.sOr (field w 25 20) (field w 19 14) (field w 13 8) (bitOf w 5))
  | 7 => reserved (field w 7 6) <| .ok (.sXor (field w 25 20) (field w 19 14) (field w 13 8) (bitOf w 5))
  | 8 => reserved (field w 7 6) <| .ok (.sShl (field w 25 20) (field w 19 14) (field w 13 8) (bitOf w 5))
  | 9 => reserved (field w 7 6) <| .ok (.sShr (field w 25 20) (field w 19 14) (field w 13 8) (bitOf w 5))
  | 10 => reserved (field w 7 6) <| .ok (.sSra (field w 25 20) (field w 19 14) (field w 13 8) (bitOf w 5))
  | 11 => reserved (field w 7 5) <| .ok (.sMinI32 (field w 25 20) (field w 19 14) (field w 13 8))
  | 12 => reserved (field w 7 5) <| .ok (.sMaxI32 (field w 25 20) (field w 19 14) (field w 13 8))
  | 13 => reserved (field w 7 5) <| .ok (.sMinN32 (field w 25 20) (field w 19 14) (field w 13 8))
  | 14 => reserved (field w 7 5) <| .ok (.sMaxN32 (field w 25 20) (field w 19 14) (field w 13 8))
  | 15 => reserved (field w 13 6) <| .ok (.sMovs (field w 25 20) (field w 19 14) (bitOf w 5))
  | 16 => reserved (field w 7 6) <| .ok (.sCmpEq (field w 25 20) (field w 19 14) (field w 13 8) (bitOf w 5))
  | 17 => reserved (field w 7 6) <| .ok (.sCmpNe (field w 25 20) (field w 19 14) (field w 13 8) (bitOf w 5))
  | 18 => reserved (field w 7 6) <| .ok (.sCmpLtI32 (field w 25 20) (field w 19 14) (field w 13 8) (bitOf w 5))
  | 19 => reserved (field w 7 6) <| .ok (.sCmpLeI32 (field w 25 20) (field w 19 14) (field w 13 8) (bitOf w 5))
  | 20 => reserved (field w 7 6) <| .ok (.sCmpLtN32 (field w 25 20) (field w 19 14) (field w 13 8) (bitOf w 5))
  | 21 => reserved (field w 7 6) <| .ok (.sCmpLeN32 (field w 25 20) (field w 19 14) (field w 13 8) (bitOf w 5))
  | 22 => reserved (field w 7 6) <| .ok (.sCmpGtI32 (field w 25 20) (field w 19 14) (field w 13 8) (bitOf w 5))
  | 23 => reserved (field w 7 6) <| .ok (.sCmpGeI32 (field w 25 20) (field w 19 14) (field w 13 8) (bitOf w 5))
  | 24 => reserved (field w 7 6) <| .ok (.sCmpGtN32 (field w 25 20) (field w 19 14) (field w 13 8) (bitOf w 5))
  | 25 => reserved (field w 7 6) <| .ok (.sCmpGeN32 (field w 25 20) (field w 19 14) (field w 13 8) (bitOf w 5))
  | _ => .error .unassignedFunct

/-- Words of major opcode 0x01, format SI (R75, R78). -/
def decodeOp01 (w : Nat) : Except DecodeError Instr :=
  match field w 13 9 with
  | 0 => .ok (.siAdd (field w 25 20) (field w 19 14) (signExt 9 (field w 8 0)))
  | 1 => .ok (.siSub (field w 25 20) (field w 19 14) (signExt 9 (field w 8 0)))
  | 2 => .ok (.siMul (field w 25 20) (field w 19 14) (signExt 9 (field w 8 0)))
  | 3 => .ok (.siMulhiI32 (field w 25 20) (field w 19 14) (signExt 9 (field w 8 0)))
  | 4 => .ok (.siMulhiN32 (field w 25 20) (field w 19 14) (signExt 9 (field w 8 0)))
  | 5 => .ok (.siAnd (field w 25 20) (field w 19 14) (signExt 9 (field w 8 0)))
  | 6 => .ok (.siOr (field w 25 20) (field w 19 14) (signExt 9 (field w 8 0)))
  | 7 => .ok (.siXor (field w 25 20) (field w 19 14) (signExt 9 (field w 8 0)))
  | 8 => .ok (.siShl (field w 25 20) (field w 19 14) (signExt 9 (field w 8 0)))
  | 9 => .ok (.siShr (field w 25 20) (field w 19 14) (signExt 9 (field w 8 0)))
  | 10 => .ok (.siSra (field w 25 20) (field w 19 14) (signExt 9 (field w 8 0)))
  | 11 => .ok (.siMinI32 (field w 25 20) (field w 19 14) (signExt 9 (field w 8 0)))
  | 12 => .ok (.siMaxI32 (field w 25 20) (field w 19 14) (signExt 9 (field w 8 0)))
  | 13 => .ok (.siMinN32 (field w 25 20) (field w 19 14) (signExt 9 (field w 8 0)))
  | 14 => .ok (.siMaxN32 (field w 25 20) (field w 19 14) (signExt 9 (field w 8 0)))
  | 15 => reserved (field w 19 14) <| .ok (.siMovs (field w 25 20) (signExt 9 (field w 8 0)))
  | 16 => .ok (.siCmpEq (field w 25 20) (field w 19 14) (signExt 9 (field w 8 0)))
  | 17 => .ok (.siCmpNe (field w 25 20) (field w 19 14) (signExt 9 (field w 8 0)))
  | 18 => .ok (.siCmpLtI32 (field w 25 20) (field w 19 14) (signExt 9 (field w 8 0)))
  | 19 => .ok (.siCmpLeI32 (field w 25 20) (field w 19 14) (signExt 9 (field w 8 0)))
  | 20 => .ok (.siCmpLtN32 (field w 25 20) (field w 19 14) (signExt 9 (field w 8 0)))
  | 21 => .ok (.siCmpLeN32 (field w 25 20) (field w 19 14) (signExt 9 (field w 8 0)))
  | 22 => .ok (.siCmpGtI32 (field w 25 20) (field w 19 14) (signExt 9 (field w 8 0)))
  | 23 => .ok (.siCmpGeI32 (field w 25 20) (field w 19 14) (signExt 9 (field w 8 0)))
  | 24 => .ok (.siCmpGtN32 (field w 25 20) (field w 19 14) (signExt 9 (field w 8 0)))
  | 25 => .ok (.siCmpGeN32 (field w 25 20) (field w 19 14) (signExt 9 (field w 8 0)))
  | 26 => .ok (.siAddI64 (field w 25 20) (field w 19 14) (signExt 9 (field w 8 0)))
  | _ => .error .unassignedFunct

/-- Words of major opcode 0x02, format SL (R75, R78). -/
def decodeOp02 (w : Nat) : Except DecodeError Instr :=
  match field w 19 19 with
  | 0 => .ok (.ldl (field w 25 20) (signExt 19 (field w 18 0)))
  | 1 => .ok (.ldlB64 (field w 25 20) (signExt 19 (field w 18 0)))
  | _ => .error .unassignedFunct

/-- Words of major opcode 0x03, format B (R75, R78). -/
def decodeOp03 (w : Nat) : Except DecodeError Instr :=
  reserved (field w 25 23) <| .ok (.bra (signExt 23 (field w 22 0)))

/-- Words of major opcode 0x04, format BS (R75, R78). -/
def decodeOp04 (w : Nat) : Except DecodeError Instr :=
  match field w 19 17 with
  | 0 => .ok (.brcZ (field w 25 20) (signExt 17 (field w 16 0)))
  | 1 => .ok (.brcNz (field w 25 20) (signExt 17 (field w 16 0)))
  | 2 => .ok (.brcNeg (field w 25 20) (signExt 17 (field w 16 0)))
  | 3 => .ok (.brcNneg (field w 25 20) (signExt 17 (field w 16 0)))
  | 4 => .ok (.brcPos (field w 25 20) (signExt 17 (field w 16 0)))
  | 5 => .ok (.brcNpos (field w 25 20) (signExt 17 (field w 16 0)))
  | _ => .error .unassignedFunct

/-- Words of major opcode 0x05, format BV (R75, R78). -/
def decodeOp05 (w : Nat) : Except DecodeError Instr :=
  .ok (.brv (field w 25 23) (signExt 13 (field w 22 10)) (signExt 10 (field w 9 0)))

/-- Words of major opcode 0x06, format BV (R75, R78). -/
def decodeOp06 (w : Nat) : Except DecodeError Instr :=
  reserved (field w 9 0) <| .ok (.brRg (field w 25 23) (signExt 13 (field w 22 10)))

/-- Words of major opcode 0x07, format B (R75, R78). -/
def decodeOp07 (w : Nat) : Except DecodeError Instr :=
  reserved (field w 25 23) <| .ok (.call (signExt 23 (field w 22 0)))

/-- Words of major opcode 0x08, format SC (R75, R78). -/
def decodeOp08 (w : Nat) : Except DecodeError Instr :=
  match field w 25 22 with
  | 0 => reserved (field w 21 0) <| .ok (.exit)
  | 1 => reserved (field w 21 0) <| .ok (.ret)
  | 2 => reserved (field w 21 0) <| .ok (.nop)
  | 3 => reserved (field w 21 0) <| .ok (.yield)
  | _ => .error .unassignedFunct

/-- Words of major opcode 0x09, format SV (R75, R78). -/
def decodeOp09 (w : Nat) : Except DecodeError Instr :=
  match field w 2 0 with
  | 0 => reserved (field w 7 3) <| .ok (.gets (field w 25 20) (field w 19 13) (field w 12 8))
  | 1 => reserved (field w 12 3) <| .ok (.getsFirst (field w 25 20) (field w 19 13))
  | 2 => reserved (field w 12 3) <| .ok (.sets (field w 25 20) (field w 19 13))
  | _ => .error .unassignedFunct

/-- Words of major opcode 0x0a, format BR (R75, R78). -/
def decodeOp0A (w : Nat) : Except DecodeError Instr :=
  match field w 21 20 with
  | 0 => reserved (field w 8 0) <| .ok (.bpost (field w 25 22) (field w 19 9))
  | 1 => reserved (field w 19 0) <| .ok (.bhold (field w 25 22))
  | 2 => reserved (field w 25 22) <| reserved (field w 19 0) <| .ok (.barg)
  | _ => .error .unassignedFunct

/-- Words of major opcode 0x0b, format W (R75, R78); without `cen`, ctr and n are unused and must be zero (R77, R81). -/
def decodeOp0B (w : Nat) : Except DecodeError Instr :=
  reserved (field w 8 0) <| reserved (if bitOf w 15 then 0 else field w 17 16 + field w 14 9) <| assigned (decodeCtr (field w 17 16)) fun ctr => .ok (.wait (field w 25 18) ctr (bitOf w 15) (field w 14 9))

/-- Words of major opcode 0x0c, format RP (R75, R78). -/
def decodeOp0C (w : Nat) : Except DecodeError Instr :=
  reserved (field w 14 0) <| .ok (.rep (field w 25 20) (field w 19 17) (field w 16 15))

/-- Words of major opcode 0x10, format V (R75, R78). -/
def decodeOp10 (w : Nat) : Except DecodeError Instr :=
  match field w 4 0 with
  | 0 => .ok (.vAdd (field w 25 19) (field w 18 12) (field w 11 5))
  | 1 => .ok (.vSub (field w 25 19) (field w 18 12) (field w 11 5))
  | 2 => .ok (.vMul (field w 25 19) (field w 18 12) (field w 11 5))
  | 3 => .ok (.vMulhiI32 (field w 25 19) (field w 18 12) (field w 11 5))
  | 4 => .ok (.vMulhiN32 (field w 25 19) (field w 18 12) (field w 11 5))
  | 5 => .ok (.vMad (field w 25 19) (field w 18 12) (field w 11 5))
  | 6 => .ok (.vMinI32 (field w 25 19) (field w 18 12) (field w 11 5))
  | 7 => .ok (.vMaxI32 (field w 25 19) (field w 18 12) (field w 11 5))
  | 8 => .ok (.vMinN32 (field w 25 19) (field w 18 12) (field w 11 5))
  | 9 => .ok (.vMaxN32 (field w 25 19) (field w 18 12) (field w 11 5))
  | 10 => .ok (.vAnd (field w 25 19) (field w 18 12) (field w 11 5))
  | 11 => .ok (.vOr (field w 25 19) (field w 18 12) (field w 11 5))
  | 12 => .ok (.vXor (field w 25 19) (field w 18 12) (field w 11 5))
  | 13 => .ok (.vShl (field w 25 19) (field w 18 12) (field w 11 5))
  | 14 => .ok (.vShr (field w 25 19) (field w 18 12) (field w 11 5))
  | 15 => .ok (.vSra (field w 25 19) (field w 18 12) (field w 11 5))
  | 16 => reserved (field w 11 5) <| .ok (.vClz (field w 25 19) (field w 18 12))
  | 17 => reserved (field w 11 5) <| .ok (.vPopc (field w 25 19) (field w 18 12))
  | 18 => reserved (field w 11 5) <| .ok (.vAbsI32 (field w 25 19) (field w 18 12))
  | 19 => .ok (.vAddSatI32 (field w 25 19) (field w 18 12) (field w 11 5))
  | 20 => .ok (.vSubSatI32 (field w 25 19) (field w 18 12) (field w 11 5))
  | 21 => reserved (field w 11 5) <| .ok (.vMov (field w 25 19) (field w 18 12))
  | _ => .error .unassignedFunct

/-- Words of major opcode 0x11, format VI (R75, R78). -/
def decodeOp11 (w : Nat) : Except DecodeError Instr :=
  match field w 4 0 with
  | 0 => .ok (.viAdd (field w 25 19) (field w 18 12) (signExt 7 (field w 11 5)))
  | 1 => .ok (.viSub (field w 25 19) (field w 18 12) (signExt 7 (field w 11 5)))
  | 2 => .ok (.viMul (field w 25 19) (field w 18 12) (signExt 7 (field w 11 5)))
  | 3 => .ok (.viMulhiI32 (field w 25 19) (field w 18 12) (signExt 7 (field w 11 5)))
  | 4 => .ok (.viMulhiN32 (field w 25 19) (field w 18 12) (signExt 7 (field w 11 5)))
  | 6 => .ok (.viMinI32 (field w 25 19) (field w 18 12) (signExt 7 (field w 11 5)))
  | 7 => .ok (.viMaxI32 (field w 25 19) (field w 18 12) (signExt 7 (field w 11 5)))
  | 8 => .ok (.viMinN32 (field w 25 19) (field w 18 12) (signExt 7 (field w 11 5)))
  | 9 => .ok (.viMaxN32 (field w 25 19) (field w 18 12) (signExt 7 (field w 11 5)))
  | 10 => .ok (.viAnd (field w 25 19) (field w 18 12) (signExt 7 (field w 11 5)))
  | 11 => .ok (.viOr (field w 25 19) (field w 18 12) (signExt 7 (field w 11 5)))
  | 12 => .ok (.viXor (field w 25 19) (field w 18 12) (signExt 7 (field w 11 5)))
  | 13 => .ok (.viShl (field w 25 19) (field w 18 12) (signExt 7 (field w 11 5)))
  | 14 => .ok (.viShr (field w 25 19) (field w 18 12) (signExt 7 (field w 11 5)))
  | 15 => .ok (.viSra (field w 25 19) (field w 18 12) (signExt 7 (field w 11 5)))
  | 16 => reserved (field w 18 12) <| .ok (.viMov (field w 25 19) (signExt 7 (field w 11 5)))
  | _ => .error .unassignedFunct

/-- Words of major opcode 0x12, format V (R75, R78). -/
def decodeOp12 (w : Nat) : Except DecodeError Instr :=
  match field w 4 0 with
  | 0 => .ok (.v64Add (field w 25 19) (field w 18 12) (field w 11 5))
  | 1 => .ok (.v64Sub (field w 25 19) (field w 18 12) (field w 11 5))
  | 2 => .ok (.v64Mul (field w 25 19) (field w 18 12) (field w 11 5))
  | 6 => .ok (.v64MinI64 (field w 25 19) (field w 18 12) (field w 11 5))
  | 7 => .ok (.v64MaxI64 (field w 25 19) (field w 18 12) (field w 11 5))
  | 8 => .ok (.v64MinN64 (field w 25 19) (field w 18 12) (field w 11 5))
  | 9 => .ok (.v64MaxN64 (field w 25 19) (field w 18 12) (field w 11 5))
  | 10 => .ok (.v64And (field w 25 19) (field w 18 12) (field w 11 5))
  | 11 => .ok (.v64Or (field w 25 19) (field w 18 12) (field w 11 5))
  | 12 => .ok (.v64Xor (field w 25 19) (field w 18 12) (field w 11 5))
  | 13 => .ok (.v64Shl (field w 25 19) (field w 18 12) (field w 11 5))
  | 14 => .ok (.v64Shr (field w 25 19) (field w 18 12) (field w 11 5))
  | 15 => .ok (.v64Sra (field w 25 19) (field w 18 12) (field w 11 5))
  | 16 => reserved (field w 11 5) <| .ok (.v64Clz (field w 25 19) (field w 18 12))
  | 17 => reserved (field w 11 5) <| .ok (.v64Popc (field w 25 19) (field w 18 12))
  | 21 => .ok (.v64MulWideI32 (field w 25 19) (field w 18 12) (field w 11 5))
  | 22 => .ok (.v64MulWideN32 (field w 25 19) (field w 18 12) (field w 11 5))
  | _ => .error .unassignedFunct

/-- Words of major opcode 0x13, format VC (R75, R78). -/
def decodeOp13 (w : Nat) : Except DecodeError Instr :=
  match field w 8 6 with
  | 0 => reserved (field w 3 0) <| assigned (decodeCmpTy (field w 5 4)) fun ty => .ok (.vCmpEq (field w 25 23) (field w 22 16) (field w 15 9) ty)
  | 1 => reserved (field w 3 0) <| assigned (decodeCmpTy (field w 5 4)) fun ty => .ok (.vCmpNe (field w 25 23) (field w 22 16) (field w 15 9) ty)
  | 2 => reserved (field w 3 0) <| assigned (decodeCmpTy (field w 5 4)) fun ty => .ok (.vCmpLt (field w 25 23) (field w 22 16) (field w 15 9) ty)
  | 3 => reserved (field w 3 0) <| assigned (decodeCmpTy (field w 5 4)) fun ty => .ok (.vCmpLe (field w 25 23) (field w 22 16) (field w 15 9) ty)
  | 4 => reserved (field w 3 0) <| assigned (decodeCmpTy (field w 5 4)) fun ty => .ok (.vCmpGt (field w 25 23) (field w 22 16) (field w 15 9) ty)
  | 5 => reserved (field w 3 0) <| assigned (decodeCmpTy (field w 5 4)) fun ty => .ok (.vCmpGe (field w 25 23) (field w 22 16) (field w 15 9) ty)
  | _ => .error .unassignedFunct

/-- Words of major opcode 0x14, format V (R75, R78). -/
def decodeOp14 (w : Nat) : Except DecodeError Instr :=
  match field w 4 0 with
  | 0 => .ok (.vFaddF32 (field w 25 19) (field w 18 12) (field w 11 5))
  | 1 => .ok (.vFsubF32 (field w 25 19) (field w 18 12) (field w 11 5))
  | 2 => .ok (.vFmulF32 (field w 25 19) (field w 18 12) (field w 11 5))
  | 3 => .ok (.vFmaF32 (field w 25 19) (field w 18 12) (field w 11 5))
  | 4 => .ok (.vFminF32 (field w 25 19) (field w 18 12) (field w 11 5))
  | 5 => .ok (.vFmaxF32 (field w 25 19) (field w 18 12) (field w 11 5))
  | 6 => reserved (field w 11 5) <| .ok (.vFabsF32 (field w 25 19) (field w 18 12))
  | 7 => reserved (field w 11 5) <| .ok (.vFnegF32 (field w 25 19) (field w 18 12))
  | _ => .error .unassignedFunct

/-- Words of major opcode 0x15, format V (R75, R78). -/
def decodeOp15 (w : Nat) : Except DecodeError Instr :=
  match field w 4 0 with
  | 0 => .ok (.vFaddF64 (field w 25 19) (field w 18 12) (field w 11 5))
  | 1 => .ok (.vFsubF64 (field w 25 19) (field w 18 12) (field w 11 5))
  | 2 => .ok (.vFmulF64 (field w 25 19) (field w 18 12) (field w 11 5))
  | 3 => .ok (.vFmaF64 (field w 25 19) (field w 18 12) (field w 11 5))
  | 4 => .ok (.vFminF64 (field w 25 19) (field w 18 12) (field w 11 5))
  | 5 => .ok (.vFmaxF64 (field w 25 19) (field w 18 12) (field w 11 5))
  | 6 => reserved (field w 11 5) <| .ok (.vFabsF64 (field w 25 19) (field w 18 12))
  | 7 => reserved (field w 11 5) <| .ok (.vFnegF64 (field w 25 19) (field w 18 12))
  | _ => .error .unassignedFunct

/-- Words of major opcode 0x16, format VC (R75, R78). -/
def decodeOp16 (w : Nat) : Except DecodeError Instr :=
  match field w 8 6 with
  | 0 => reserved (field w 5 5) <| reserved (field w 3 0) <| .ok (.vFcmpEq (field w 25 23) (field w 22 16) (field w 15 9) (bitOf w 4))
  | 1 => reserved (field w 5 5) <| reserved (field w 3 0) <| .ok (.vFcmpNe (field w 25 23) (field w 22 16) (field w 15 9) (bitOf w 4))
  | 2 => reserved (field w 5 5) <| reserved (field w 3 0) <| .ok (.vFcmpLt (field w 25 23) (field w 22 16) (field w 15 9) (bitOf w 4))
  | 3 => reserved (field w 5 5) <| reserved (field w 3 0) <| .ok (.vFcmpLe (field w 25 23) (field w 22 16) (field w 15 9) (bitOf w 4))
  | 4 => reserved (field w 5 5) <| reserved (field w 3 0) <| .ok (.vFcmpGt (field w 25 23) (field w 22 16) (field w 15 9) (bitOf w 4))
  | 5 => reserved (field w 5 5) <| reserved (field w 3 0) <| .ok (.vFcmpGe (field w 25 23) (field w 22 16) (field w 15 9) (bitOf w 4))
  | 6 => reserved (field w 5 5) <| reserved (field w 3 0) <| .ok (.vFcmpNum (field w 25 23) (field w 22 16) (field w 15 9) (bitOf w 4))
  | 7 => reserved (field w 5 5) <| reserved (field w 3 0) <| .ok (.vFcmpNan (field w 25 23) (field w 22 16) (field w 15 9) (bitOf w 4))
  | _ => .error .unassignedFunct

/-- Words of major opcode 0x17, format V (R75, R78). -/
def decodeOp17 (w : Nat) : Except DecodeError Instr :=
  match field w 4 0 with
  | 0 => reserved (field w 11 5) <| .ok (.vRcpF32 (field w 25 19) (field w 18 12))
  | 1 => reserved (field w 11 5) <| .ok (.vRsqF32 (field w 25 19) (field w 18 12))
  | 2 => reserved (field w 11 5) <| .ok (.vSqrtF32 (field w 25 19) (field w 18 12))
  | 3 => reserved (field w 11 5) <| .ok (.vExp2F32 (field w 25 19) (field w 18 12))
  | 4 => reserved (field w 11 5) <| .ok (.vLog2F32 (field w 25 19) (field w 18 12))
  | 5 => reserved (field w 11 5) <| .ok (.vSinF32 (field w 25 19) (field w 18 12))
  | 6 => reserved (field w 11 5) <| .ok (.vCosF32 (field w 25 19) (field w 18 12))
  | _ => .error .unassignedFunct

/-- Words of major opcode 0x18, format V (R75, R78). -/
def decodeOp18 (w : Nat) : Except DecodeError Instr :=
  match field w 4 0 with
  | 0 => reserved (field w 11 5) <| .ok (.vRcpF64 (field w 25 19) (field w 18 12))
  | 1 => reserved (field w 11 5) <| .ok (.vRsqF64 (field w 25 19) (field w 18 12))
  | 2 => reserved (field w 11 5) <| .ok (.vSqrtF64 (field w 25 19) (field w 18 12))
  | _ => .error .unassignedFunct

/-- Words of major opcode 0x19, format VK (R75, R78). -/
def decodeOp19 (w : Nat) : Except DecodeError Instr :=
  assigned (decodeNumTy (field w 11 8)) fun dt => assigned (decodeNumTy (field w 7 4)) fun st => assigned (decodeRoundSel (field w 3 1)) fun rm => .ok (.cvt (field w 25 19) (field w 18 12) dt st rm (bitOf w 0))

/-- Words of major opcode 0x1a, format VR (R75, R78). -/
def decodeOp1A (w : Nat) : Except DecodeError Instr :=
  match field w 6 6 with
  | 0 => reserved (field w 2 0) <| assigned (decodeBlk (field w 11 10)) fun blk => assigned (decodeRotFmt (field w 5 3)) fun fmt => .ok (.vrot (field w 25 19) (field w 18 12) blk (field w 9 7) fmt)
  | 1 => reserved (field w 2 0) <| assigned (decodeBlk (field w 11 10)) fun blk => assigned (decodeRotFmt (field w 5 3)) fun fmt => .ok (.virot (field w 25 19) (field w 18 12) blk (field w 9 7) fmt)
  | _ => .error .unassignedFunct

/-- Words of major opcode 0x28, format VL (R75, R78). -/
def decodeOp28 (w : Nat) : Except DecodeError Instr :=
  .ok (.lxAt (field w 25 19) (field w 18 12) (field w 11 5) (bitOf w 4) (field w 3 0))

/-- Words of major opcode 0x29, format VL (R75, R78). -/
def decodeOp29 (w : Nat) : Except DecodeError Instr :=
  .ok (.lxLo (field w 25 19) (field w 18 12) (field w 11 5) (bitOf w 4) (field w 3 0))

/-- Words of major opcode 0x2a, format VL (R75, R78). -/
def decodeOp2A (w : Nat) : Except DecodeError Instr :=
  .ok (.lxHi (field w 25 19) (field w 18 12) (field w 11 5) (bitOf w 4) (field w 3 0))

/-- Words of major opcode 0x2b, format VL (R75, R78). -/
def decodeOp2B (w : Nat) : Except DecodeError Instr :=
  .ok (.lxXor (field w 25 19) (field w 18 12) (field w 11 5) (bitOf w 4) (field w 3 0))

/-- Words of major opcode 0x2c, format VW (R75, R78). -/
def decodeOp2C (w : Nat) : Except DecodeError Instr :=
  match field w 5 0 with
  | 0 => reserved (field w 25 22) <| reserved (field w 18 15) <| .ok (.pollEvery (field w 21 19) (field w 14 12) (field w 11 6))
  | 1 => reserved (field w 25 22) <| reserved (field w 18 15) <| .ok (.pollSome (field w 21 19) (field w 14 12) (field w 11 6))
  | 2 => reserved (field w 25 25) <| reserved (field w 18 15) <| .ok (.pollBits (field w 24 19) (field w 14 12) (field w 11 6))
  | 3 => .ok (.peersB32 (field w 25 19) (field w 18 12) (field w 11 6))
  | 4 => .ok (.peersB64 (field w 25 19) (field w 18 12) (field w 11 6))
  | 8 => .ok (.combAddI32 (field w 25 19) (field w 18 12) (field w 11 6))
  | 9 => .ok (.combMinI32 (field w 25 19) (field w 18 12) (field w 11 6))
  | 10 => .ok (.combMaxI32 (field w 25 19) (field w 18 12) (field w 11 6))
  | 11 => .ok (.combMinN32 (field w 25 19) (field w 18 12) (field w 11 6))
  | 12 => .ok (.combMaxN32 (field w 25 19) (field w 18 12) (field w 11 6))
  | 13 => .ok (.combAndB32 (field w 25 19) (field w 18 12) (field w 11 6))
  | 14 => .ok (.combOrB32 (field w 25 19) (field w 18 12) (field w 11 6))
  | 15 => .ok (.combXorB32 (field w 25 19) (field w 18 12) (field w 11 6))
  | 16 => .ok (.combAddF32 (field w 25 19) (field w 18 12) (field w 11 6))
  | 17 => .ok (.combMinF32 (field w 25 19) (field w 18 12) (field w 11 6))
  | 18 => .ok (.combMaxF32 (field w 25 19) (field w 18 12) (field w 11 6))
  | _ => .error .unassignedFunct

/-- Words of major opcode 0x2d, format VP (R75, R78). -/
def decodeOp2D (w : Nat) : Except DecodeError Instr :=
  reserved (field w 1 0) <| .ok (.sel (field w 25 19) (field w 18 12) (field w 11 5) (field w 4 2))

/-- Words of major opcode 0x2e, format PL (R75, R78). -/
def decodeOp2E (w : Nat) : Except DecodeError Instr :=
  match field w 16 13 with
  | 0 => reserved (field w 12 0) <| .ok (.pand (field w 25 23) (field w 22 20) (field w 19 17))
  | 1 => reserved (field w 12 0) <| .ok (.por (field w 25 23) (field w 22 20) (field w 19 17))
  | 2 => reserved (field w 12 0) <| .ok (.pxor (field w 25 23) (field w 22 20) (field w 19 17))
  | 3 => reserved (field w 12 0) <| .ok (.pandn (field w 25 23) (field w 22 20) (field w 19 17))
  | 4 => reserved (field w 19 17) <| reserved (field w 12 0) <| .ok (.pnot (field w 25 23) (field w 22 20))
  | 5 => reserved (field w 19 17) <| reserved (field w 12 0) <| .ok (.pmov (field w 25 23) (field w 22 20))
  | 6 => reserved (field w 22 17) <| reserved (field w 6 0) <| .ok (.pfrom (field w 25 23) (field w 12 7))
  | 7 => reserved (field w 25 23) <| reserved (field w 19 17) <| reserved (field w 6 0) <| .ok (.pto (field w 22 20) (field w 12 7))
  | _ => .error .unassignedFunct

/-- Words of major opcode 0x30, format M (R75, R78). -/
def decodeOp30 (w : Nat) : Except DecodeError Instr :=
  assigned (decodeMemTy (field w 25 23)) fun ty => assigned (decodeHint (field w 22 21)) fun hint => .ok (.ldG ty hint (field w 20 14) (field w 13 7) (signExt 7 (field w 6 0)))

/-- Words of major opcode 0x31, format M (R75, R78). -/
def decodeOp31 (w : Nat) : Except DecodeError Instr :=
  assigned (decodeStoreTy (field w 25 23)) fun ty => assigned (decodeHint (field w 22 21)) fun hint => .ok (.stG ty hint (field w 20 14) (field w 13 7) (signExt 7 (field w 6 0)))

/-- Words of major opcode 0x32, format M (R75, R78). -/
def decodeOp32 (w : Nat) : Except DecodeError Instr :=
  reserved (field w 22 21) <| assigned (decodeMemTy (field w 25 23)) fun ty => .ok (.ldS ty (field w 20 14) (field w 13 7) (signExt 7 (field w 6 0)))

/-- Words of major opcode 0x33, format M (R75, R78). -/
def decodeOp33 (w : Nat) : Except DecodeError Instr :=
  reserved (field w 22 21) <| assigned (decodeStoreTy (field w 25 23)) fun ty => .ok (.stS ty (field w 20 14) (field w 13 7) (signExt 7 (field w 6 0)))

/-- Words of major opcode 0x34, format MA (R75, R78). -/
def decodeOp34 (w : Nat) : Except DecodeError Instr :=
  match field w 11 8 with
  | 0 => assigned (decodeAtomTy (field w 7 6)) fun ty => assigned (decodeScope (field w 5 4)) fun scope => assigned (decodeOrder (field w 3 1)) fun ord => .ok (.atomLd (field w 25 19) (field w 18 12) ty scope ord (bitOf w 0))
  | 1 => assigned (decodeAtomTy (field w 7 6)) fun ty => assigned (decodeScope (field w 5 4)) fun scope => assigned (decodeOrder (field w 3 1)) fun ord => .ok (.atomSt (field w 25 19) (field w 18 12) ty scope ord (bitOf w 0))
  | 2 => assigned (decodeAtomTy (field w 7 6)) fun ty => assigned (decodeScope (field w 5 4)) fun scope => assigned (decodeOrder (field w 3 1)) fun ord => .ok (.atomExch (field w 25 19) (field w 18 12) ty scope ord (bitOf w 0))
  | 3 => assigned (decodeAtomTy (field w 7 6)) fun ty => assigned (decodeScope (field w 5 4)) fun scope => assigned (decodeOrder (field w 3 1)) fun ord => .ok (.atomCas (field w 25 19) (field w 18 12) ty scope ord (bitOf w 0))
  | 4 => assigned (decodeAtomTy (field w 7 6)) fun ty => assigned (decodeScope (field w 5 4)) fun scope => assigned (decodeOrder (field w 3 1)) fun ord => .ok (.atomAdd (field w 25 19) (field w 18 12) ty scope ord (bitOf w 0))
  | 5 => assigned (decodeAtomTy (field w 7 6)) fun ty => assigned (decodeScope (field w 5 4)) fun scope => assigned (decodeOrder (field w 3 1)) fun ord => .ok (.atomMin (field w 25 19) (field w 18 12) ty scope ord (bitOf w 0))
  | 6 => assigned (decodeAtomTy (field w 7 6)) fun ty => assigned (decodeScope (field w 5 4)) fun scope => assigned (decodeOrder (field w 3 1)) fun ord => .ok (.atomMax (field w 25 19) (field w 18 12) ty scope ord (bitOf w 0))
  | 7 => assigned (decodeAtomTy (field w 7 6)) fun ty => assigned (decodeScope (field w 5 4)) fun scope => assigned (decodeOrder (field w 3 1)) fun ord => .ok (.atomAnd (field w 25 19) (field w 18 12) ty scope ord (bitOf w 0))
  | 8 => assigned (decodeAtomTy (field w 7 6)) fun ty => assigned (decodeScope (field w 5 4)) fun scope => assigned (decodeOrder (field w 3 1)) fun ord => .ok (.atomOr (field w 25 19) (field w 18 12) ty scope ord (bitOf w 0))
  | _ => .error .unassignedFunct

/-- Words of major opcode 0x35, format MA (R75, R78). -/
def decodeOp35 (w : Nat) : Except DecodeError Instr :=
  match field w 11 8 with
  | 0 => reserved (field w 5 4) <| reserved (field w 0 0) <| assigned (decodeAtomTy (field w 7 6)) fun ty => assigned (decodeOrder (field w 3 1)) fun ord => .ok (.atomSLd (field w 25 19) (field w 18 12) ty ord)
  | 1 => reserved (field w 5 4) <| reserved (field w 0 0) <| assigned (decodeAtomTy (field w 7 6)) fun ty => assigned (decodeOrder (field w 3 1)) fun ord => .ok (.atomSSt (field w 25 19) (field w 18 12) ty ord)
  | 2 => reserved (field w 5 4) <| reserved (field w 0 0) <| assigned (decodeAtomTy (field w 7 6)) fun ty => assigned (decodeOrder (field w 3 1)) fun ord => .ok (.atomSExch (field w 25 19) (field w 18 12) ty ord)
  | 3 => reserved (field w 5 4) <| reserved (field w 0 0) <| assigned (decodeAtomTy (field w 7 6)) fun ty => assigned (decodeOrder (field w 3 1)) fun ord => .ok (.atomSCas (field w 25 19) (field w 18 12) ty ord)
  | 4 => reserved (field w 5 4) <| reserved (field w 0 0) <| assigned (decodeAtomTy (field w 7 6)) fun ty => assigned (decodeOrder (field w 3 1)) fun ord => .ok (.atomSAdd (field w 25 19) (field w 18 12) ty ord)
  | 5 => reserved (field w 5 4) <| reserved (field w 0 0) <| assigned (decodeAtomTy (field w 7 6)) fun ty => assigned (decodeOrder (field w 3 1)) fun ord => .ok (.atomSMin (field w 25 19) (field w 18 12) ty ord)
  | 6 => reserved (field w 5 4) <| reserved (field w 0 0) <| assigned (decodeAtomTy (field w 7 6)) fun ty => assigned (decodeOrder (field w 3 1)) fun ord => .ok (.atomSMax (field w 25 19) (field w 18 12) ty ord)
  | 7 => reserved (field w 5 4) <| reserved (field w 0 0) <| assigned (decodeAtomTy (field w 7 6)) fun ty => assigned (decodeOrder (field w 3 1)) fun ord => .ok (.atomSAnd (field w 25 19) (field w 18 12) ty ord)
  | 8 => reserved (field w 5 4) <| reserved (field w 0 0) <| assigned (decodeAtomTy (field w 7 6)) fun ty => assigned (decodeOrder (field w 3 1)) fun ord => .ok (.atomSOr (field w 25 19) (field w 18 12) ty ord)
  | _ => .error .unassignedFunct

/-- Words of major opcode 0x36, format MX (R75, R78). -/
def decodeOp36 (w : Nat) : Except DecodeError Instr :=
  match field w 4 0 with
  | 0 => reserved (field w 25 12) <| reserved (field w 5 5) <| assigned (decodeScope (field w 11 10)) fun scope => assigned (decodeOrder (field w 9 7)) fun ord => .ok (.fence scope ord (bitOf w 6))
  | 1 => reserved (field w 25 19) <| reserved (field w 9 5) <| assigned (decodeScope (field w 11 10)) fun scope => .ok (.cctlInv (field w 18 12) scope)
  | 2 => reserved (field w 25 19) <| reserved (field w 9 5) <| assigned (decodeScope (field w 11 10)) fun scope => .ok (.cctlWb (field w 18 12) scope)
  | 3 => reserved (field w 25 19) <| reserved (field w 9 5) <| assigned (decodeScope (field w 11 10)) fun scope => .ok (.cctlWbinv (field w 18 12) scope)
  | 4 => reserved (field w 25 19) <| reserved (field w 9 5) <| assigned (decodeScope (field w 11 10)) fun scope => .ok (.prefetch (field w 18 12) scope)
  | 5 => reserved (field w 25 19) <| reserved (field w 11 5) <| .ok (.waitmon (field w 18 12))
  | 6 => reserved (field w 11 6) <| .ok (.waitge (field w 25 19) (field w 18 12) (bitOf w 5))
  | _ => .error .unassignedFunct

/-- Words of major opcode 0x38, format A (R75, R78). -/
def decodeOp38 (w : Nat) : Except DecodeError Instr :=
  match field w 4 0 with
  | 0 => reserved (field w 10 5) <| .ok (.tmld (field w 25 23) (field w 22 17) (field w 16 11))
  | 1 => reserved (field w 25 23) <| .ok (.tmset (field w 22 17) (field w 16 11) (field w 10 5))
  | 2 => reserved (field w 16 5) <| .ok (.cpy (field w 25 23) (field w 22 17))
  | 3 => reserved (field w 16 5) <| .ok (.cpym (field w 25 23) (field w 22 17))
  | 4 => reserved (field w 25 23) <| reserved (field w 10 5) <| .ok (.sgset (field w 22 17) (field w 16 11))
  | _ => .error .unassignedFunct

/-- Words of major opcode 0x39, format A (R75, R78). -/
def decodeOp39 (w : Nat) : Except DecodeError Instr :=
  match field w 4 0 with
  | 0 => reserved (field w 16 5) <| .ok (.rot (field w 25 23) (field w 22 17))
  | 1 => reserved (field w 16 5) <| .ok (.irot (field w 25 23) (field w 22 17))
  | _ => .error .unassignedFunct

/-- Words of major opcode 0x3a, format A (R75, R78). -/
noncomputable def decodeOp3A (w : Nat) : Except DecodeError Instr :=
  match field w 4 0 with
  | 0 => reserved (field w 16 5) <| .ok (.mma (field w 25 23) (field w 22 17))
  | 1 => reserved (field w 16 5) <| .ok (.accLd (field w 25 23) (field w 22 17))
  | 2 => reserved (field w 16 5) <| .ok (.accSt (field w 25 23) (field w 22 17))
  | 3 => reserved (field w 25 23) <| reserved (field w 16 5) <| .ok (.accZero (field w 22 17))
  | 4 => reserved (field w 25 23) <| reserved (field w 16 5) <| .ok (.bswap (field w 22 17))
  | _ => .error .unassignedFunct

/-- Words of major opcode 0x3b, format A (R75, R78). -/
noncomputable def decodeOp3B (w : Nat) : Except DecodeError Instr :=
  match field w 4 0 with
  | 0 => reserved (field w 16 5) <| .ok (.layerF (field w 25 23) (field w 22 17))
  | 1 => reserved (field w 16 5) <| .ok (.layerT (field w 25 23) (field w 22 17))
  | 2 => reserved (field w 16 5) <| .ok (.layerP (field w 25 23) (field w 22 17))
  | 3 => reserved (field w 10 5) <| .ok (.apush (field w 25 23) (field w 22 17) (field w 16 11))
  | 4 => reserved (field w 10 5) <| .ok (.apop (field w 25 23) (field w 22 17) (field w 16 11))
  | _ => .error .unassignedFunct

/-- Words of major opcode 0x3c, format A (R75, R78). -/
noncomputable def decodeOp3C (w : Nat) : Except DecodeError Instr :=
  match field w 4 0 with
  | 0 => reserved (field w 16 5) <| .ok (.reelSmax (field w 25 23) (field w 22 17))
  | 1 => reserved (field w 16 5) <| .ok (.reelNorm (field w 25 23) (field w 22 17))
  | 2 => reserved (field w 16 5) <| .ok (.reelDsmax (field w 25 23) (field w 22 17))
  | 3 => reserved (field w 16 5) <| .ok (.reelDnorm (field w 25 23) (field w 22 17))
  | 4 => reserved (field w 16 5) <| .ok (.reelStat (field w 25 23) (field w 22 17))
  | 5 => reserved (field w 16 5) <| .ok (.reelClr (field w 25 23) (field w 22 17))
  | _ => .error .unassignedFunct

/-- Words of major opcode 0x3d, format A (R75, R78). -/
noncomputable def decodeOp3D (w : Nat) : Except DecodeError Instr :=
  match field w 4 0 with
  | 0 => reserved (field w 16 5) <| .ok (.pimx (field w 25 23) (field w 22 17))
  | 1 => reserved (field w 10 5) <| .ok (.pimld (field w 25 23) (field w 22 17) (field w 16 11))
  | 2 => reserved (field w 22 5) <| .ok (.mark (field w 25 23))
  | 3 => reserved (field w 25 5) <| .ok (.pimwait)
  | _ => .error .unassignedFunct

/-- Words of major opcode 0x3e, format X (R75, R78). -/
noncomputable def decodeOp3E (w : Nat) : Except DecodeError Instr :=
  match field w 25 22 with
  | 0 => reserved (field w 21 9) <| .ok (.trap (field w 8 0))
  | 1 => reserved (field w 21 0) <| .ok (.eret)
  | 2 => reserved (field w 21 15) <| .ok (.hostcall (field w 14 9) (field w 8 0))
  | 3 => reserved (field w 14 9) <| .ok (.getsr (field w 21 15) (field w 8 0))
  | 4 => reserved (field w 21 15) <| .ok (.setsr (field w 14 9) (field w 8 0))
  | 5 => reserved (field w 21 9) <| .ok (.sleep (field w 8 0))
  | _ => .error .unassignedFunct

/-- The instruction a word of a clause is (R75 to R93): total on every word, refusing by name. -/
noncomputable def decodeWord (w : Nat) : Except DecodeError Instr :=
  match field w 31 26 with
  | 0x00 => decodeOp00 w
  | 0x01 => decodeOp01 w
  | 0x02 => decodeOp02 w
  | 0x03 => decodeOp03 w
  | 0x04 => decodeOp04 w
  | 0x05 => decodeOp05 w
  | 0x06 => decodeOp06 w
  | 0x07 => decodeOp07 w
  | 0x08 => decodeOp08 w
  | 0x09 => decodeOp09 w
  | 0x0a => decodeOp0A w
  | 0x0b => decodeOp0B w
  | 0x0c => decodeOp0C w
  | 0x10 => decodeOp10 w
  | 0x11 => decodeOp11 w
  | 0x12 => decodeOp12 w
  | 0x13 => decodeOp13 w
  | 0x14 => decodeOp14 w
  | 0x15 => decodeOp15 w
  | 0x16 => decodeOp16 w
  | 0x17 => decodeOp17 w
  | 0x18 => decodeOp18 w
  | 0x19 => decodeOp19 w
  | 0x1a => decodeOp1A w
  | 0x28 => decodeOp28 w
  | 0x29 => decodeOp29 w
  | 0x2a => decodeOp2A w
  | 0x2b => decodeOp2B w
  | 0x2c => decodeOp2C w
  | 0x2d => decodeOp2D w
  | 0x2e => decodeOp2E w
  | 0x30 => decodeOp30 w
  | 0x31 => decodeOp31 w
  | 0x32 => decodeOp32 w
  | 0x33 => decodeOp33 w
  | 0x34 => decodeOp34 w
  | 0x35 => decodeOp35 w
  | 0x36 => decodeOp36 w
  | 0x38 => decodeOp38 w
  | 0x39 => decodeOp39 w
  | 0x3a => decodeOp3A w
  | 0x3b => decodeOp3B w
  | 0x3c => decodeOp3C w
  | 0x3d => decodeOp3D w
  | 0x3e => decodeOp3E w
  | 0x3F => .error .reservedOpcode
  | _ => .error .unassignedOpcode

/-- Whether a word of major opcode 0x3a is assigned: the refusals of its decoder, computable. -/
def assignedOp3A (w : Nat) : Bool :=
  match field w 4 0 with
  | 0 => field w 16 5 == 0
  | 1 => field w 16 5 == 0
  | 2 => field w 16 5 == 0
  | 3 => field w 25 23 == 0 && field w 16 5 == 0
  | 4 => field w 25 23 == 0 && field w 16 5 == 0
  | _ => false

/-- Whether a word of major opcode 0x3b is assigned: the refusals of its decoder, computable. -/
def assignedOp3B (w : Nat) : Bool :=
  match field w 4 0 with
  | 0 => field w 16 5 == 0
  | 1 => field w 16 5 == 0
  | 2 => field w 16 5 == 0
  | 3 => field w 10 5 == 0
  | 4 => field w 10 5 == 0
  | _ => false

/-- Whether a word of major opcode 0x3c is assigned: the refusals of its decoder, computable. -/
def assignedOp3C (w : Nat) : Bool :=
  match field w 4 0 with
  | 0 => field w 16 5 == 0
  | 1 => field w 16 5 == 0
  | 2 => field w 16 5 == 0
  | 3 => field w 16 5 == 0
  | 4 => field w 16 5 == 0
  | 5 => field w 16 5 == 0
  | _ => false

/-- Whether a word of major opcode 0x3d is assigned: the refusals of its decoder, computable. -/
def assignedOp3D (w : Nat) : Bool :=
  match field w 4 0 with
  | 0 => field w 16 5 == 0
  | 1 => field w 10 5 == 0
  | 2 => field w 22 5 == 0
  | 3 => field w 25 5 == 0
  | _ => false

/-- Whether a word of major opcode 0x3e is assigned: the refusals of its decoder, computable. -/
def assignedOp3E (w : Nat) : Bool :=
  match field w 25 22 with
  | 0 => field w 21 9 == 0
  | 1 => field w 21 0 == 0
  | 2 => field w 21 15 == 0
  | 3 => field w 14 9 == 0
  | 4 => field w 21 15 == 0
  | 5 => field w 21 9 == 0
  | _ => false

/-- Whether a decoder's answer is an instruction. -/
def isInstr (r : Except DecodeError Instr) : Bool :=
  match r with
  | .ok _ => true
  | .error _ => false

/-- Whether a word is an instruction (R79 steps 1 and 4). -/
def wordAssigned (w : Nat) : Bool :=
  match field w 31 26 with
  | 0x00 => isInstr (decodeOp00 w)
  | 0x01 => isInstr (decodeOp01 w)
  | 0x02 => isInstr (decodeOp02 w)
  | 0x03 => isInstr (decodeOp03 w)
  | 0x04 => isInstr (decodeOp04 w)
  | 0x05 => isInstr (decodeOp05 w)
  | 0x06 => isInstr (decodeOp06 w)
  | 0x07 => isInstr (decodeOp07 w)
  | 0x08 => isInstr (decodeOp08 w)
  | 0x09 => isInstr (decodeOp09 w)
  | 0x0a => isInstr (decodeOp0A w)
  | 0x0b => isInstr (decodeOp0B w)
  | 0x0c => isInstr (decodeOp0C w)
  | 0x10 => isInstr (decodeOp10 w)
  | 0x11 => isInstr (decodeOp11 w)
  | 0x12 => isInstr (decodeOp12 w)
  | 0x13 => isInstr (decodeOp13 w)
  | 0x14 => isInstr (decodeOp14 w)
  | 0x15 => isInstr (decodeOp15 w)
  | 0x16 => isInstr (decodeOp16 w)
  | 0x17 => isInstr (decodeOp17 w)
  | 0x18 => isInstr (decodeOp18 w)
  | 0x19 => isInstr (decodeOp19 w)
  | 0x1a => isInstr (decodeOp1A w)
  | 0x28 => isInstr (decodeOp28 w)
  | 0x29 => isInstr (decodeOp29 w)
  | 0x2a => isInstr (decodeOp2A w)
  | 0x2b => isInstr (decodeOp2B w)
  | 0x2c => isInstr (decodeOp2C w)
  | 0x2d => isInstr (decodeOp2D w)
  | 0x2e => isInstr (decodeOp2E w)
  | 0x30 => isInstr (decodeOp30 w)
  | 0x31 => isInstr (decodeOp31 w)
  | 0x32 => isInstr (decodeOp32 w)
  | 0x33 => isInstr (decodeOp33 w)
  | 0x34 => isInstr (decodeOp34 w)
  | 0x35 => isInstr (decodeOp35 w)
  | 0x36 => isInstr (decodeOp36 w)
  | 0x38 => isInstr (decodeOp38 w)
  | 0x39 => isInstr (decodeOp39 w)
  | 0x3a => assignedOp3A w
  | 0x3b => assignedOp3B w
  | 0x3c => assignedOp3C w
  | 0x3d => assignedOp3D w
  | 0x3e => assignedOp3E w
  | _ => false

/-- The word of an instruction that has one, from the formats of R75 and the tables of R80 to R93; events and
messages have none. -/
def encode (i : Instr) : Option Nat :=
  match i with
  | .sAdd d a b w => some (word4 0x0 d 20 a 14 b 8 (boolBit w) 5)
  | .sSub d a b w => some (word4 0x1 d 20 a 14 b 8 (boolBit w) 5)
  | .sMul d a b => some (word3 0x2 d 20 a 14 b 8)
  | .sMulhiI32 d a b => some (word3 0x3 d 20 a 14 b 8)
  | .sMulhiN32 d a b => some (word3 0x4 d 20 a 14 b 8)
  | .sAnd d a b w => some (word4 0x5 d 20 a 14 b 8 (boolBit w) 5)
  | .sOr d a b w => some (word4 0x6 d 20 a 14 b 8 (boolBit w) 5)
  | .sXor d a b w => some (word4 0x7 d 20 a 14 b 8 (boolBit w) 5)
  | .sShl d a b w => some (word4 0x8 d 20 a 14 b 8 (boolBit w) 5)
  | .sShr d a b w => some (word4 0x9 d 20 a 14 b 8 (boolBit w) 5)
  | .sSra d a b w => some (word4 0xa d 20 a 14 b 8 (boolBit w) 5)
  | .sMinI32 d a b => some (word3 0xb d 20 a 14 b 8)
  | .sMaxI32 d a b => some (word3 0xc d 20 a 14 b 8)
  | .sMinN32 d a b => some (word3 0xd d 20 a 14 b 8)
  | .sMaxN32 d a b => some (word3 0xe d 20 a 14 b 8)
  | .sMovs d a w => some (word3 0xf d 20 a 14 (boolBit w) 5)
  | .sCmpEq d a b w => some (word4 0x10 d 20 a 14 b 8 (boolBit w) 5)
  | .sCmpNe d a b w => some (word4 0x11 d 20 a 14 b 8 (boolBit w) 5)
  | .sCmpLtI32 d a b w => some (word4 0x12 d 20 a 14 b 8 (boolBit w) 5)
  | .sCmpLeI32 d a b w => some (word4 0x13 d 20 a 14 b 8 (boolBit w) 5)
  | .sCmpLtN32 d a b w => some (word4 0x14 d 20 a 14 b 8 (boolBit w) 5)
  | .sCmpLeN32 d a b w => some (word4 0x15 d 20 a 14 b 8 (boolBit w) 5)
  | .sCmpGtI32 d a b w => some (word4 0x16 d 20 a 14 b 8 (boolBit w) 5)
  | .sCmpGeI32 d a b w => some (word4 0x17 d 20 a 14 b 8 (boolBit w) 5)
  | .sCmpGtN32 d a b w => some (word4 0x18 d 20 a 14 b 8 (boolBit w) 5)
  | .sCmpGeN32 d a b w => some (word4 0x19 d 20 a 14 b 8 (boolBit w) 5)
  | .siAdd d a imm => some (word3 0x4000000 d 20 a 14 (immBits 9 imm) 0)
  | .siSub d a imm => some (word3 0x4000200 d 20 a 14 (immBits 9 imm) 0)
  | .siMul d a imm => some (word3 0x4000400 d 20 a 14 (immBits 9 imm) 0)
  | .siMulhiI32 d a imm => some (word3 0x4000600 d 20 a 14 (immBits 9 imm) 0)
  | .siMulhiN32 d a imm => some (word3 0x4000800 d 20 a 14 (immBits 9 imm) 0)
  | .siAnd d a imm => some (word3 0x4000a00 d 20 a 14 (immBits 9 imm) 0)
  | .siOr d a imm => some (word3 0x4000c00 d 20 a 14 (immBits 9 imm) 0)
  | .siXor d a imm => some (word3 0x4000e00 d 20 a 14 (immBits 9 imm) 0)
  | .siShl d a imm => some (word3 0x4001000 d 20 a 14 (immBits 9 imm) 0)
  | .siShr d a imm => some (word3 0x4001200 d 20 a 14 (immBits 9 imm) 0)
  | .siSra d a imm => some (word3 0x4001400 d 20 a 14 (immBits 9 imm) 0)
  | .siMinI32 d a imm => some (word3 0x4001600 d 20 a 14 (immBits 9 imm) 0)
  | .siMaxI32 d a imm => some (word3 0x4001800 d 20 a 14 (immBits 9 imm) 0)
  | .siMinN32 d a imm => some (word3 0x4001a00 d 20 a 14 (immBits 9 imm) 0)
  | .siMaxN32 d a imm => some (word3 0x4001c00 d 20 a 14 (immBits 9 imm) 0)
  | .siMovs d imm => some (word2 0x4001e00 d 20 (immBits 9 imm) 0)
  | .siCmpEq d a imm => some (word3 0x4002000 d 20 a 14 (immBits 9 imm) 0)
  | .siCmpNe d a imm => some (word3 0x4002200 d 20 a 14 (immBits 9 imm) 0)
  | .siCmpLtI32 d a imm => some (word3 0x4002400 d 20 a 14 (immBits 9 imm) 0)
  | .siCmpLeI32 d a imm => some (word3 0x4002600 d 20 a 14 (immBits 9 imm) 0)
  | .siCmpLtN32 d a imm => some (word3 0x4002800 d 20 a 14 (immBits 9 imm) 0)
  | .siCmpLeN32 d a imm => some (word3 0x4002a00 d 20 a 14 (immBits 9 imm) 0)
  | .siCmpGtI32 d a imm => some (word3 0x4002c00 d 20 a 14 (immBits 9 imm) 0)
  | .siCmpGeI32 d a imm => some (word3 0x4002e00 d 20 a 14 (immBits 9 imm) 0)
  | .siCmpGtN32 d a imm => some (word3 0x4003000 d 20 a 14 (immBits 9 imm) 0)
  | .siCmpGeN32 d a imm => some (word3 0x4003200 d 20 a 14 (immBits 9 imm) 0)
  | .siAddI64 d a imm => some (word3 0x4003400 d 20 a 14 (immBits 9 imm) 0)
  | .ldl d off => some (word2 0x8000000 d 20 (immBits 19 off) 0)
  | .ldlB64 d off => some (word2 0x8080000 d 20 (immBits 19 off) 0)
  | .bra off => some (word1 0xc000000 (immBits 23 off) 0)
  | .brcZ a off => some (word2 0x10000000 a 20 (immBits 17 off) 0)
  | .brcNz a off => some (word2 0x10020000 a 20 (immBits 17 off) 0)
  | .brcNeg a off => some (word2 0x10040000 a 20 (immBits 17 off) 0)
  | .brcNneg a off => some (word2 0x10060000 a 20 (immBits 17 off) 0)
  | .brcPos a off => some (word2 0x10080000 a 20 (immBits 17 off) 0)
  | .brcNpos a off => some (word2 0x100a0000 a 20 (immBits 17 off) 0)
  | .brv p tgt join => some (word3 0x14000000 p 23 (immBits 13 tgt) 10 (immBits 10 join) 0)
  | .brRg p tgt => some (word2 0x18000000 p 23 (immBits 13 tgt) 10)
  | .call off => some (word1 0x1c000000 (immBits 23 off) 0)
  | .exit => some (word0 0x20000000)
  | .ret => some (word0 0x20400000)
  | .nop => some (word0 0x20800000)
  | .yield => some (word0 0x20c00000)
  | .gets d v l => some (word3 0x24000000 d 20 v 13 l 8)
  | .getsFirst d v => some (word2 0x24000001 d 20 v 13)
  | .sets d v => some (word2 0x24000002 d 20 v 13)
  | .bpost n c => some (word2 0x28000000 n 22 c 9)
  | .bhold n => some (word1 0x28100000 n 22)
  | .barg => some (word0 0x28200000)
  | .wait kmask ctr cen n => some (word4 0x2c000000 kmask 18 (ctrCode ctr) 16 (boolBit cen) 15 n 9)
  | .rep cnt step sz => some (word3 0x30000000 cnt 20 step 17 sz 15)
  | .vAdd d a b => some (word3 0x40000000 d 19 a 12 b 5)
  | .vSub d a b => some (word3 0x40000001 d 19 a 12 b 5)
  | .vMul d a b => some (word3 0x40000002 d 19 a 12 b 5)
  | .vMulhiI32 d a b => some (word3 0x40000003 d 19 a 12 b 5)
  | .vMulhiN32 d a b => some (word3 0x40000004 d 19 a 12 b 5)
  | .vMad d a b => some (word3 0x40000005 d 19 a 12 b 5)
  | .vMinI32 d a b => some (word3 0x40000006 d 19 a 12 b 5)
  | .vMaxI32 d a b => some (word3 0x40000007 d 19 a 12 b 5)
  | .vMinN32 d a b => some (word3 0x40000008 d 19 a 12 b 5)
  | .vMaxN32 d a b => some (word3 0x40000009 d 19 a 12 b 5)
  | .vAnd d a b => some (word3 0x4000000a d 19 a 12 b 5)
  | .vOr d a b => some (word3 0x4000000b d 19 a 12 b 5)
  | .vXor d a b => some (word3 0x4000000c d 19 a 12 b 5)
  | .vShl d a b => some (word3 0x4000000d d 19 a 12 b 5)
  | .vShr d a b => some (word3 0x4000000e d 19 a 12 b 5)
  | .vSra d a b => some (word3 0x4000000f d 19 a 12 b 5)
  | .vClz d a => some (word2 0x40000010 d 19 a 12)
  | .vPopc d a => some (word2 0x40000011 d 19 a 12)
  | .vAbsI32 d a => some (word2 0x40000012 d 19 a 12)
  | .vAddSatI32 d a b => some (word3 0x40000013 d 19 a 12 b 5)
  | .vSubSatI32 d a b => some (word3 0x40000014 d 19 a 12 b 5)
  | .vMov d a => some (word2 0x40000015 d 19 a 12)
  | .viAdd d a imm => some (word3 0x44000000 d 19 a 12 (immBits 7 imm) 5)
  | .viSub d a imm => some (word3 0x44000001 d 19 a 12 (immBits 7 imm) 5)
  | .viMul d a imm => some (word3 0x44000002 d 19 a 12 (immBits 7 imm) 5)
  | .viMulhiI32 d a imm => some (word3 0x44000003 d 19 a 12 (immBits 7 imm) 5)
  | .viMulhiN32 d a imm => some (word3 0x44000004 d 19 a 12 (immBits 7 imm) 5)
  | .viMinI32 d a imm => some (word3 0x44000006 d 19 a 12 (immBits 7 imm) 5)
  | .viMaxI32 d a imm => some (word3 0x44000007 d 19 a 12 (immBits 7 imm) 5)
  | .viMinN32 d a imm => some (word3 0x44000008 d 19 a 12 (immBits 7 imm) 5)
  | .viMaxN32 d a imm => some (word3 0x44000009 d 19 a 12 (immBits 7 imm) 5)
  | .viAnd d a imm => some (word3 0x4400000a d 19 a 12 (immBits 7 imm) 5)
  | .viOr d a imm => some (word3 0x4400000b d 19 a 12 (immBits 7 imm) 5)
  | .viXor d a imm => some (word3 0x4400000c d 19 a 12 (immBits 7 imm) 5)
  | .viShl d a imm => some (word3 0x4400000d d 19 a 12 (immBits 7 imm) 5)
  | .viShr d a imm => some (word3 0x4400000e d 19 a 12 (immBits 7 imm) 5)
  | .viSra d a imm => some (word3 0x4400000f d 19 a 12 (immBits 7 imm) 5)
  | .viMov d imm => some (word2 0x44000010 d 19 (immBits 7 imm) 5)
  | .v64Add d a b => some (word3 0x48000000 d 19 a 12 b 5)
  | .v64Sub d a b => some (word3 0x48000001 d 19 a 12 b 5)
  | .v64Mul d a b => some (word3 0x48000002 d 19 a 12 b 5)
  | .v64MinI64 d a b => some (word3 0x48000006 d 19 a 12 b 5)
  | .v64MaxI64 d a b => some (word3 0x48000007 d 19 a 12 b 5)
  | .v64MinN64 d a b => some (word3 0x48000008 d 19 a 12 b 5)
  | .v64MaxN64 d a b => some (word3 0x48000009 d 19 a 12 b 5)
  | .v64And d a b => some (word3 0x4800000a d 19 a 12 b 5)
  | .v64Or d a b => some (word3 0x4800000b d 19 a 12 b 5)
  | .v64Xor d a b => some (word3 0x4800000c d 19 a 12 b 5)
  | .v64Shl d a b => some (word3 0x4800000d d 19 a 12 b 5)
  | .v64Shr d a b => some (word3 0x4800000e d 19 a 12 b 5)
  | .v64Sra d a b => some (word3 0x4800000f d 19 a 12 b 5)
  | .v64Clz d a => some (word2 0x48000010 d 19 a 12)
  | .v64Popc d a => some (word2 0x48000011 d 19 a 12)
  | .v64MulWideI32 d a b => some (word3 0x48000015 d 19 a 12 b 5)
  | .v64MulWideN32 d a b => some (word3 0x48000016 d 19 a 12 b 5)
  | .vCmpEq p a b ty => some (word4 0x4c000000 p 23 a 16 b 9 (cmpTyCode ty) 4)
  | .vCmpNe p a b ty => some (word4 0x4c000040 p 23 a 16 b 9 (cmpTyCode ty) 4)
  | .vCmpLt p a b ty => some (word4 0x4c000080 p 23 a 16 b 9 (cmpTyCode ty) 4)
  | .vCmpLe p a b ty => some (word4 0x4c0000c0 p 23 a 16 b 9 (cmpTyCode ty) 4)
  | .vCmpGt p a b ty => some (word4 0x4c000100 p 23 a 16 b 9 (cmpTyCode ty) 4)
  | .vCmpGe p a b ty => some (word4 0x4c000140 p 23 a 16 b 9 (cmpTyCode ty) 4)
  | .vFcmpEq p a b f64 => some (word4 0x58000000 p 23 a 16 b 9 (boolBit f64) 4)
  | .vFcmpNe p a b f64 => some (word4 0x58000040 p 23 a 16 b 9 (boolBit f64) 4)
  | .vFcmpLt p a b f64 => some (word4 0x58000080 p 23 a 16 b 9 (boolBit f64) 4)
  | .vFcmpLe p a b f64 => some (word4 0x580000c0 p 23 a 16 b 9 (boolBit f64) 4)
  | .vFcmpGt p a b f64 => some (word4 0x58000100 p 23 a 16 b 9 (boolBit f64) 4)
  | .vFcmpGe p a b f64 => some (word4 0x58000140 p 23 a 16 b 9 (boolBit f64) 4)
  | .vFcmpNum p a b f64 => some (word4 0x58000180 p 23 a 16 b 9 (boolBit f64) 4)
  | .vFcmpNan p a b f64 => some (word4 0x580001c0 p 23 a 16 b 9 (boolBit f64) 4)
  | .vFaddF32 d a b => some (word3 0x50000000 d 19 a 12 b 5)
  | .vFsubF32 d a b => some (word3 0x50000001 d 19 a 12 b 5)
  | .vFmulF32 d a b => some (word3 0x50000002 d 19 a 12 b 5)
  | .vFmaF32 d a b => some (word3 0x50000003 d 19 a 12 b 5)
  | .vFminF32 d a b => some (word3 0x50000004 d 19 a 12 b 5)
  | .vFmaxF32 d a b => some (word3 0x50000005 d 19 a 12 b 5)
  | .vFabsF32 d a => some (word2 0x50000006 d 19 a 12)
  | .vFnegF32 d a => some (word2 0x50000007 d 19 a 12)
  | .vFaddF64 d a b => some (word3 0x54000000 d 19 a 12 b 5)
  | .vFsubF64 d a b => some (word3 0x54000001 d 19 a 12 b 5)
  | .vFmulF64 d a b => some (word3 0x54000002 d 19 a 12 b 5)
  | .vFmaF64 d a b => some (word3 0x54000003 d 19 a 12 b 5)
  | .vFminF64 d a b => some (word3 0x54000004 d 19 a 12 b 5)
  | .vFmaxF64 d a b => some (word3 0x54000005 d 19 a 12 b 5)
  | .vFabsF64 d a => some (word2 0x54000006 d 19 a 12)
  | .vFnegF64 d a => some (word2 0x54000007 d 19 a 12)
  | .vRcpF32 d a => some (word2 0x5c000000 d 19 a 12)
  | .vRsqF32 d a => some (word2 0x5c000001 d 19 a 12)
  | .vSqrtF32 d a => some (word2 0x5c000002 d 19 a 12)
  | .vExp2F32 d a => some (word2 0x5c000003 d 19 a 12)
  | .vLog2F32 d a => some (word2 0x5c000004 d 19 a 12)
  | .vSinF32 d a => some (word2 0x5c000005 d 19 a 12)
  | .vCosF32 d a => some (word2 0x5c000006 d 19 a 12)
  | .vRcpF64 d a => some (word2 0x60000000 d 19 a 12)
  | .vRsqF64 d a => some (word2 0x60000001 d 19 a 12)
  | .vSqrtF64 d a => some (word2 0x60000002 d 19 a 12)
  | .cvt d a dt st rm sat => some (word6 0x64000000 d 19 a 12 (numTyCode dt) 8 (numTyCode st) 4 (roundSelCode rm) 1 (boolBit sat) 0)
  | .vrot d a blk sg fmt => some (word5 0x68000000 d 19 a 12 (blkCode blk) 10 sg 7 (rotFmtCode fmt) 3)
  | .virot d a blk sg fmt => some (word5 0x68000040 d 19 a 12 (blkCode blk) 10 sg 7 (rotFmtCode fmt) 3)
  | .lxAt d a src imm sm => some (word5 0xa0000000 d 19 a 12 src 5 (boolBit imm) 4 sm 0)
  | .lxLo d a src imm sm => some (word5 0xa4000000 d 19 a 12 src 5 (boolBit imm) 4 sm 0)
  | .lxHi d a src imm sm => some (word5 0xa8000000 d 19 a 12 src 5 (boolBit imm) 4 sm 0)
  | .lxXor d a src imm sm => some (word5 0xac000000 d 19 a 12 src 5 (boolBit imm) 4 sm 0)
  | .pollEvery d a sm => some (word3 0xb0000000 d 19 a 12 sm 6)
  | .pollSome d a sm => some (word3 0xb0000001 d 19 a 12 sm 6)
  | .pollBits d a sm => some (word3 0xb0000002 d 19 a 12 sm 6)
  | .peersB32 d a sm => some (word3 0xb0000003 d 19 a 12 sm 6)
  | .peersB64 d a sm => some (word3 0xb0000004 d 19 a 12 sm 6)
  | .combAddI32 d a sm => some (word3 0xb0000008 d 19 a 12 sm 6)
  | .combMinI32 d a sm => some (word3 0xb0000009 d 19 a 12 sm 6)
  | .combMaxI32 d a sm => some (word3 0xb000000a d 19 a 12 sm 6)
  | .combMinN32 d a sm => some (word3 0xb000000b d 19 a 12 sm 6)
  | .combMaxN32 d a sm => some (word3 0xb000000c d 19 a 12 sm 6)
  | .combAndB32 d a sm => some (word3 0xb000000d d 19 a 12 sm 6)
  | .combOrB32 d a sm => some (word3 0xb000000e d 19 a 12 sm 6)
  | .combXorB32 d a sm => some (word3 0xb000000f d 19 a 12 sm 6)
  | .combAddF32 d a sm => some (word3 0xb0000010 d 19 a 12 sm 6)
  | .combMinF32 d a sm => some (word3 0xb0000011 d 19 a 12 sm 6)
  | .combMaxF32 d a sm => some (word3 0xb0000012 d 19 a 12 sm 6)
  | .sel d a b p => some (word4 0xb4000000 d 19 a 12 b 5 p 2)
  | .pand d a b => some (word3 0xb8000000 d 23 a 20 b 17)
  | .por d a b => some (word3 0xb8002000 d 23 a 20 b 17)
  | .pxor d a b => some (word3 0xb8004000 d 23 a 20 b 17)
  | .pandn d a b => some (word3 0xb8006000 d 23 a 20 b 17)
  | .pnot d a => some (word2 0xb8008000 d 23 a 20)
  | .pmov d a => some (word2 0xb800a000 d 23 a 20)
  | .pfrom d s => some (word2 0xb800c000 d 23 s 7)
  | .pto a s => some (word2 0xb800e000 a 20 s 7)
  | .ldG ty hint d a off => some (word5 0xc0000000 (memTyCode ty) 23 (hintCode hint) 21 d 14 a 7 (immBits 7 off) 0)
  | .stG ty hint d a off => some (word5 0xc4000000 (memTyCode ty) 23 (hintCode hint) 21 d 14 a 7 (immBits 7 off) 0)
  | .ldS ty d a off => some (word4 0xc8000000 (memTyCode ty) 23 d 14 a 7 (immBits 7 off) 0)
  | .stS ty d a off => some (word4 0xcc000000 (memTyCode ty) 23 d 14 a 7 (immBits 7 off) 0)
  | .atomLd d a ty scope ord pro => some (word6 0xd0000000 d 19 a 12 (atomTyCode ty) 6 (scopeCode scope) 4 (orderCode ord) 1 (boolBit pro) 0)
  | .atomSt d a ty scope ord pro => some (word6 0xd0000100 d 19 a 12 (atomTyCode ty) 6 (scopeCode scope) 4 (orderCode ord) 1 (boolBit pro) 0)
  | .atomExch d a ty scope ord pro => some (word6 0xd0000200 d 19 a 12 (atomTyCode ty) 6 (scopeCode scope) 4 (orderCode ord) 1 (boolBit pro) 0)
  | .atomCas d a ty scope ord pro => some (word6 0xd0000300 d 19 a 12 (atomTyCode ty) 6 (scopeCode scope) 4 (orderCode ord) 1 (boolBit pro) 0)
  | .atomAdd d a ty scope ord pro => some (word6 0xd0000400 d 19 a 12 (atomTyCode ty) 6 (scopeCode scope) 4 (orderCode ord) 1 (boolBit pro) 0)
  | .atomMin d a ty scope ord pro => some (word6 0xd0000500 d 19 a 12 (atomTyCode ty) 6 (scopeCode scope) 4 (orderCode ord) 1 (boolBit pro) 0)
  | .atomMax d a ty scope ord pro => some (word6 0xd0000600 d 19 a 12 (atomTyCode ty) 6 (scopeCode scope) 4 (orderCode ord) 1 (boolBit pro) 0)
  | .atomAnd d a ty scope ord pro => some (word6 0xd0000700 d 19 a 12 (atomTyCode ty) 6 (scopeCode scope) 4 (orderCode ord) 1 (boolBit pro) 0)
  | .atomOr d a ty scope ord pro => some (word6 0xd0000800 d 19 a 12 (atomTyCode ty) 6 (scopeCode scope) 4 (orderCode ord) 1 (boolBit pro) 0)
  | .atomSLd d a ty ord => some (word4 0xd4000000 d 19 a 12 (atomTyCode ty) 6 (orderCode ord) 1)
  | .atomSSt d a ty ord => some (word4 0xd4000100 d 19 a 12 (atomTyCode ty) 6 (orderCode ord) 1)
  | .atomSExch d a ty ord => some (word4 0xd4000200 d 19 a 12 (atomTyCode ty) 6 (orderCode ord) 1)
  | .atomSCas d a ty ord => some (word4 0xd4000300 d 19 a 12 (atomTyCode ty) 6 (orderCode ord) 1)
  | .atomSAdd d a ty ord => some (word4 0xd4000400 d 19 a 12 (atomTyCode ty) 6 (orderCode ord) 1)
  | .atomSMin d a ty ord => some (word4 0xd4000500 d 19 a 12 (atomTyCode ty) 6 (orderCode ord) 1)
  | .atomSMax d a ty ord => some (word4 0xd4000600 d 19 a 12 (atomTyCode ty) 6 (orderCode ord) 1)
  | .atomSAnd d a ty ord => some (word4 0xd4000700 d 19 a 12 (atomTyCode ty) 6 (orderCode ord) 1)
  | .atomSOr d a ty ord => some (word4 0xd4000800 d 19 a 12 (atomTyCode ty) 6 (orderCode ord) 1)
  | .fence scope ord pro => some (word3 0xd8000000 (scopeCode scope) 10 (orderCode ord) 7 (boolBit pro) 6)
  | .cctlInv a scope => some (word2 0xd8000001 a 12 (scopeCode scope) 10)
  | .cctlWb a scope => some (word2 0xd8000002 a 12 (scopeCode scope) 10)
  | .cctlWbinv a scope => some (word2 0xd8000003 a 12 (scopeCode scope) 10)
  | .prefetch a scope => some (word2 0xd8000004 a 12 (scopeCode scope) 10)
  | .waitmon a => some (word1 0xd8000005 a 12)
  | .waitge d a sp => some (word3 0xd8000006 d 19 a 12 (boolBit sp) 5)
  | .tmld kn d a => some (word3 0xe0000000 kn 23 d 17 a 11)
  | .tmset d a b => some (word3 0xe0000001 d 17 a 11 b 5)
  | .cpy kn d => some (word2 0xe0000002 kn 23 d 17)
  | .cpym kn d => some (word2 0xe0000003 kn 23 d 17)
  | .sgset d a => some (word2 0xe0000004 d 17 a 11)
  | .rot kn d => some (word2 0xe4000000 kn 23 d 17)
  | .irot kn d => some (word2 0xe4000001 kn 23 d 17)
  | .mma kn d => some (word2 0xe8000000 kn 23 d 17)
  | .accLd kn d => some (word2 0xe8000001 kn 23 d 17)
  | .accSt kn d => some (word2 0xe8000002 kn 23 d 17)
  | .accZero d => some (word1 0xe8000003 d 17)
  | .bswap d => some (word1 0xe8000004 d 17)
  | .layerF kn d => some (word2 0xec000000 kn 23 d 17)
  | .layerT kn d => some (word2 0xec000001 kn 23 d 17)
  | .layerP kn d => some (word2 0xec000002 kn 23 d 17)
  | .apush kn d a => some (word3 0xec000003 kn 23 d 17 a 11)
  | .apop kn d a => some (word3 0xec000004 kn 23 d 17 a 11)
  | .reelSmax kn d => some (word2 0xf0000000 kn 23 d 17)
  | .reelNorm kn d => some (word2 0xf0000001 kn 23 d 17)
  | .reelDsmax kn d => some (word2 0xf0000002 kn 23 d 17)
  | .reelDnorm kn d => some (word2 0xf0000003 kn 23 d 17)
  | .reelStat kn d => some (word2 0xf0000004 kn 23 d 17)
  | .reelClr kn d => some (word2 0xf0000005 kn 23 d 17)
  | .pimx kn d => some (word2 0xf4000000 kn 23 d 17)
  | .pimld kn d a => some (word3 0xf4000001 kn 23 d 17 a 11)
  | .mark kn => some (word1 0xf4000002 kn 23)
  | .pimwait => some (word0 0xf4000003)
  | .trap n => some (word1 0xf8000000 n 0)
  | .eret => some (word0 0xf8400000)
  | .hostcall a c => some (word2 0xf8800000 a 9 c 0)
  | .getsr d r => some (word2 0xf8c00000 d 15 r 0)
  | .setsr a r => some (word2 0xf9000000 a 9 r 0)
  | .sleep n => some (word1 0xf9400000 n 0)
  | .clauseStart => none
  | .regroupRendezvous _ => none
  | .sleepExpire _ _ => none
  | .waitmonWake _ _ => none
  | .waitmonTimeout _ _ => none
  | .waitgeReread _ _ => none
  | .returnStackSpill _ _ _ => none
  | .launchRecordTake _ _ => none
  | .dependenceCheck _ => none
  | .dispatchDecision => none
  | .teamEnd _ => none
  | .loadComplete _ _ _ => none
  | .storeComplete _ _ => none
  | .atomicComplete _ _ => none
  | .gatherBufferDrain _ _ => none
  | .pageWalk _ _ _ => none
  | .homeGets _ _ => none
  | .homeGetm _ _ => none
  | .homeUpg _ _ => none
  | .homePute _ _ => none
  | .homePutm _ _ => none
  | .homePuto _ _ => none
  | .homeMemoryData _ => none
  | .homeInvalidationAck _ _ => none
  | .homeForwardConfirm _ _ => none
  | .l2Invalidation _ _ => none
  | .l2ForwardedRequest _ _ => none
  | .l2Grant _ _ => none
  | .promotionDrain _ _ => none
  | .drainAck _ _ => none
  | .directoryEntryDrop _ => none
  | .tmldComplete _ _ => none
  | .copyBeat _ => none
  | .copyBucketTick => none
  | .cpyComplete _ => none
  | .cpymBeatArrival _ _ => none
  | .cpymComplete _ => none
  | .tensorOpComplete _ _ => none
  | .tileEvaluation _ _ _ => none
  | .stackCopyComplete _ => none
  | .pimldComplete _ _ => none
  | .pimCommandStart _ => none
  | .bpRow _ => none
  | .bpFillRow _ => none
  | .pimBlockComplete _ => none
  | .ordinaryBankRequest _ => none
  | .bpYieldWindowExpire _ => none
  | .markComplete _ => none
  | .eventRecordEnter _ _ => none
  | .eventQueueRetry _ => none
  | .eventFrameSend _ => none
  | .preemptSave _ => none
  | .preemptCancel _ => none
  | .teamRestore _ _ => none
  | .watchdogExpire _ => none
  | .pavaneBatchStart _ => none
  | .pavaneBatchComplete _ => none
  | .revokeComplete _ => none
  | .tileProgrammed _ _ => none
  | .regionVerifyComplete _ => none
  | .scrubComplete _ => none
  | .logWindowClose _ => none
  | .healthWindowAge _ _ => none
  | .openSession _ _ _ _ _ _ => none
  | .attest _ _ _ _ => none
  | .releaseSecret _ _ _ _ _ _ _ _ _ => none
  | .write _ _ _ => none
  | .read _ _ _ _ => none
  | .kick _ _ _ => none
  | .closeSession _ => none
  | .frameDiscard _ => none
  | .neighborSolicitation _ => none
  | .worldCreate _ _ _ _ _ => none
  | .worldDestroy _ _ => none
  | .s2rootSet _ _ _ => none
  | .pageAssign _ _ _ _ => none
  | .pageShare _ _ => none
  | .pageRelease _ _ => none
  | .cacheallotSet _ _ _ => none
  | .logSet _ _ _ _ _ => none
  | .s1rootSet _ _ => none
  | .tlbInv _ _ _ _ _ _ => none
  | .ctxSet _ _ _ => none
  | .regionStage _ _ _ _ _ _ => none
  | .regionProgram _ _ _ _ _ => none
  | .regionFree _ _ => none
  | .handleSet _ _ _ _ _ => none
  | .columnSet _ _ _ _ => none
  | .pavaneSet _ _ _ => none
  | .regionRead _ _ _ _ _ => none
  | .resume _ _ _ _ _ => none
  | .opResume _ _ _ => none
  | .opAbandon _ _ _ => none
  | .teamAbort _ _ _ _ _ => none
  | .launchAbort _ _ _ _ => none
  | .preempt _ _ _ _ _ _ => none
  | .receipt _ _ _ => none
  | .checkpoint _ _ _ => none
  | .measlogRead _ => none
  | .addrSet _ _ => none
  | .credSet _ _ _ => none
  | .occRead _ _ _ _ _ => none
  | .softerrRead _ => none
  | .powerSet _ _ => none
  | .regRead _ _ _ => none
  | .regWrite _ _ _ _ => none
  | .xallotWrite _ _ _ => none
  | .cpybwWrite _ _ _ => none
  | .moduleReset _ => none
  | .powerSample _ => none
  | .powerControlDecision _ => none
  | .thermalTrip _ => none
  | .supplyUndervoltage _ => none
  | .unassignedWord => none
  | .unknownTypeOrCommandCode _ _ _ => none
  | .duplicateAddressDetection _ _ => none

/-- The instruction the decoder reads from an instruction word given as the opcode table numbers its bits. -/
noncomputable def decodeTableWord (nbits w : Nat) : Option Instr :=
  if nbits ≤ 32 then
    match decodeWord (w % 2 ^ 32) with
    | .ok i => some i
    | .error _ => none
  else none

end Sys2Proof
end

