-- ==== Sys2Proof/Machine/State.lean ====
section
/-! DEFINITION. The state of the module as plain data, the reasons a step can stop, and the state after reset. -/

namespace Sys2Proof.Machine

/-- Why the machine stops. The device's own faults (R349) are no stops: they suspend a warp or finish an operation
and are posted as records. -/
inductive Fault where
  /-- Raised by an instruction meaning applied to a state in which no resident, running warp is selected: the
  scheduler selects a warp before it issues, so `step` never reaches it. Safe. -/
  | noWarp
  deriving DecidableEq, Repr, Inhabited

/-- Why an instruction has no meaning. -/
inductive Refusal where
  /-- Raised by a dispatch arm that has no meaning yet, by mnemonic. Safe. -/
  | notModelled (mnemonic : String)
  deriving DecidableEq, Repr, Inhabited

/-- The device's fault codes (R349). -/
inductive FaultCode where
  | illegal | clause | align | page | perm | owner | scratch | tag | region | staleGen | mask | divStack
  | callStack | actStack | capacity | integrity | uncorr | residue | matrixCheck | pimXlate | trap | watchdog | abort
  deriving DecidableEq, Repr, Inhabited

/-- CODE of a fault record (R349). -/
def FaultCode.code : FaultCode → Nat
  | .illegal => 0x01 | .clause => 0x02 | .align => 0x03 | .page => 0x04 | .perm => 0x05 | .owner => 0x06
  | .scratch => 0x07 | .tag => 0x08 | .region => 0x09 | .staleGen => 0x0A | .mask => 0x0B | .divStack => 0x0C
  | .callStack => 0x0D | .actStack => 0x0E | .capacity => 0x0F | .integrity => 0x10 | .uncorr => 0x11
  | .residue => 0x12 | .matrixCheck => 0x13 | .pimXlate => 0x14 | .trap => 0x15 | .watchdog => 0x16 | .abort => 0x17

/-- An entry of a warp's reconvergence stack (R49). -/
structure Reconv where
  join : DWord
  mask : LaneMask
  pend : LaneMask
  tgt : DWord
  phase : Bool
  deriving DecidableEq, Repr, Inhabited

/-- A warp's rendezvous record (R168): the parked word's place and instruction, the parked lanes, the mask. -/
structure Park where
  hdr : DWord
  idx : Nat
  clause : Header
  instr : Instr
  lanes : LaneMask
  mask : LaneMask
  deriving DecidableEq, Repr, Inhabited

/-- A poison mark on one lane of a vector register (R181): the load's PC, the affected address, the data fault. -/
structure Poison where
  hdr : DWord
  idx : Nat
  addr : Nat
  fault : DataFault
  deriving DecidableEq, Repr, Inhabited

/-- What a warp does. -/
inductive WStatus where
  /-- Issues when it is ready (R48). -/
  | running
  /-- No live lane remains (R51, R148). -/
  | exited
  /-- Waits at a `br.rg` (R52): predicate, taken target, fall-through. -/
  | regroup (p : Nat) (tgt ft : DWord)
  /-- Blocked at `bhold` on a barrier (R55). -/
  | bhold (bar : Nat)
  /-- Blocked at `barg` (R56). -/
  | barg
  /-- Blocked at `waitmon` (R195). -/
  | waitmon
  /-- Blocked at `waitge` (R196). -/
  | waitge (d a : Nat) (sp : Bool)
  /-- Blocked in `sleep` (R178). -/
  | sleeping
  /-- Suspended by a fault (R350): SOURCE and SEQ of its record, whether the fault is charged to the clause header,
  whether it is F_TRAP. -/
  | suspended (source seq : Nat) (atHeader isTrap : Bool)
  deriving DecidableEq, Repr, Inhabited

/-- One warp of a team (R32, R360): registers, control state, counters. -/
structure Warp where
  /-- Warp slot of the core, 0 to 63 (R46). -/
  slot : Nat
  /-- s0 to s62; s63 reads zero (R7). -/
  sregs : Sparse Word
  /-- v registers, keyed by `register × 32 + lane`. -/
  vregs : Sparse Word
  /-- p0 to p6 as one bit per lane; p7 reads 1. -/
  preds : Sparse LaneMask
  poison : KMap Poison
  active : LaneMask
  live : LaneMask
  /-- PC: header address and index within the clause (R71). -/
  hdr : DWord
  idx : Nat
  /-- The header of the clause being run, once it has been checked and its waits are met (R66, R67). -/
  clause : Option Header
  /-- Reconvergence stack, newest first (R49). -/
  stack : List Reconv
  /-- Return-stack entries held on the core, newest first (R147). -/
  rstack : List DWord
  /-- Return-stack entries in the spill area. -/
  rspill : Nat
  cntL : Nat
  cntS : Nat
  cntC : Nat
  cntT : Nat
  /-- k0 to k7 (R150). -/
  tokens : Sparse Nat
  fpmode : Word
  fpstat : Flags
  repcnt : Word
  tprog : DWord
  intrap : Bool
  park : Option Park
  /-- Arrival records (R55): barrier, and whether the phase arrived in has completed. -/
  arrivals : KMap Bool
  status : WStatus
  /-- Skip count (R48). -/
  skip : Nat
  /-- Order of dispatch to the scheduler (R48). -/
  age : Nat
  /-- The scope of its last release fence, which its later atomic writes release at (R220). -/
  fenced : Option Scope
  /-- The picker passes over the warp at the next opportunity (R67, R149). -/
  yielded : Bool
  /-- The PC is at a `rep` of which a repeat has issued and another is to come (R152). -/
  inRep : Bool
  /-- Physical lines with an armed monitor (R195). -/
  monitors : List Nat
  /-- Lines on which the warp performed a device- or system-scope atomic, and whether another agent has written
  them at the home since (R195). -/
  watched : KMap Bool
  deriving DecidableEq, Repr, Inhabited

/-- A named barrier (R54). -/
structure Barrier where
  phase : Bool
  a : Nat
  e : Option Nat
  deriving DecidableEq, Repr, Inhabited

/-- An accumulator tile (R248): KIND and 4,096 elements of 64 bits. -/
structure Tile where
  kind : Bool
  elems : Sparse DWord
  deriving DecidableEq, Repr, Inhabited

/-- A B bank (R252). Elements are keyed by `k × 64 + j` and hold the bits of the bank's type. -/
structure Bank where
  loaded : Bool
  k : Nat
  n : Nat
  ty : Nat
  tag : Nat
  gen : Nat
  elems : Sparse Nat
  deriving DecidableEq, Repr, Inhabited

/-- The banks that go with a team's context (R252). -/
structure Banks where
  actb : Nat
  bank0 : Bank
  bank1 : Bank
  deriving DecidableEq, Repr, Inhabited

/-- The team's near-bank microprogram (R304). -/
structure Microprogram where
  valid : Bool
  words : List Word
  deriving DecidableEq, Repr, Inhabited

/-- A command on a saved team's work that takes effect at its restore (R361). -/
inductive Deferred where
  | resume (source seq : Nat) (skip : Bool)
  | opResume (rid : Nat)
  | opAbandon (rid : Nat)
  deriving DecidableEq, Repr, Inhabited

/-- What a warp may still see an older value of: ASBASE, ASLIMIT or ASTOP (0, 1, 2) of the team (R176), a seed of the world
(R138), `n` bytes of a tensor-map slot from an offset (R201). -/
inductive OldWhat where
  | stack (r : Nat)
  | seed (k : Nat)
  | field (slot off n : Nat)
  deriving DecidableEq, Repr, Inhabited

/-- An older value that a write by a warp, named by team and index, left, which a warp of this team not ordered after the write may
still see (R138, R176, R201): the team's warps ordered after it, the barriers at which one of these has arrived since in a
phase not complete, and, by barrier, the warps that a completed phase orders after it once they pass `bhold`. -/
structure OldValue where
  what : OldWhat
  writer : Nat × Nat
  value : DWord
  known : List Nat
  signal : List Nat
  due : List (Nat × Nat)
  deriving DecidableEq, Repr, Inhabited

/-- Where a team stands. -/
inductive TeamPlace where
  /-- Resident on its core. -/
  | resident
  /-- Saved in its context area (R361). -/
  | saved
  deriving DecidableEq, Repr, Inhabited

/-- A dispatched team (R33, R39, R41). -/
structure Team where
  uid : Nat
  world : Nat
  launch : Nat
  teamId : Nat
  core : Nat
  /-- Team entry of the core, 0 to 15. -/
  entry : Nat
  /-- Vector registers per thread, t' (R39). -/
  nregs : Nat
  /-- Accumulator tiles, ACC. -/
  acc : Nat
  /-- Scratchpad bytes, SCRATCH. -/
  scratchSize : Nat
  /-- BARS and DIVD the team was dispatched under (R61). -/
  barsMax : Nat
  divd : Nat
  prio : Nat
  coop : Bool
  /-- Order of dispatch (R359). -/
  order : Nat
  place : TeamPlace
  scratch : Sparse Byte
  /-- Scratchpad generation (R338). -/
  gen : Nat
  bars : KMap Barrier
  /-- Tensor-map slots, keyed by `slot × 128 + byte`; never loaded slots hold zeros (R199). -/
  slots : Sparse Byte
  /-- Slots whose `tmld` met a data fault (R200). -/
  slotFaults : KMap Poison
  tiles : KMap Tile
  /-- Reel entries S1 and S2 as FP64 bits, keyed by `2 × entry` and `2 × entry + 1` (R269). -/
  reel : Sparse DWord
  asbase : DWord
  aslimit : DWord
  astop : DWord
  /-- Older values that warps not ordered after a `setsr`, `tmset` or `sgset` may see (R138, R176, R201). -/
  old : List OldValue
  uprog : Option Microprogram
  /-- Context area: base VA and length (R360). -/
  ctxBase : Nat
  ctxLen : Nat
  /-- SHA3-256 of the area at the last save (R360). -/
  ctxDigest : List Byte
  /-- The banks saved with the context, if the team held them. -/
  savedBanks : Option Banks
  /-- A pre-emption has been requested (R361). -/
  preempting : Bool
  /-- A restore of the saved team raised F_CAPACITY, and no XALLOT write has been accepted since (R362). -/
  capFailed : Bool
  /-- Commands that arrived while the team was saved (R361), performed at its restore. -/
  deferred : List Deferred
  /-- Warps j in ascending order; WARPID is the position (R46). -/
  warps : List Warp
  deriving DecidableEq, Repr, Inhabited

/-- Element formats of tensor maps (R197). -/
inductive ElemFmt where
  | i8 | i16 | i32 | i64 | n8 | n16 | n32 | n64 | bf16 | f32 | f64 | nq4
  deriving DecidableEq, Repr, Inhabited

/-- A tensor map read from a slot at issue (R197). `base` is the slot of the pair in use (R198, R265). -/
structure TMap where
  slot : Nat
  base : Nat
  fmt : ElemFmt
  rank : Nat
  scratch : Bool
  bcast : Nat
  tag : Nat
  dims : List Nat
  strides : List Nat
  wrap : Nat
  alt : Nat
  gen0 : Nat
  gen1 : Nat
  pair : Nat
  deriving DecidableEq, Repr, Inhabited

/-- The operations of the atomics (R90). -/
inductive AtomOp where
  | ld | st | exch | cas | add | min | max | band | bor
  deriving DecidableEq, Repr, Inhabited

/-- One lane's share of an outstanding access, of 8 bytes at most (R187): the lane and which 8 bytes of its access, the
address as the program names it, the physical address (or the scratchpad offset), and the values it carries. -/
structure LaneAcc where
  lane : Nat
  part : Nat
  va : Nat
  pa : Nat
  op1 : Nat
  op2 : Nat
  deriving DecidableEq, Repr, Inhabited

/-- How far a `cpym` target has come (R208). -/
inductive TgtState where
  | waiting | registered | dropped | done
  deriving DecidableEq, Repr, Inhabited

/-- A target of a `cpym` (R208). -/
structure CopyTgt where
  team : Nat
  core : Nat
  gen : Nat
  state : TgtState
  /-- Elements that have arrived. -/
  got : Nat
  bytes : Nat
  writes : List (Nat × Nat)
  /-- Registration number at the target's scoreboard (R205, R225). -/
  reg : Nat
  deriving DecidableEq, Repr, Inhabited

/-- A copy (R203 to R209). -/
structure Copy where
  multi : Bool
  src : TMap
  dst : TMap
  box : List Nat
  sorg : List Nat
  dorg : List Nat
  baren : Bool
  awen : Bool
  awsp : Bool
  bar : Nat
  awaddr : Nat
  /-- Physical address of a global arrival word. -/
  awpa : Nat
  /-- The next element to move (R206), and the beats of an NQ4 record already granted for it. -/
  next : Nat
  part : Nat
  /-- Elements of a `cpym` moved and not yet written at every target, with their bytes. -/
  flight : KMap (List Byte)
  bytes : Nat
  status : Nat
  smask : Nat
  targets : List CopyTgt
  deriving DecidableEq, Repr, Inhabited

/-- The operations of the tensor engines (R238). -/
inductive TensorKind where
  | rot | irot | mma | accLd | accSt | layerF | layerT | layerP
  | smax | norm | dsmax | dnorm | stat | clr
  /-- The place of an `acc.zero` in its tiles' order (R249). -/
  | zero
  deriving DecidableEq, Repr, Inhabited

/-- A column of a region (R279): CS, G, O as FP32 bits and CFLAGS. -/
structure Column where
  cs : Nat
  g : Nat
  o : Nat
  cflags : Nat
  deriving DecidableEq, Repr, Inhabited

/-- What a layer instruction holds of its region from its issue check on (R261, R290). -/
structure LayerHold where
  region : Nat
  gen : Nat
  k : Nat
  n : Nat
  rotk : Nat
  rotn : Nat
  seedk : Nat
  seedn : Nat
  ec : Nat
  ej : Nat
  cols : List Column
  /-- ADC codes delivered, keyed by `(vector × 65536 + tile) × 1024 + line` (R283). -/
  codes : Sparse Int
  /-- Tile evaluations done, as `vector × 65536 + tile`. -/
  evaluated : List Nat
  /-- Input elements of the vectors read so far. -/
  inputs : KMap (List Nat)
  /-- Vectors of which a code has been clamped (R283, R284). -/
  clamped : List Nat
  chkmis : Nat
  /-- A packet of the operation on a link with an AD has failed (R333). -/
  linkFault : Bool
  deriving DecidableEq, Repr, Inhabited

/-- A write of an operation: space, address, bytes. -/
abbrev MemWrite := Bool × Nat × List Byte

/-- Destination elements with their new values: memory, tiles by tile and position, the B bank, Reel entries; then
the flags and the device-written fields of the block. -/
structure Effect where
  mem : List MemWrite := []
  tiles : List (Nat × Nat × DWord) := []
  bank : List (Nat × Nat) := []
  reel : List (Nat × DWord) := []
  flags : Flags := 0
  block : List (Nat × List Byte) := []
  deriving DecidableEq, Repr, Inhabited

/-- What an operation whose read phase has been performed has still to write (R225, R242): its effect, whether each destination
element may keep its old value, STATUS, and the fault that stopped it with its address. -/
structure TensorResult where
  effect : Effect
  open' : Bool
  status : Nat
  fault : Option (FaultCode × Nat)
  deriving DecidableEq, Repr, Inhabited

/-- A tensor, matrix, layer or Reel operation: its parameter block, the maps, seeds and tags read at issue. -/
structure Tensor where
  kind : TensorKind
  blk : List Byte
  maps : KMap TMap
  /-- Physical pages of the operands' virtual pages, as checked at issue (R240). -/
  pages : KMap Nat
  /-- The world's seed registers at issue (R138). -/
  sg : Sparse Word
  /-- KIND of the tiles read, as of the operation's place in their order (R248). -/
  kinds : List Bool
  /-- The bank a MUL reads or a LOADB writes. -/
  bank : Nat
  /-- Old ASTOP of a `layer.f` with PUSH and the generations of the adapter slots used (R267). -/
  astop : Nat
  gena : Nat
  genb : Nat
  layer : Option LayerHold
  /-- What it computed, once its read phase has been performed. -/
  result : Option TensorResult
  deriving DecidableEq, Repr, Inhabited

/-- `apush` and `apop` (R268). -/
structure StackCopy where
  push : Bool
  map : TMap
  stack : Nat
  pages : KMap Nat
  bytes : Nat
  next : Nat
  deriving DecidableEq, Repr, Inhabited

/-- A command of a block (R306). -/
structure PimCmd where
  fill : Bool
  nrows : Nat
  pat : Nat
  gpa : Nat
  deriving DecidableEq, Repr, Inhabited

/-- A command block in the hub's near-bank queue (R307 to R310). -/
structure PimBlock where
  cmds : List PimCmd
  prog : Option Microprogram
  baren : Bool
  bar : Nat
  cmd : Nat
  /-- Physical pages of the current command's rows, once translated (R308). -/
  pages : Option (List Nat)
  /-- The next row of the command to dispatch, the dispatched rows not yet run with their places in the hub's dispatch
  order (R312), and the residue faults found, by row, as field and element (R309). -/
  row : Nat
  pend : List (Nat × Nat)
  faults : KMap (Nat × Nat)
  acc : List Word
  /-- Each BP's accumulators not yet added into the sums (R300), by BP number. -/
  bpAcc : KMap (List Word)
  stopped : Bool
  status : Nat
  deriving DecidableEq, Repr, Inhabited

/-- What an outstanding operation does when it is performed. -/
inductive OpKind where
  | load (sp : Bool) (ty : MemTy) (hint : Hint) (d : Nat) (lanes : List LaneAcc)
  | store (sp : Bool) (ty : MemTy) (hint : Hint) (lanes : List LaneAcc)
  | atomic (sp : Bool) (aop : AtomOp) (ty : AtomTy) (scope : Scope) (ord : Order) (pro : Bool) (d : Nat)
      (lanes : List LaneAcc)
  | tmld (slot : Nat) (va pa : Nat)
  | copy (c : Copy)
  | tensor (t : Tensor)
  | stackCopy (c : StackCopy)
  | pimld (va : Nat) (words : Nat) (pas : List Nat)
  | pimx (b : PimBlock)
  | mark (before : List Nat)
  deriving DecidableEq, Repr, Inhabited

/-- An asynchronous operation in flight. Numbers rise in issue order. -/
structure Op where
  id : Nat
  world : Nat
  core : Nat
  team : Nat
  warp : Nat
  hdr : DWord
  idx : Nat
  kn : Option Nat
  ctr : Option Ctr
  /-- Address of the parameter block, command block or microprogram, and the physical address of its first byte. -/
  opaddr : Nat
  blkpa : Nat
  kind : OpKind
  /-- Scoreboard intervals in granules, and whether each phase has retired (R185, R225). -/
  reads : List (Nat × Nat)
  writes : List (Nat × Nat)
  readDone : Bool
  writeDone : Bool
  tiles : List Nat
  /-- The ticket of an `.sc` atomic that has taken it (R224), and the scope of the release fence before the operation
  (R220). -/
  ticket : Option Nat
  fenced : Option Scope
  /-- Parked (R353): the RID, or 0 while no number is free; the RID the operation keeps once it has one; the fault a waiting
  record carries; whether TPROG of the warp names the operation (R355). -/
  parked : Option Nat
  rid : Option Nat
  trouble : Option (FaultCode × Nat)
  inTprog : Bool
  paused : Bool
  deriving DecidableEq, Repr, Inhabited

/-- States of a launch (R36, R382). -/
inductive LaunchState where
  | waiting | ready | dispatching | dispatched | ended
  deriving DecidableEq, Repr, Inhabited

/-- A taken launch record (R38). -/
structure Launch where
  uid : Nat
  world : Nat
  queue : Nat
  record : Nat
  entry : Nat
  gx : Nat
  gy : Nat
  gz : Nat
  tx : Nat
  ty : Nat
  tz : Nat
  regs : Nat
  acc : Nat
  ndep : Nat
  evt : Bool
  coop : Bool
  prio : Nat
  scratch : Nat
  args : Nat
  cword : Nat
  done : Nat
  deps : List (Nat × Nat)
  state : LaunchState
  /-- Dependences already met. -/
  met : List Nat
  /-- Teams dispatched and teams ended. -/
  sent : Nat
  ended : Nat
  aborted : Bool
  /-- The next number of a launch or team at its dispatch (R74). -/
  start : Nat
  /-- Clusters in the order their last warp executed `barg` in this phase (R57). -/
  bargOrder : List Nat
  deriving DecidableEq, Repr, Inhabited

/-- A launch queue as the dispatcher keeps it (R35). -/
structure Queue where
  stopped : Bool
  deriving DecidableEq, Repr, Inhabited

/-- Coalesced accesses of one agent in one window (R342): AGENT, OP bit number, watch entry, hub time, bytes, lowest
granule or handle, and whether there was more than one. -/
structure LogPend where
  agent : Nat
  op : Nat
  entry : Nat
  time : Nat
  bytes : Nat
  gran : Nat
  coal : Bool
  deriving DecidableEq, Repr, Inhabited

/-- A watch configuration and header of a range access log (R341 to R343). -/
structure AccessLog where
  base : Nat
  size : Nat
  watch : List WatchEntry
  written : Nat
  lost : Nat
  chain : List Byte
  /-- The open window's accesses, oldest first. -/
  pend : List LogPend
  /-- Records since the last chain update. -/
  recent : List (List Byte)
  deriving DecidableEq, Repr, Inhabited

/-- World states (R317). -/
inductive WorldState where
  | free | active | destroying
  deriving DecidableEq, Repr, Inhabited

/-- A world's keys (R332): KNET, the two keys of KXTS, KMAC, of 256 bits each. -/
structure WorldKeys where
  knet : List Byte
  kxts1 : List Byte
  kxts2 : List Byte
  kmac : List Byte
  deriving DecidableEq, Repr, Inhabited

/-- A world (R317, R318). -/
structure World where
  state : WorldState
  pimok : Bool
  qtable : Nat
  evq : Nat
  s1root : Nat
  s2root : Nat
  xallot : DWord
  cpybw : DWord
  cacheallot : DWord
  wdctl : Word
  trapvec : DWord
  sg : Sparse Word
  handles : Sparse Word
  hcount : Nat
  /-- Deficit D_w and the round-robin position of R42 and R43. -/
  deficit : Int
  nextQueue : Nat
  queues : KMap Queue
  evTail : Nat
  /-- The queue's header has still to be written with TAIL and HEAD zero (R318, R373). -/
  evInit : Bool
  ctxBase : Nat
  ctxLen : Nat
  receiptH : List Byte
  receiptN : Nat
  receiptCounts : List Nat
  log : AccessLog
  credential : Option (List Byte)
  /-- The keys drawn at its creation, until they are erased (R332). -/
  keys : Option WorldKeys
  deriving DecidableEq, Repr, Inhabited

/-- A copy-bandwidth account of a world on a cluster (R211). -/
structure CopyAccount where
  bucket : Nat
  debt : Nat
  deficit : Nat
  deriving DecidableEq, Repr, Inhabited

/-- A line held in a core's L1, in a way of its set (R14, R215). Lists keep the most recently used first. -/
structure L1Line where
  core : Nat
  line : Nat
  way : Nat
  world : Nat
  hint : Hint
  data : List Byte
  deriving DecidableEq, Repr, Inhabited

/-- MOESI states of an L2 line (R232). -/
inductive Moesi where
  | m | o | e | s
  deriving DecidableEq, Repr, Inhabited

/-- A line held in a cluster's L2, in a way of its set (R20, R330). Lists keep the most recently used first. -/
structure L2Line where
  cluster : Nat
  line : Nat
  way : Nat
  world : Nat
  hint : Hint
  state : Moesi
  deriving DecidableEq, Repr, Inhabited

/-- A line held in the LLC, and whether memory has still to get its data (R193, R235). -/
structure LlcLine where
  line : Nat
  way : Nat
  world : Nat
  hint : Hint
  dirty : Bool
  deriving DecidableEq, Repr, Inhabited

/-- The store that a gathered byte comes from (R383): its team, warp and PC, and the address of the byte. -/
structure Origin where
  team : Nat
  teamId : Nat
  warp : Nat
  core : Nat
  hdr : DWord
  idx : Nat
  va : Nat
  deriving DecidableEq, Repr, Inhabited

/-- A byte in a cluster's store-gathering buffer, with the bytes gathered in its slice since (R216), whether its store
wrote every byte of the line in one access (R181), and that store. -/
structure Gathered where
  cluster : Nat
  world : Nat
  addr : Nat
  val : Byte
  later : Nat
  whole : Bool
  origin : Origin
  deriving DecidableEq, Repr, Inhabited

/-- Stable states of a directory entry (R232). -/
inductive DirState where
  | i | s | x | o
  deriving DecidableEq, Repr, Inhabited

/-- Transient states of a directory entry (R233): the requester and whether it asked to write. -/
inductive DirBusy where
  | idle
  | id (req : Nat) (write : Bool)
  | sa (req : Nat) (data : Bool) (acks : List Nat)
  | fd (req : Nat) (write : Bool) (owner : Nat)
  deriving DecidableEq, Repr, Inhabited

/-- Coherence messages between an L2 and a home (R232 to R235). -/
inductive CohKind where
  | getS | getM | upg | putE | putM | putO
  | inv | invAck | fwd (write : Bool) (dest : Nat) | confirm (wasE : Bool)
  | grant (st : Moesi) (data : Bool)
  deriving DecidableEq, Repr, Inhabited

/-- A coherence message in flight: the line, the cluster it comes from or goes to, its world, and the hint of the access
that asks or is answered (R188). -/
structure CohMsg where
  kind : CohKind
  line : Nat
  cluster : Nat
  world : Nat
  hint : Hint
  deriving DecidableEq, Repr, Inhabited

/-- A line's directory entry at its home (R223, R232). -/
structure DirEntry where
  state : DirState
  owner : Nat
  sharers : List Nat
  lrc : Nat
  lrs : Option Scope
  world : Nat
  busy : DirBusy
  /-- The drain of the line's last release that has been requested and not acknowledged, by its number (R223). -/
  draining : Option Nat
  /-- Requests that arrived while the line was in a transient state, in their order of arrival (R233), and the hint of the
  one being served. -/
  queue : List CohMsg
  hint : Hint
  deriving DecidableEq, Repr, Inhabited

/-- A drain request or acknowledgement in flight (R223): for a line's promoted acquire or a promoted fence. -/
structure DrainMsg where
  no : Nat
  world : Nat
  cluster : Nat
  line : Option Nat
  /-- The warp whose promoted fence waits, or the promoted atomic. -/
  who : Option (Nat × Nat)
  op : Option Nat
  acked : Bool
  deriving DecidableEq, Repr, Inhabited

/-- A translation held in a TLB (R326): core's L1 or cluster's L2, world, VA page, physical page, permissions. -/
structure TlbEntry where
  cluster : Bool
  unit : Nat
  world : Nat
  vpage : Nat
  gpage : Nat
  ppage : Nat
  /-- Stage-1 permissions. -/
  r : Bool
  w : Bool
  x : Bool
  /-- Stage-2 permissions. -/
  r2 : Bool
  w2 : Bool
  deriving DecidableEq, Repr, Inhabited

/-- P and Z of a line (R335). -/
structure LineMeta where
  p : Bool
  z : Bool
  deriving DecidableEq, Repr, Inhabited

/-- A core's own state (R252, R338). -/
structure CoreSt where
  /-- Scratchpad generation counter. -/
  gen : Nat
  holder : Option Nat
  banks : Banks
  /-- Generations of allocations that have ended and whose place no later allocation has taken (R208, R338). -/
  freed : List Nat
  /-- Code lines held in the instruction cache, as `line ↦ bytes` (R74). -/
  icache : KMap (List Byte)
  deriving DecidableEq, Repr, Inhabited

/-- What a line held before a write that came while teams ran: their fetches may still find it (R74). `stamp`: the next number of
a launch or team at the write; one of a lower number was there before it. -/
structure OldCode where
  line : Nat
  stamp : Nat
  bytes : List Byte
  deriving DecidableEq, Repr, Inhabited

/-- Region states (R279). -/
inductive RegionState where
  | empty | valid | revoking | programming | verifying | failed
  deriving DecidableEq, Repr, Inhabited

/-- What a REVOKING region turns into (R292). -/
inductive RegionNext where
  | none | program (id : Nat) (pavane : DWord) | free
  deriving DecidableEq, Repr, Inhabited

/-- A Pavane batch in progress (R287, R288): the columns and PAVANE_CTL in force when it started, and its probes. -/
structure Batch where
  cols : List Column
  ctl : DWord
  probes : List (List Int)
  deriving DecidableEq, Repr, Inhabited

/-- A region descriptor with its tables (R279). -/
structure Region where
  state : RegionState
  /-- The state before REVOKING, which a change that never begins leaves (R294). -/
  prev : RegionState
  flags : Nat
  gen : Nat
  rotk : Nat
  rotn : Nat
  seedk : Nat
  seedn : Nat
  k : Nat
  n : Nat
  ec : Nat
  ej : Nat
  digest : List Byte
  pavane : DWord
  miscnt : Nat
  batches : Nat
  placement : List Nat
  cols : List Column
  golden : List Byte
  /-- The image and placement a pending change programs (R291, R292). -/
  newGolden : List Byte
  newPlacement : List Nat
  next : RegionNext
  /-- SEQ of each AD's next record when the pending change was accepted, by AD (R294). -/
  since : KMap Nat
  /-- ADs that have written the record of the step under way: INTENT while REVOKING, COMMIT while VERIFYING. -/
  stage : List Nat
  /-- Tiles programmed, by AD (R292). -/
  progress : KMap Nat
  /-- VERIFY results written, by AD. -/
  verified : KMap Bool
  /-- A Pavane batch in progress, and the probes asked for by a mismatch (R287). -/
  batch : Option Batch
  probeDue : Bool
  /-- Tile evaluations so far, those at which mismatches of the last 65,536 fell, and whether a window of 65,536 has had
  too many since the last batch (R289). -/
  evals : Nat
  missAt : List Nat
  winOver : Bool
  deriving DecidableEq, Repr, Inhabited

/-- A journal record (R293). -/
structure JRecord where
  ty : Nat
  region : Nat
  gen : Nat
  seq : Nat
  tile : Nat
  result : Nat
  digest : List Byte
  /-- Its CRC fails: power was lost while it was written (R381). -/
  torn : Bool
  deriving DecidableEq, Repr, Inhabited

/-- A raw error record of an AD (R31): plane, array channel and UCIe module as the die numbers them, its ROT, and the tile
and checksum column. -/
structure RawError where
  plane : Nat
  channel : Nat
  module : Nat
  rot : Nat
  tile : Nat
  column : Nat
  deriving DecidableEq, Repr, Inhabited

/-- An error record as the device delivers it to software (R31): package values only. -/
structure DeliveredError where
  ad : Nat
  px : Nat
  py : Nat
  channel : Nat
  hdModule : Nat
  tile : Nat
  column : Nat
  deriving DecidableEq, Repr, Inhabited

/-- An array die: its journal, the raw error records of its non-volatile region, and its staging pool (R31, R291, R293). -/
structure Ad where
  journal : List JRecord
  seq : Nat
  errors : List RawError
  /-- Staged images by staging number; owner probe sets and placement tables by region. -/
  images : KMap (Sparse Byte × Nat)
  probes : KMap (Sparse Byte × Nat)
  placements : KMap (Sparse Byte × Nat)
  deriving DecidableEq, Repr, Inhabited

/-- The requests that need not be complete at once (R318, R323). -/
inductive LongRequest where
  | worldDestroy (h : MsgHead) (w : Nat)
  | pageShare (h : MsgHead) (pages : List Nat)
  | pageRelease (h : MsgHead) (pages : List Nat)
  deriving DecidableEq, Repr, Inhabited

/-- A session (R366, R370). -/
structure Session where
  world : Nat
  rxSeq : Nat
  txSeq : Nat
  order : Nat
  key : List Byte
  /-- RTAG and response of the last 64 MGMT requests performed, newest first. -/
  remembered : List (Nat × List Byte)
  /-- The request accepted and not yet complete; the session's later requests wait for it (R372). -/
  underWay : Option LongRequest
  deriving DecidableEq, Repr, Inhabited

/-- A frame the module has sent (R365): session, SEQ, TYPE, RESP, RTAG, payload before it is sealed. -/
structure Frame where
  session : Nat
  seq : Nat
  ty : Nat
  resp : Bool
  rtag : Nat
  payload : List Byte
  deriving DecidableEq, Repr, Inhabited

/-- Records of one source that have not entered their queue, and the source's next SEQ (R236). -/
structure Source where
  seq : Nat
  pending : List (List Byte)
  deriving DecidableEq, Repr, Inhabited

/-- Where the module stands between reset and power loss (R374, R376, R381). -/
inductive BootState where
  /-- Right after module reset: boot has not run. -/
  | pending
  /-- Booted. -/
  | up
  /-- Boot stopped at a step; AD index or 0xFF. -/
  | failed (step ad : Nat)
  /-- Power-loss sequence done; off until reset. -/
  | off
  deriving DecidableEq, Repr, Inhabited

/-- A bank processor's sharing of its bank (R311): ordinary requests queued behind its row, and whether it yields. -/
structure BankShare where
  queued : Nat
  yielding : Bool
  deriving DecidableEq, Repr, Inhabited

/-- Power, thermal and clock control (R57, R377 to R380). -/
structure Power where
  /-- The module level F in units of 25 MHz. -/
  level : Nat
  /-- Halvings of the evaluation rate, 0 to 4. -/
  pacing : Nat
  /-- Cluster offsets in units of 25 MHz. -/
  offsets : KMap Int
  sum : Nat
  samples : Nat
  hot : Bool
  deriving DecidableEq, Repr, Inhabited

/-- Soft-error counts (R377): lifetime by kind, and in the last 24 hours. -/
structure SoftErrors where
  ecc : Nat
  matrix : Nat
  link : Nat
  softWindow : Nat
  linkWindow : Nat
  deriving DecidableEq, Repr, Inhabited

/-- The module. -/
structure State where
  /-- Physical memory, byte by byte: what the coherent line of each location holds. -/
  mem : Sparse Byte
  /-- P and Z of every line (R335). -/
  lines : KMap LineMeta
  /-- Lines whose DRAM cells hold an error that their next read finds: one that the ECC corrects, an uncorrectable one, or a
  MAC mismatch after correction (R335). They come from outside the module. -/
  cellFaults : KMap CellFault
  /-- Lines, and links with the ADs (`adLink`), whose next packet fails its tag (R333). They come from outside the module. -/
  badPackets : List Nat
  /-- Packet counters by source port, destination port, world and class (R333). -/
  nonces : KMap Nat
  /-- Page ownership table (R320), by physical page. -/
  pot : Sparse (BitVec 16)
  gathers : List Gathered
  /-- What lines held before writes that running teams' fetches may not see yet (R74). -/
  oldCode : List OldCode
  l1 : List L1Line
  l2 : List L2Line
  llc : List LlcLine
  dir : KMap DirEntry
  coh : List CohMsg
  drains : List DrainMsg
  tlb : List TlbEntry
  cores : KMap CoreSt
  teams : List Team
  launches : List Launch
  ops : List Op
  worlds : KMap World
  accounts : KMap CopyAccount
  /-- The world each cluster's copy path visited last (R211). -/
  copyTurn : KMap Nat
  sources : KMap Source
  sessions : KMap Session
  sent : List Frame
  /-- Neighbour advertisements sent, by target address (R365). -/
  adverts : List Nat
  /-- Event records awaiting an EVENT frame, by world (R373). -/
  evFrame : KMap (List (List Byte))
  regions : KMap Region
  ads : KMap Ad
  banks : KMap BankShare
  dispctl : Word
  boostctl : Word
  pimctl : Word
  preemptctl : Word
  powerctl : Word
  /-- Layout generation (R319). -/
  layoutGen : DWord
  power : Power
  soft : SoftErrors
  /-- HEALTH as last posted (R377). -/
  health : Word
  /-- The global address, if set, and the addresses that detection has left the port (R365). -/
  address : Option Nat
  validAddrs : List Nat
  measLog : List Byte
  boot : BootState
  /-- Boots so far: names the KEM key pair in force. -/
  boots : Nat
  /-- The next ticket of the sequencer (R224). -/
  ticket : Nat
  /-- Hub cycles since boot (R339). -/
  hubTime : Nat
  /-- Next numbers of teams, launches, operations, dispatches, sessions. -/
  nextUid : Nat
  /-- The warp whose instruction issues: team and warp index. -/
  cur : Option (Nat × Nat)
  /-- The issue opportunity found the selected warp not ready (the model's own). -/
  held : Bool
  /-- What acts next (the model's own): agents act in any order the rules allow. -/
  schedule : List Tick
  /-- Counts the free values taken (the model's own). -/
  fresh : Nat
  deriving DecidableEq, Repr, Inhabited

/-- A team and warp of the model with every register zero (R33), before dispatch fills it. -/
def Warp.zero : Warp :=
  { slot := 0, sregs := [], vregs := [], preds := [], poison := [], active := 0, live := 0, hdr := 0, idx := 0,
    clause := none, stack := [], rstack := [], rspill := 0, cntL := 0, cntS := 0, cntC := 0, cntT := 0, tokens := [],
    fpmode := 0, fpstat := 0, repcnt := 0, tprog := 0, intrap := false, park := none, arrivals := [],
    status := .running, skip := 0, age := 0, fenced := none, yielded := false, inRep := false, monitors := [], watched := [] }

/-- XALLOT at reset (R59): QMASK 0xFF, SPQ 256, BARS 15, DIVD 31, RESV 0, WEIGHT 16. -/
def xallotReset : DWord := BitVec.ofNat 64 (0xFF * 2 ^ 35 + 256 * 2 ^ 26 + 15 * 2 ^ 22 + 31 * 2 ^ 17 + 16)

/-- CPYBW at reset (R210): MODE 0, SHARE 16, RATE 64, DEPTH 1,024, BORROW 0. -/
def cpybwReset : DWord := BitVec.ofNat 64 (16 * 2 ^ 48 + 64 * 2 ^ 38 + 1024 * 2 ^ 24)

/-- CACHEALLOT at reset (R328): MODE 0, both masks 0xFFFF, SHARE 16. -/
def cacheallotReset : DWord := BitVec.ofNat 64 (0xFFFF * 2 ^ 32 + 0xFFFF * 2 ^ 16 + 16)

/-- WDCTL at reset (R364): LIMIT 1,000, SAVE 0, EN 0. -/
def wdctlReset : Word := BitVec.ofNat 32 (1000 * 2 ^ 16)

/-- 32 zero bytes, the start of a hash chain (R339). -/
def zeroHash : List Byte := List.replicate 32 0

def AccessLog.reset : AccessLog :=
  { base := 0, size := 0, watch := [], written := 0, lost := 0, chain := zeroHash, pend := [], recent := [] }

/-- A FREE world (R317) with every control at its reset value. -/
def World.reset : World :=
  { state := .free, pimok := false, qtable := 0, evq := 0, s1root := 0, s2root := 0, xallot := xallotReset,
    cpybw := cpybwReset, cacheallot := cacheallotReset, wdctl := wdctlReset, trapvec := 0, sg := [], handles := [],
    hcount := 0, deficit := 0, nextQueue := 0, queues := [], evTail := 0, evInit := false, ctxBase := 0, ctxLen := 0,
    receiptH := zeroHash, receiptN := 0, receiptCounts := [0, 0, 0, 0, 0, 0], log := AccessLog.reset,
    credential := none, keys := none }

/-- A team's barrier before any arrival (R54). -/
def Barrier.reset : Barrier := { phase := false, a := 0, e := none }

def Bank.empty : Bank := { loaded := false, k := 0, n := 0, ty := 0, tag := 0, gen := 0, elems := [] }

def Banks.empty : Banks := { actb := 0, bank0 := Bank.empty, bank1 := Bank.empty }

def CoreSt.reset : CoreSt := { gen := 0, holder := none, banks := Banks.empty, freed := [], icache := [] }

def Tile.zero : Tile := { kind := false, elems := [] }

def Source.reset : Source := { seq := 0, pending := [] }

/-- A directory entry for a line no L2 holds (R232). -/
def DirEntry.invalid : DirEntry :=
  { state := .i, owner := 0, sharers := [], lrc := 0, lrs := none, world := 0, busy := .idle, draining := none, queue := [], hint := .default }

/-- PAVANE_CTL at reset (R290): CHKTHR 16, OMAX 64, GR 4, ALPHA 3, P 16, PSET 0, EXPERT 0, ICLASS 2, AUTO 1. -/
def pavaneReset : DWord :=
  BitVec.ofNat 64 (16 * 2 ^ 40 + 64 * 2 ^ 32 + 4 * 2 ^ 28 + 3 * 2 ^ 24 + 16 * 2 ^ 18 + 2 * 2 + 1)

def Region.reset : Region :=
  { state := .empty, prev := .empty, flags := 0, gen := 0, rotk := 0, rotn := 0, seedk := 0, seedn := 0, k := 0, n := 0, ec := 0,
    ej := 0, digest := zeroHash, pavane := pavaneReset, miscnt := 0, batches := 0, placement := [], cols := [],
    golden := [], newGolden := [], newPlacement := [], next := .none, since := [], stage := [], progress := [], verified := [],
    batch := none, probeDue := false, evals := 0, missAt := [],
    winOver := false }

def Ad.reset : Ad := { journal := [], seq := 0, errors := [], images := [], probes := [], placements := [] }

/-- The module right after reset, before boot runs (R374): registers at the values their bit maps give, memory with
nothing listed, no world ACTIVE, no team, no session. -/
def State.reset : State :=
  { mem := [], lines := [], cellFaults := [], badPackets := [], nonces := [], pot := [], gathers := [], oldCode := [], l1 := [], l2 := [], llc := [], dir := [], coh := [],
    drains := [], tlb := [], cores := [], teams := [], launches := [], ops := [], worlds := [], accounts := [], copyTurn := [],
    sources := [], sessions := [], sent := [], adverts := [], evFrame := [], regions := [], ads := [], banks := [], dispctl := 0,
    boostctl := BitVec.ofNat 32 (12 * 2 ^ 8 + 2 * 2 ^ 4 + 1), pimctl := BitVec.ofNat 32 (20 * 2 ^ 8),
    preemptctl := BitVec.ofNat 32 (1 * 2 ^ 2 + 1), powerctl := BitVec.ofNat 32 (1800 * 2 ^ 16), layoutGen := 0,
    power := { level := 84, pacing := 0, offsets := [], sum := 0, samples := 0, hot := false },
    soft := { ecc := 0, matrix := 0, link := 0, softWindow := 0, linkWindow := 0 }, health := 0, address := none,
    validAddrs := [], measLog := [], boot := .pending, boots := 0, ticket := 0, hubTime := 0, nextUid := 1,
    cur := none, held := false, schedule := [], fresh := 0 }

end Sys2Proof.Machine
end

