-- ==== Sys2Proof/Machine/Units.lean ====
section
/-! DEFINITION. The module's units and how they are numbered: packages, channels and bank processors, UCIe modules, planes
and array channels (R12, R16, R19, R20, R25, R28 to R31). -/

namespace Sys2Proof.Machine

/-! ### Counts (R12, R14, R16, R19) -/

/-- LPDDR-6 packages, each with its controller; memory channels; UCIe modules on the HD, and those of an AD; page-table
walkers, each of which a PAGE_WALK event holds for the one step it takes. -/
def packages : Nat := 16
def channels : Nat := 64
def hdUcieModules : Nat := 64
def adUcieModules : Nat := 4
def pageWalkers : Nat := 1024

/-! ### Packages, controllers, channels, banks (R16, R19, R298) -/

/-- Memory channel of a physical page, and its bank there. -/
def pageChannel (page : Nat) : Nat := page % channels
def pageBank (page : Nat) : Nat := page / 64 % 32

/-- LPDDR-6 package of a channel; the controller of the same number serves it. -/
def packageOf (channel : Nat) : Nat := channel / 4

/-- Number of the bank processor of a bank of a channel. -/
def bpNumber (channel bank : Nat) : Nat := 32 * channel + bank

/-- Number across the module of L2 slice `i` of a cluster. -/
def l2SliceNumber (cluster i : Nat) : Nat := 16 * cluster + i

/-! ### UCIe modules (R16, R28) -/

/-- Rotation r of an AD (R25). -/
def adRotation (ad : Nat) : Nat := ad / 4

/-- ORIENT of an AD: DIE, SLOT and ROT (R25, R26). -/
def orientOf (a : Nat) : Nat := a * 16 + a % 4 * 4 + adRotation a

/-- Package-side UCIe module of die-local module `m`, and the other way. -/
def packageModule (r m : Nat) : Nat := (m + r) % adUcieModules
def dieModule (r q : Nat) : Nat := (q + 4 - r % 4) % adUcieModules

/-- The HD UCIe module joined to package-side module `q` of an AD. -/
def hdModule (ad q : Nat) : Nat := adUcieModules * ad + q

/-! ### Planes (R29) -/

/-- Die coordinates of a plane in die numbering. -/
def planeX (p : Nat) : Nat := p % 32
def planeY (p : Nat) : Nat := p / 32

/-- Package coordinates of a plane of a die with rotation `r`. -/
def planePx (r p : Nat) : Nat :=
  match r with
  | 0 => planeX p
  | 1 => 15 - planeY p
  | 2 => 31 - planeX p
  | _ => planeY p
def planePy (r p : Nat) : Nat :=
  match r with
  | 0 => planeY p
  | 1 => planeX p
  | 2 => 15 - planeY p
  | _ => 31 - planeX p

/-- The plane in die numbering at package coordinates. -/
def planeAt (r px py : Nat) : Nat :=
  match r with
  | 0 => 32 * py + px
  | 1 => 32 * (15 - px) + py
  | 2 => 32 * (15 - py) + (31 - px)
  | _ => 32 * px + (31 - py)

/-- Planes of an AD's package grid, as columns and rows. -/
def planeGrid (r : Nat) : Nat × Nat := if r % 2 = 0 then (32, 16) else (16, 32)

/-! ### Array channels (R30) -/

/-- Physical channel of a plane in die numbering. -/
def physicalChannel (p : Nat) : Nat := planeX p / 4

/-- Physical channel of a logical one, and the other way. -/
def channelOfLogical (r c : Nat) : Nat := (c + 2 * r) % 8
def logicalChannel (r f : Nat) : Nat := (f + 8 - 2 * r % 8) % 8

/-! ### ADs and placements (R25, R279) -/

def State.ad (s : State) (a : Nat) : Ad := (KMap.find s.ads a).getD Ad.reset
def State.setAd (s : State) (a : Nat) (x : Ad) : State := { s with ads := KMap.put s.ads a x }

/-- The AD of a placement entry, and its plane and tile in package coordinates (R279). -/
def entryAd (e : Nat) : Nat := field e 31 28
def entryPx (e : Nat) : Nat := field e 27 23
def entryPy (e : Nat) : Nat := field e 22 18
def entryTile (e : Nat) : Nat := field e 17 10

/-- The ADs a placement names, ascending. -/
def placementAds (p : List Nat) : List Nat := (List.range 16).filter fun a => p.any fun e => entryAd e == a

/-- Tiles of a placement on an AD. -/
def tilesOn (p : List Nat) (ad : Nat) : Nat := (p.filter fun e => entryAd e == ad).length

/-! ### Error records (R31) -/

/-- What is delivered to software of a raw record of an AD: package values; tile and column keep their die-local
meaning. -/
def RawError.delivered (ad : Nat) (e : RawError) : DeliveredError :=
  { ad := ad, px := planePx e.rot e.plane, py := planePy e.rot e.plane, channel := logicalChannel e.rot e.channel,
    hdModule := hdModule ad (packageModule e.rot e.module), tile := e.tile, column := e.column }

/-- The raw record of a checksum mismatch in the tile of a placement entry: in die numbering, with the die-local UCIe module. -/
def rawError (e column module : Nat) : RawError :=
  let r := adRotation (entryAd e)
  let p := planeAt r (entryPx e) (entryPy e)
  { plane := p, channel := physicalChannel p, module := module, rot := r, tile := entryTile e, column := column }

/-- A raw record written to the non-volatile region of an AD. -/
def State.logError (s : State) (a : Nat) (e : RawError) : State :=
  let x := s.ad a
  s.setAd a { x with errors := x.errors ++ [e] }

/-! ### Packets (R333) -/

def clusterPort (c : Nat) : Nat := c
def slicePort (i : Nat) : Nat := 16 + i
def controllerPort (j : Nat) : Nat := 80 + j
def hdUciePort (u : Nat) : Nat := 96 + u
def adUciePort (u : Nat) : Nat := 160 + u
def packagePort (j : Nat) : Nat := 224 + j

inductive PacketClass where
  | request | response | snoop | data | writeBack
  deriving DecidableEq, Repr, Inhabited

def PacketClass.code : PacketClass → Nat
  | .request => 0 | .response => 1 | .snoop => 2 | .data => 3 | .writeBack => 4

/-- The key of a counter: source, destination, world, class. -/
def counterKey (src dst world : Nat) (c : PacketClass) : Nat := ((src * 256 + dst) * 32 + world) * 8 + c.code

/-- The count of a counter: packets sent since the world's key was created. -/
def State.packetCount (s : State) (src dst world : Nat) (c : PacketClass) : Nat :=
  Sparse.get 0 s.nonces (counterKey src dst world c)

/-- A packet sent: its counter is one higher. -/
def State.packet (s : State) (src dst world : Nat) (c : PacketClass) : State :=
  { s with nonces := Sparse.set 0 s.nonces (counterKey src dst world c) (s.packetCount src dst world c + 1) }

/-- The packets of a line that the controller of its channel reads or writes at the package. -/
def State.dramPackets (s : State) (world line : Nat) (write : Bool) : State :=
  let j := packageOf (pageChannel (line / 128))
  if write then s.packet (controllerPort j) (packagePort j) world .writeBack
  else (s.packet (controllerPort j) (packagePort j) world .request).packet (packagePort j) (controllerPort j) world .data

/-- The LLC slice that is a line's home (R20). -/
def llcSlice (line : Nat) : Nat := line % 64

/-- An access that a cluster has performed at a line's home: its request and the data one way or the other. -/
def State.homeTrip (s : State) (cluster world line : Nat) (write : Bool) : State :=
  let c := clusterPort cluster
  let h := slicePort (llcSlice line)
  if write then s.packet c h world .writeBack else (s.packet c h world .request).packet h c world .data

end Sys2Proof.Machine
end

