-- ==== Sys2Proof/Machine/Records.lean ====
section
/-! DEFINITION. Event and fault records, HEALTH and the soft errors it counts, and packets that fail on a link (R236, R295, R333,
R356, R373, R377). -/

namespace Sys2Proof.Machine

/-! ### Event and fault records (R236, R356, R373) -/

/-- The key of a source of a world. -/
def sourceKey (world source : Nat) : Nat := world * 2 ^ 32 + source

/-- SOURCE of a warp, a copy engine, the tensor engines, the dispatcher, an AD, Suzin, the near-bank queue and hub
control (R373). -/
def warpSource (core slot : Nat) : Nat := core * 64 + slot
def copySource (core : Nat) : Nat := 1 * 2 ^ 28 + core
def tensorSource (core : Nat) : Nat := 2 * 2 ^ 28 + core
def dispatcherSource : Nat := 3 * 2 ^ 28
def adSource (ad : Nat) : Nat := 4 * 2 ^ 28 + ad
def suzinSource : Nat := 5 * 2 ^ 28
def nearBankSource : Nat := 6 * 2 ^ 28
def hubSource : Nat := 7 * 2 ^ 28

/-- The 12 bytes every event record starts with. -/
def recordHead (ty world seq source : Nat) : List Byte :=
  leBytes 2 ty ++ leBytes 2 world ++ leBytes 4 seq ++ leBytes 4 source

/-- A record handed to its source: it takes the source's next sequence number and waits to enter (R236). -/
def State.post (s : State) (ty world source : Nat) (body : List Byte) : State :=
  let k := sourceKey world source
  let x := (KMap.find s.sources k).getD Source.reset
  let y : Source := { seq := (x.seq + 1) % 2 ^ 32, pending := x.pending ++ [recordHead ty world x.seq source ++ body] }
  { s with sources := KMap.put s.sources k y }

/-- The sequence number a source's next record takes. -/
def State.nextSeq (s : State) (world source : Nat) : Nat :=
  ((KMap.find s.sources (sourceKey world source)).getD Source.reset).seq

/-- Body of a LAUNCH record (R373). -/
def launchBody (queue : Nat) (cwfail : Bool) (status record value : Nat) : List Byte :=
  leBytes 1 queue ++ leBytes 1 (boolBit cwfail) ++ leBytes 2 status ++ leBytes 8 record ++ leBytes 8 value

/-- Body of a QUEUE_ERROR record. -/
def queueErrorBody (queue : Nat) : List Byte := leBytes 1 queue ++ leBytes 19 0

/-- Body of a HOSTCALL record. -/
def hostcallBody (code warp team value : Nat) : List Byte :=
  leBytes 2 code ++ leBytes 2 warp ++ leBytes 4 team ++ leBytes 8 value ++ leBytes 4 0

/-- Event types (R373). -/
def evFault : Nat := 1
def evLaunch : Nat := 2
def evQueueError : Nat := 3
def evHostcall : Nat := 4
def evRevoked : Nat := 5
def evFlag : Nat := 6
def evCapacity : Nat := 7
def evHealth : Nat := 8

/-- The fields of a fault record beyond its head (R356). -/
structure FaultInfo where
  code : FaultCode
  precise : Bool
  parked : Bool
  deferred : Bool
  status : Bool
  lane : Nat
  teamId : Nat
  warpId : Nat
  core : Nat
  index : Nat
  hdr : DWord
  addr : Nat
  opaddr : Nat
  prog : Nat
  detail : Nat
  rid : Nat
  deriving DecidableEq, Repr, Inhabited

/-- Body of a fault record, 52 bytes (R356). RESUMABLE goes with PARKED (R353). -/
def FaultInfo.body (f : FaultInfo) : List Byte :=
  leBytes 2 f.code.code
    ++ leBytes 1 (boolBit f.precise + 2 * boolBit f.parked + 4 * boolBit f.parked + 8 * boolBit f.deferred
        + 16 * boolBit f.status)
    ++ leBytes 1 f.lane ++ leBytes 4 f.teamId ++ leBytes 1 f.warpId ++ leBytes 1 f.core ++ leBytes 1 f.index
    ++ leBytes 1 0 ++ leBytes 8 f.hdr.toNat ++ leBytes 8 f.addr ++ leBytes 8 f.opaddr ++ leBytes 8 f.prog
    ++ leBytes 4 f.detail ++ leBytes 2 f.rid ++ leBytes 2 0

/-- The module level of 1.8 GHz and of 2.1 GHz in units of 25 MHz (R57, R379). -/
def level18 : Nat := 72
def level21 : Nat := 84

/-! ### HEALTH (R295, R377) -/

/-- A region is flagged. -/
def Region.flagged (r : Region) : Bool := r.flags % 8 != 0 || r.state == .failed

/-- The word HEALTH reads. -/
def State.healthWord (s : State) : Word :=
  let array := s.regions.any fun p => p.2.flagged
  let soft := decide (65536 < s.soft.softWindow)
  let link := decide (1024 < s.soft.linkWindow)
  let throttle := decide (s.power.level < level18) || decide (0 < s.power.pacing)
  BitVec.ofNat 32 (2048 * boolBit throttle + 1024 * boolBit link + 512 * boolBit soft + 256 * boolBit array
    + boolBit (array || soft || link))

/-- A change of HEALTH posts a HEALTH event to world 0. -/
def State.settleHealth (s : State) : State :=
  let h := s.healthWord
  if h = s.health then s
  else ({ s with health := h }).post evHealth 0 suzinSource (leBytes 4 h.toNat ++ leBytes 16 0)

/-- A soft error counted: ECC corrections and matrix retries enter the window, link failures theirs (R377). -/
def State.countEcc (s : State) : State :=
  ({ s with soft := { s.soft with ecc := s.soft.ecc + 1, softWindow := s.soft.softWindow + 1 } }).settleHealth
def State.countMatrix (s : State) : State :=
  ({ s with soft := { s.soft with matrix := s.soft.matrix + 1, softWindow := s.soft.softWindow + 1 } }).settleHealth
def State.countLink (s : State) : State :=
  ({ s with soft := { s.soft with link := s.soft.link + 1, linkWindow := s.soft.linkWindow + 1 } }).settleHealth

/-! ### Packets and cells that fail (R297, R333, R335) -/

/-- The next packet of the line fails its tag. -/
def State.packetFails (s : State) (line : Nat) : Bool := s.badPackets.contains line

/-- A packet of the line whose tag fails: discarded, and counted (R333). -/
def State.dropPacket (s : State) (line : Nat) : State := { s with badPackets := s.badPackets.erase line }.countLink

/-- The record of a lost write-back (R333): it names the instruction whose store was gathered (R383), if one is known. -/
def State.lostWrite (s : State) (world : Nat) (g : Origin) : State :=
  let info : FaultInfo :=
    { code := .integrity, precise := false, parked := false, deferred := false, status := true, lane := 0xFF, teamId := g.teamId,
      warpId := g.warp, core := ((s.teams.find? fun t => t.uid == g.team).map Team.core).getD g.core, index := g.idx, hdr := g.hdr, addr := g.va,
      opaddr := 0, prog := 0, detail := 0, rid := 0 }
  s.post evFault world hubSource info.body

end Sys2Proof.Machine
end

