-- ==== Sys2Proof/Machine/Memory.lean ====
section
/-! DEFINITION. Physical memory, page ownership, the homes' directory entries, gathered stores, and what a read of a line
delivers (R19, R20, R74, R216, R223, R320, R321, R333, R335). -/

namespace Sys2Proof.Machine

/-- What an unlisted byte of memory reads as. -/
def memDefault : Byte := 0

/-- Memory is in canonical form. -/
def Memory.wf (m : Sparse Byte) : Bool := Sparse.wf memDefault m

/-- Bytes of usable memory: 960 GiB (R19). -/
def usableBytes : Nat := 960 * 2 ^ 30
/-- Pages of usable memory (R320). -/
def usablePages : Nat := 62914560
/-- Line number of a physical address (R20). -/
def lineOf (pa : Nat) : Nat := pa / 128
/-- Page number of a physical address (R20). -/
def pageOf (pa : Nat) : Nat := pa / 16384

/-- `n` bytes of the coherent memory. -/
def State.readMem (s : State) (pa n : Nat) : List Byte := Sparse.getN memDefault s.mem pa n

/-- `n` bytes of the coherent memory as a little-endian number. -/
def State.readNat (s : State) (pa n : Nat) : Nat := leVal (s.readMem pa n)

def State.lineMeta (s : State) (line : Nat) : LineMeta := (KMap.find s.lines line).getD { p := false, z := false }

def State.setLineMeta (s : State) (line : Nat) (m : LineMeta) : State :=
  { s with lines := if m = { p := false, z := false } then KMap.erase s.lines line else KMap.put s.lines line m }

/-- Every byte of a line is written anew: P and Z are cleared, and no fault of its cells remains (R181, R335). -/
def State.clearLine (s : State) (line : Nat) : State :=
  { s with cellFaults := KMap.erase s.cellFaults line }.setLineMeta line { p := false, z := false }

/-- What a store of `n` bytes at `pa` does to its line's P and Z: a store of every byte clears both, a smaller one
clears Z only (R181, R335). -/
def State.touchLine (s : State) (pa n : Nat) : State :=
  let m := s.lineMeta (lineOf pa)
  if n = 128 ∧ pa % 128 = 0 then s.clearLine (lineOf pa) else s.setLineMeta (lineOf pa) { m with z := false }

/-! ### The program counter (R70, R71) -/

/-- The COUNT of the clause being run. -/
def Warp.count (w : Warp) : Nat :=
  match w.clause with
  | some h => h.count
  | none => 0

/-- The address of the word at the PC. -/
def Warp.wordAddr (w : Warp) : DWord := w.hdr + BitVec.ofNat 64 (4 * (w.idx + 1))

/-- The header after the clause (ft of R50). -/
def Warp.fallThrough (w : Warp) : DWord := w.hdr + BitVec.ofNat 64 (4 * (w.count + 1))

/-- A header to run next: its checks and waits are still to come (R66, R67). -/
def Warp.goto (w : Warp) (a : DWord) : Warp := { w with hdr := a, idx := 0, clause := none }

/-- The word at the PC is its clause's last, and the clause asks to yield after it (R67). -/
def Warp.lastYields (w : Warp) : Bool :=
  match w.clause with
  | some h => h.yield && decide (h.count ≤ w.idx + 1)
  | none => false

/-- The PC leaves the word that has issued for a header: after a clause's last word its YIELD bit takes effect (R67). -/
def Warp.leap (w : Warp) (a : DWord) : Warp := { w.goto a with yielded := w.yielded || w.lastYields }

/-- Move past the word at the PC: to the next word, or from the last word to the next header (R71). -/
def Warp.advance (w : Warp) : Warp :=
  if w.idx + 1 < w.count then { w with idx := w.idx + 1 } else w.leap w.fallThrough

/-- A blocked warp goes on past its word: its clause's YIELD bit has taken effect when it issued (R67). -/
def Warp.proceed (w : Warp) : Warp := if w.idx + 1 < w.count then { w with idx := w.idx + 1 } else w.goto w.fallThrough

/-- A warp blocked at the word that has issued (R67). -/
def Warp.block (w : Warp) (st : WStatus) : Warp := { w with status := st, yielded := w.yielded || w.lastYields }

/-- An address a number of words away from the word at the PC (R70, R81). -/
def Warp.target (w : Warp) (off : Int) : DWord := w.wordAddr + BitVec.ofInt 64 (4 * off)

/-- A warp blocked at `waitmon` goes on, its monitors released (R195). -/
def Warp.wake (w : Warp) : Warp := Warp.proceed { w with status := .running, monitors := [] }

/-- A warp wakes when it is blocked at `waitmon` with a monitor on the line. -/
def Warp.wakeOn (w : Warp) (line : Nat) : Warp :=
  if w.status = WStatus.waitmon ∧ line ∈ w.monitors then w.wake else w

/-- What warp `j` of a team learns of a write to a line by `agent`: another warp that performed a device- or
system-scope atomic on the line remembers it, and one that monitors the line wakes (R195). -/
def Warp.seeWrite (w : Warp) (mine : Bool) (line : Nat) : Warp :=
  let w1 := if !mine ∧ (KMap.find w.watched line).isSome then { w with watched := KMap.put w.watched line true } else w
  w1.wakeOn line

/-- Every warp learns of a write to a line (R195). -/
def State.noteWrite (s : State) (agent : Option (Nat × Nat)) (line : Nat) : State :=
  { s with teams := s.teams.map fun (t : Team) =>
      { t with warps := (t.warps.zip (List.range t.warps.length)).map fun p =>
          p.1.seeWrite (agent == some (t.uid, p.2)) line } }

/-- A running launch whose dispatch came before the record's write: its teams' fetches may find the older bytes (R74). -/
def OldCode.seenBy (x : OldCode) (l : Launch) : Bool :=
  (l.state == .dispatching || l.state == .dispatched) && decide (l.start < x.stamp)

/-- What a line held before bytes of it change is kept while a launch runs that may still fetch it (R74). -/
def State.keepCode (s : State) (pa : Nat) (bs : List Byte) : State :=
  let x : OldCode := { line := lineOf pa, stamp := s.nextUid, bytes := s.readMem (128 * lineOf pa) 128 }
  if !(s.launches.any x.seenBy) || s.readMem pa bs.length == bs || (s.oldCode.any fun y => y.line == x.line && y.stamp == x.stamp)
  then s
  else { s with oldCode := x :: s.oldCode.filter fun y => s.launches.any y.seenBy }

/-- A write of bytes that lie in one line to the coherent memory by an agent. -/
def State.writeMemLine (s : State) (agent : Option (Nat × Nat)) (pa : Nat) (bs : List Byte) : State :=
  let s1 := { s.keepCode pa bs with mem := Sparse.setN memDefault s.mem pa bs }
  (s1.touchLine pa bs.length).noteWrite agent (lineOf pa)

/-- A write to the coherent memory, line by line; `fuel` bounds the lines. -/
def State.writeMemGo (agent : Option (Nat × Nat)) : Nat → State → Nat → List Byte → State
  | 0, s, _, _ => s
  | f + 1, s, pa, bs =>
    if bs = [] then s
    else
      let n := 128 - pa % 128
      State.writeMemGo agent f (s.writeMemLine agent pa (bs.take n)) (pa + n) (bs.drop n)

/-- A write of any length to the coherent memory. -/
def State.writeMem (s : State) (agent : Option (Nat × Nat)) (pa : Nat) (bs : List Byte) : State :=
  State.writeMemGo agent (bs.length / 128 + 2) s pa bs

/-- POT fields of a page (R320). -/
def State.potWorld (s : State) (page : Nat) : Nat := field (Sparse.get 0 s.pot page).toNat 15 11
def State.potState (s : State) (page : Nat) : Nat := field (Sparse.get 0 s.pot page).toNat 10 9
def State.potPim (s : State) (page : Nat) : Bool := bitOf (Sparse.get 0 s.pot page).toNat 8
def State.potSgen (s : State) (page : Nat) : Nat := field (Sparse.get 0 s.pot page).toNat 7 0

/-- The POT entry of a page. -/
def potEntry (world state : Nat) (pim : Bool) (sgen : Nat) : BitVec 16 :=
  BitVec.ofNat 16 (world * 2 ^ 11 + state * 2 ^ 9 + (if pim then 256 else 0) + sgen % 256)

def State.setPot (s : State) (page : Nat) (e : BitVec 16) : State := { s with pot := Sparse.set 0 s.pot page e }

/-- What an access does (R180, R325). -/
inductive AccKind where
  | read | write | atomic | fetch
  deriving DecidableEq, Repr, Inhabited

/-- Whether the access writes. -/
def AccKind.writes : AccKind → Bool
  | .write | .atomic => true
  | .read | .fetch => false

/-- A world's record, FREE when never created. -/
def State.world (s : State) (w : Nat) : World := (KMap.find s.worlds w).getD World.reset

def State.setWorld (s : State) (w : Nat) (x : World) : State := { s with worlds := KMap.put s.worlds w x }

/-- The ownership check of R321 for one page. -/
def State.potAllows (s : State) (world page : Nat) (k : AccKind) : Bool :=
  decide (page < usablePages) &&
    (if s.potState page = 1 then s.potWorld page == world
     else if s.potState page = 2 then !k.writes && (s.world world).state == .active
     else false)

/-- The cluster that owns a line, as the home knows it (R232). -/
def State.ownerOf (s : State) (line : Nat) : Option Nat :=
  match KMap.find s.dir line with
  | some e => if e.state = .x ∨ e.state = .o then some e.owner else none
  | none => none

/-! ### Directory entries (R223, R232) -/

/-- The home's entry of a line. -/
def State.dirEntry (s : State) (line : Nat) : DirEntry := (KMap.find s.dir line).getD DirEntry.invalid

def State.setDir (s : State) (line : Nat) (e : DirEntry) : State := { s with dir := KMap.put s.dir line e }

/-- LRC and LRS of a line after a release on it by a core of a world (R223); a drain of an earlier one tells nothing of it. -/
def State.noteRelease (s : State) (core world : Nat) (scope : Scope) (line : Nat) : State :=
  s.setDir line { s.dirEntry line with lrc := core / 8, lrs := some scope, world := world, draining := none }

/-! ### Gathered stores (R216) -/
/-- Gathered bytes written to their coherent lines. -/
def State.mergeList (s : State) (gs : List Gathered) : State :=
  gs.foldl (fun s g => s.writeMem none g.addr [g.val]) s

/-- Two gathered bytes that reach the coherent line together: of one aligned 8 bytes (R187), or of a line that one
access wrote whole (R181). -/
def Gathered.joined (g h : Gathered) : Bool :=
  g.cluster == h.cluster && g.world == h.world
    && (g.addr / 8 == h.addr / 8 || (g.whole && h.whole && lineOf g.addr == lineOf h.addr))

/-- Gathered bytes whose packets fail on their links: they are not written, the failures are counted, and each store that loses
bytes has a record posted to its world (R333). -/
def State.loseGathered (s : State) (gone : List Gathered) : State :=
  let s1 := ((gone.map fun g => lineOf g.addr).eraseDups).foldl State.dropPacket
    { s with gathers := s.gathers.filter fun g => !gone.contains g }
  (gone.foldl (fun (l : List Gathered) g =>
    if l.any fun h => h.world == g.world && { h.origin with va := 0 } == { g.origin with va := 0 } then l else l ++ [g]) []).foldl
      (fun x g => x.lostWrite g.world g.origin) s1

/-- A gathered byte that goes to the line's home: its L2 does not own the line. -/
def State.travels (s : State) (g : Gathered) : Bool :=
  !(s.l2.any fun x => x.cluster == g.cluster && x.world == g.world && x.line == lineOf g.addr && x.state != .s)

/-- The gathered bytes that satisfy `p`, and those joined to them, reach the coherent line and leave the buffers (R216); those that
go to a home whose packet fails are lost (R333). Lines written whole lose their P and Z (R181). -/
def State.mergeWhere (s : State) (p : Gathered → Bool) : State :=
  let out := fun (g : Gathered) => p g || s.gathers.any fun h => p h && g.joined h
  let gs := s.gathers.filter out
  let gone := gs.filter fun g => s.travels g && s.packetFails (lineOf g.addr)
  let kept := gs.filter fun g => !gone.contains g
  let sent := ((gs.filter s.travels).map fun g => (g.cluster, g.world, lineOf g.addr)).eraseDups
  let s1 := sent.foldl (fun x k => x.homeTrip k.1 k.2.1 k.2.2 true) (s.loseGathered gone)
  let s2 := { s1 with gathers := s1.gathers.filter fun g => !out g }.mergeList kept
  (kept.filter fun g => g.whole).foldl (fun x g => x.clearLine (lineOf g.addr)) s2

/-- The world's entries of a cluster's gathering buffers drained to the coherent lines (R217). -/
def State.drainWorld (s : State) (cluster world : Nat) : State :=
  s.mergeWhere fun g => g.cluster == cluster && g.world == world

/-- A line's gathered bytes of one cluster merged into it (R216). -/
def State.mergeLine (s : State) (cluster line : Nat) : State :=
  s.mergeWhere fun g => g.cluster == cluster && lineOf g.addr == line

/-- Lines of a range of physical addresses. -/
def linesOf (pa n : Nat) : List Nat := if n = 0 then [] else (List.range ((pa + n - 1) / 128 + 1 - pa / 128)).map (pa / 128 + ·)

/-- The addresses at which a range of virtual addresses enters each of its lines. -/
def lineStarts (va n : Nat) : List Nat := (linesOf va n).map fun l => max va (128 * l)

/-- The home has the owner of a line give it up: the owner's gathered bytes are merged first (R216). -/
def State.snoopOwner (s : State) (line : Nat) : State :=
  match s.ownerOf line with
  | some c => s.mergeLine c line
  | none => s

/-! ### Reads of lines (R335) -/

/-- The LLC holds a line under a world's tag (R330). -/
def State.llcHas (s : State) (world line : Nat) : Bool := s.llc.any fun x => x.world == world && x.line == line

/-- The LLC holds the line for the world, or an L2 owns it: a read of it at its home does not reach the DRAM. -/
def State.cachedLine (s : State) (world line : Nat) : Bool :=
  s.llcHas world line || (s.ownerOf line).isSome

/-- The read finds a symbol that the ECC corrects, and no symbol that it cannot. -/
def readCounts (c : CellFault) : Bool := c.corrected && c.fault != some .uncorr

/-- A read of a line at its controller (R335): the fault it delivers, the line poisoned by a new one, and a correction
counted. A line of a PIM page has no MAC and no ECC (R297). -/
def State.readCells (world : Nat) (s : State) (line : Nat) : Option DataFault × State :=
  let m := s.lineMeta line
  let s0 := if s.cachedLine world line then s else s.dramPackets world line false
  if s.potPim (line / 128) then (none, s0)
  else if m.p then (some .integrity, s0)
  else if m.z || s.cachedLine world line then (none, s0)
  else
    match KMap.find s.cellFaults line with
    | none => (none, s0)
    | some c =>
      let s1 := { s0 with cellFaults := KMap.erase s.cellFaults line }
      let s2 := if readCounts c then s1.countEcc else s1
      (c.fault, if c.fault.isSome then s2.setLineMeta line { m with p := true } else s2)

/-- A read of a line below the L2s: the home has the owner's gathered bytes merged first (R216), and its packet may fail on the
way (R333). -/
def State.readLine (world : Nat) (s : State) (line : Nat) : Option DataFault × State :=
  let s1 := s.snoopOwner line
  if s1.packetFails line then (some .integrity, s1.dropPacket line) else s1.readCells world line

/-- Lines read one after another until one delivers a fault: that line, and the state after the reads. -/
def State.readAll (read : State → Nat → Option DataFault × State) (s : State) : List Nat → Option (Nat × DataFault) × State
  | [] => (none, s)
  | n :: r =>
    match read s n with
    | (some f, s1) => (some (n, f), s1)
    | (none, s1) => State.readAll read s1 r

/-! ### Writes at the homes, gathering, L1 copies -/

/-- A write performed at the homes of its lines. -/
def State.homeWrite (s : State) (agent : Option (Nat × Nat)) (pa : Nat) (bs : List Byte) : State :=
  ((linesOf pa bs.length).foldl State.snoopOwner s).writeMem agent pa bs

/-- The bytes a store puts into a cluster's gathering buffer, from its `i`-th on, with the bytes gathered since: those of
this store that follow, or, where an address is gathered already, those since it first was. -/
def gatherNew (old : List Gathered) (by' : Origin) (cluster world pa : Nat) (whole : Bool) : List Byte → List Gathered
  | [] => []
  | b :: r =>
    let was := old.find? fun g => g.cluster == cluster && g.world == world && g.addr == pa
    { cluster := cluster, world := world, addr := pa, val := b, whole := whole || (was.map Gathered.whole).getD false,
      later := (was.map Gathered.later).getD r.length, origin := by' }
      :: gatherNew old { by' with va := by'.va + 1 } cluster world (pa + 1) whole r

/-- A store of bytes of one line put into a cluster's store-gathering buffer: bytes followed by 128 more in their slice's
buffer have reached the coherent line (R216); the slice is page mod 16 (R20). -/
def State.gather (s : State) (by' : Origin) (cluster world pa : Nat) (whole : Bool) (bs : List Byte) : State :=
  let aged := s.gathers.map fun g =>
    if g.cluster = cluster ∧ pageOf g.addr % 16 = pageOf pa % 16 then { g with later := g.later + bs.length } else g
  let keep := aged.filter fun g =>
    !(g.cluster == cluster && g.world == world && decide (pa ≤ g.addr) && decide (g.addr < pa + bs.length))
  { s with gathers := gatherNew aged by' cluster world pa whole bs ++ keep }.mergeWhere fun g => decide (128 ≤ g.later)

/-- L1 copies of a core that a store of its own updates (R215). -/
def State.updateL1 (s : State) (core world pa : Nat) (bs : List Byte) : State :=
  { s with l1 := s.l1.map fun l =>
      if l.core = core ∧ l.world = world ∧ l.line = lineOf pa
      then { l with data := l.data.take (pa % 128) ++ bs.take (128 - pa % 128)
                              ++ l.data.drop (pa % 128 + bs.length) }
      else l }

/-- The world's lines of a core's L1 invalidated (R192, R215). -/
def State.dropL1 (s : State) (core world : Nat) : State :=
  { s with l1 := s.l1.filter fun l => !(l.core == core && l.world == world) }

end Sys2Proof.Machine
end

