-- ==== Sys2Proof/Machine/Translate.lean ====
section
/-! DEFINITION. Translation, what a cluster sees of memory, the range access log's pending records, and the device's accesses at
virtual addresses (R180, R216, R324 to R327, R335, R341, R342). -/

namespace Sys2Proof.Machine

/-! ### Walks (R324 to R326) -/

/-- A descriptor of R325 that is valid and well formed at its level, for stage 2 or stage 1. -/
def descOk (stage2 : Bool) (level d : Nat) : Bool :=
  bitOf d 0 && (field d 63 52 == 0) && (field d 13 5 == 0) &&
    (if level = 0 then bitOf d 1 else if level = 3 then !bitOf d 1 else true) &&
    (!(stage2 && bitOf d 4)) &&
    (bitOf d 1 || (field d 51 14 % 2 ^ (11 * (3 - level)) == 0))

/-- A finished walk: the 16 KiB page the address lies in, and the leaf's permissions. -/
structure Leaf where
  page : Nat
  r : Bool
  w : Bool
  x : Bool
  deriving DecidableEq, Repr, Inhabited

/-- The leaf a descriptor gives for address `a` at a level: R325's page base plus the address's lower index bits. -/
def leafOf (level d a : Nat) : Leaf :=
  { page := field d 51 14 + field a 57 14 % 2 ^ (11 * (3 - level)), r := bitOf d 2, w := bitOf d 3, x := bitOf d 4 }

/-- Table index of address `a` at a level (R324). -/
def levelIndex (level a : Nat) : Nat := a / 2 ^ (14 + 11 * (3 - level)) % 2048

/-- A descriptor read at its home (R326). DESIGN CHOICE: one whose line delivers a data fault is no valid descriptor (log 113). -/
def State.readDesc (s : State) (world pa : Nat) : Nat × State :=
  let r := s.readLine world (lineOf pa)
  (if r.1.isSome then 0 else r.2.readNat pa 8, r.2)

/-- The stage-2 walk of a world from a table at physical address `tbl`; `n` levels remain (R324, R325). -/
def State.walk2 (world a : Nat) : Nat → State → Nat → Option Leaf × State
  | 0, s, _ => (none, s)
  | n + 1, s, tbl =>
    let level := 3 - n
    let d := s.readDesc world (tbl + 8 * levelIndex level a)
    if !descOk true level d.1 then (none, d.2)
    else if bitOf d.1 1 then State.walk2 world a n d.2 (field d.1 51 14 * 16384)
    else (some (leafOf level d.1 a), d.2)

/-- Stage 2 of a world: a GPA to its leaf, with what the walk's reads leave; GPAs have 52 bits (R324). -/
def State.gpaWalk (s : State) (world gpa : Nat) : Option Leaf × State :=
  if gpa < 2 ^ 52 then State.walk2 world gpa 4 s (s.world world).s2root else (none, s)

def State.stage2 (s : State) (world gpa : Nat) : Option Leaf := (s.gpaWalk world gpa).1

/-- What the stage-2 walks for some guest-physical addresses read is read: one for each page (R326, R335). -/
def State.walkedGpa (s : State) (world : Nat) (gpas : List Nat) : State :=
  (gpas.map (· / 16384)).eraseDups.foldl (fun x p => (x.gpaWalk world (p * 16384)).2) s

/-- Check 5 of R180 for a guest-physical access on the leaf of its page: the physical address, or none where F_OWNER is raised
(R322). -/
def State.leafAccess (s : State) (world gpa : Nat) (k : AccKind) : Option Leaf → Option Nat
  | none => none
  | some l =>
    if (k.writes && !l.w) || (k ≠ .write && !l.r) then none
    else if s.potAllows world l.page k then some (l.page * 16384 + gpa % 16384)
    else none

def State.gpaAccess (s : State) (world gpa : Nat) (k : AccKind) : Option Nat := s.leafAccess world gpa k (s.stage2 world gpa)

/-- The stage-1 walk: table reads go through stage 2 (R326). A denied table read raises F_OWNER, a bad descriptor
F_PAGE. -/
def State.walk1 (world a : Nat) : Nat → State → Nat → Except FaultCode Leaf × State
  | 0, s, _ => (.error .page, s)
  | n + 1, s, tbl =>
    let level := 3 - n
    let gpa := tbl + 8 * levelIndex level a
    let g := s.gpaWalk world gpa
    match g.2.leafAccess world gpa .read g.1 with
    | none => (.error .owner, g.2)
    | some pa =>
      let d := g.2.readDesc world pa
      if !descOk false level d.1 then (.error .page, d.2)
      else if bitOf d.1 1 then State.walk1 world a n d.2 (field d.1 51 14 * 16384)
      else (.ok (leafOf level d.1 a), d.2)

/-- The TLB entry a core uses for a page, its own before its cluster's (R326). -/
def State.tlbFind (s : State) (core world vpage : Nat) : Option TlbEntry :=
  match s.tlb.find? fun e => !e.cluster && e.unit == core && e.world == world && e.vpage == vpage with
  | some e => some e
  | none => s.tlb.find? fun e => e.cluster && e.unit == core / 8 && e.world == world && e.vpage == vpage

/-- The translation of a page as both stages give it now, with what the walks' reads leave; a page that stage 2 does not map has
no physical page of the usable memory and no stage-2 permission, so that check 4 still comes before check 5 (R180). -/
def State.pageWalk (s : State) (core world va : Nat) : Except FaultCode TlbEntry × State :=
  match State.walk1 world va 4 s (s.world world).s1root with
  | (.error e, s1) => (.error e, s1)
  | (.ok l, s1) =>
    let g := s1.gpaWalk world (l.page * 16384)
    let m := g.1.getD { page := usablePages, r := false, w := false, x := false }
    (.ok { cluster := false, unit := core, world := world, vpage := va / 16384, gpage := l.page, ppage := m.page,
           r := l.r, w := l.w, x := l.x, r2 := m.r, w2 := m.w }, g.2)

def State.walkPage (s : State) (core world va : Nat) : Except FaultCode TlbEntry := (s.pageWalk core world va).1

/-- What the walks for some virtual addresses read is read: one walk for each page that no TLB of the core holds (R326,
R335). -/
def State.walked (s : State) (core world : Nat) (vas : List Nat) : State :=
  ((vas.filter fun va => decide (va < 2 ^ 58)).map (· / 16384)).eraseDups.foldl (fun x p =>
    if (x.tlbFind core world p).isSome then x else (x.pageWalk core world (p * 16384)).2) s

/-- The stage-1 permission an access needs (R180 check 4, R325). -/
def TlbEntry.stage1 (e : TlbEntry) (k : AccKind) : Bool :=
  match k with
  | .read => e.r
  | .write => e.w
  | .atomic => e.r && e.w
  | .fetch => e.x

/-- The stage-2 permission an access needs (R325). -/
def TlbEntry.stage2 (e : TlbEntry) (k : AccKind) : Bool :=
  match k with
  | .read | .fetch => e.r2
  | .write => e.w2
  | .atomic => e.r2 && e.w2

/-- Checks 3 to 5 of R180 on one virtual address for a core and world: the physical address, or the fault. -/
def State.translate (s : State) (core world va : Nat) (k : AccKind) : Except FaultCode Nat :=
  if 2 ^ 58 ≤ va then .error .page
  else
    let found : Except FaultCode TlbEntry := match s.tlbFind core world (va / 16384) with
      | some e => .ok e
      | none => s.walkPage core world va
    match found with
    | .error c => .error c
    | .ok e =>
      if !e.stage1 k then .error .perm
      else if !e.stage2 k || !s.potAllows world e.ppage k then .error .owner
      else .ok (e.ppage * 16384 + va % 16384)

/-- Which check of R180 a fault belongs to. -/
def faultRank : FaultCode → Nat
  | .align => 1
  | .scratch => 2
  | .page => 3
  | .perm => 4
  | _ => 5

/-- The fault that R180 reports, of those of lanes or addresses in ascending order: the earliest check, then the first. -/
def firstFault : List (Nat × FaultCode × Nat) → Option (Nat × FaultCode × Nat)
  | [] => none
  | x :: r =>
    match firstFault r with
    | none => some x
    | some y => if faultRank y.2.1 < faultRank x.2.1 then some y else some x

/-- The first address of a range of bytes in each page it touches. -/
def pageStarts (va n : Nat) : List Nat :=
  (List.range (ceilDiv (va % 16384 + n) 16384)).map fun i => if i = 0 then va else (va / 16384 + i) * 16384

/-- Checks 3 to 5 of R180 on some addresses, each check on all of them before the next: the fault and its address. -/
def State.checkAddrs (s : State) (core world : Nat) (k : AccKind) (vas : List Nat) : Except (FaultCode × Nat) Unit :=
  match firstFault (vas.filterMap fun va => match s.translate core world va k with
    | .error c => some (0, c, va)
    | .ok _ => none) with
  | some e => .error e.2
  | none => .ok ()

/-- Checks 3 to 5 of R180 on a range of bytes. -/
def State.checkRange (s : State) (core world va n : Nat) (k : AccKind) : Except (FaultCode × Nat) Unit :=
  if n = 0 then .ok () else s.checkAddrs core world k (pageStarts va n)

/-! ### What a cluster sees (R216, R330) -/

/-- A cluster's copy of a line under its world's tag (R330). -/
def State.l2Find (s : State) (cluster world line : Nat) : Option L2Line :=
  s.l2.find? fun x => x.cluster == cluster && x.world == world && x.line == line

/-- The gathered byte a cluster holds for an address, newest (R216). -/
def State.gatheredAt (s : State) (cluster world pa : Nat) : Option Byte :=
  (s.gathers.find? fun g => g.cluster == cluster && g.world == world && g.addr == pa).map fun g => g.val

/-- A byte as the cluster's L2 gives it: what it has gathered over the coherent line (R216). -/
def State.clusterByte (s : State) (cluster world pa : Nat) : Byte :=
  (s.gatheredAt cluster world pa).getD (Sparse.get memDefault s.mem pa)

def State.clusterRead (s : State) (cluster world pa : Nat) : Nat → List Byte
  | 0 => []
  | n + 1 => s.clusterByte cluster world pa :: s.clusterRead cluster world (pa + 1) n

/-- A cluster has gathered a line whole for a world: its loads read none of the line below (R181). -/
def State.gatheredWhole (s : State) (cluster world line : Nat) : Bool :=
  s.gathers.any fun g => g.cluster == cluster && g.world == world && lineOf g.addr == line && g.whole

/-- A read of a line for a core or one of its engines: the cluster's gathered bytes or L2 serve it, or a level below does, to which
its packets go, and delivers a fault or not (R181, R216, R333, R335). The hub has no port of its own. -/
def State.loadLine (cluster world : Nat) (s : State) (line : Nat) : Option DataFault × State :=
  if s.gatheredWhole cluster world line then (none, s)
  else if (s.l2Find cluster world line).isSome then (if (s.lineMeta line).p then some .integrity else none, s)
  else if cluster < 16 then (s.homeTrip cluster world line false).readLine world line
  else s.readLine world line

/-! ### The range access log (R341, R342) -/

/-- AGENT of a log record: class and number (R342). -/
def logAgent (cls n : Nat) : Nat := cls * 4096 + n % 4096

/-- OPS bits (R341). -/
def logRead : Nat := 0
def logWrite : Nat := 1
def logAtomic : Nat := 2
def logNearBank : Nat := 3
def logLayerF : Nat := 4
def logLayerT : Nat := 5
def logLayerP : Nat := 6

/-- Hub cycles of a log window (R342). -/
def logWindow : Nat := 1600

/-- An access coalesced into the pending records of a log. -/
def addPend (l : List LogPend) (x : LogPend) : List LogPend :=
  if l.any fun p => p.agent == x.agent && p.op == x.op && p.entry == x.entry
      && p.time / logWindow == x.time / logWindow then
    l.map fun p =>
      if p.agent = x.agent ∧ p.op = x.op ∧ p.entry = x.entry ∧ p.time / logWindow = x.time / logWindow
      then { p with bytes := p.bytes + x.bytes, gran := min p.gran x.gran, coal := true } else p
  else l ++ [x]

/-- An access of a world to `span` granules from `unit` on (or to a handle) noted against the watch entries of a kind
(R341, R342): each range that it touches counts it, at the lowest granule in the range. -/
def State.noteLog (s : State) (world kind agent op unit span amount : Nat) : State :=
  let x := s.world world
  let hits := (x.log.watch.zip (List.range x.log.watch.length)).filter fun p =>
    p.1.kind == kind && bitOf p.1.ops op && decide (p.1.lo < unit + span) && decide (unit < p.1.hi)
  if hits = [] then s
  else
    let pend := hits.foldl (fun l p =>
      addPend l { agent := agent, op := op, entry := p.2, time := s.hubTime, bytes := amount, gran := max unit p.1.lo,
                  coal := false }) x.log.pend
    s.setWorld world { x with log := { x.log with pend := pend } }

/-- The guest-physical address a virtual address has for a core's world now. -/
def State.gpaOf (s : State) (core world va : Nat) : Nat :=
  match s.tlbFind core world (va / 16384) with
  | some e => e.gpage * 16384 + va % 16384
  | none =>
    match (State.walk1 world va 4 s (s.world world).s1root).1 with
    | .ok l => l.page * 16384 + va % 16384
    | .error _ => 0

/-- A line of a world whose GPA is `gpa` noted where no cache above the controller serves it (R341). -/
def State.noteLine (s : State) (world agent op gpa line : Nat) : State :=
  if s.cachedLine world line then s else s.noteLog world 0 agent op (gpa / 64) 2 128

/-- An access of an agent of a core to bytes of one page noted in its world's log, line by line where the cluster's L2 does not
hold the line (R341). -/
def State.noteMem (s : State) (core world agent op va pa n : Nat) : State :=
  if (s.world world).log.watch.isEmpty then s
  else
    let g := s.gpaOf core world va / 128 * 128
    ((linesOf pa n).zip (List.range n)).foldl (fun x p =>
      if (x.l2Find (core / 8) world p.1).isSome then x else x.noteLine world agent op (g + 128 * p.2) p.1) s

/-! ### Accesses of the device at virtual addresses (R180, R216, R335) -/

/-- The code of a data fault (R181). -/
def dataCode : DataFault → FaultCode
  | .integrity => .integrity
  | .uncorr => .uncorr

/-- Physical address of a virtual address that has passed its checks. -/
def State.physical (s : State) (core world : Nat) (k : AccKind) (va : Nat) : Nat :=
  match s.translate core world va k with
  | .ok pa => pa
  | .error _ => 0

/-- The lines of a range of virtual addresses, each with the first address of the range in it. -/
def State.rangeLines (s : State) (core world : Nat) (k : AccKind) (va n : Nat) : List (Nat × Nat) :=
  (lineStarts va n).map fun a => (lineOf (s.physical core world k a), a)

/-- The address a list of lines and addresses gives for a line. -/
def addrOn (lines : List (Nat × Nat)) (line : Nat) : Nat := ((lines.find? fun p => p.1 == line).getD (0, 0)).2

/-- A read through both stages, noted in the world's log for an agent that R342 names: the bytes, or the fault of a check or of a line's data with its address; and what its
walks and reads leave. -/
def State.readVirt (s : State) (core world : Nat) (agent : Option Nat) (va n : Nat) : Except (FaultCode × Nat) (List Byte) × State :=
  let s1 := s.walked core world (pageStarts va n)
  match s.checkRange core world va n .read with
  | .error e => (.error e, s1)
  | .ok _ =>
    let lines := s.rangeLines core world .read va n
    let s2 := match agent with
      | some a => lines.foldl (fun x p => x.noteMem core world a logRead p.2 (128 * p.1) 1) s1
      | none => s1
    match State.readAll (State.loadLine (core / 8) world) s2 (lines.map (·.1)) with
    | (some (l, f), s3) => (.error (dataCode f, addrOn lines l), s3)
    | (none, s3) =>
      (.ok ((List.range n).map fun i => s3.clusterByte (core / 8) world (s.physical core world .read (va + i))), s3)

/-- The pieces of some bytes in each line they touch; `fuel` bounds the lines. -/
def lineChunks : Nat → Nat → List Byte → List (Nat × List Byte)
  | 0, _, _ => []
  | f + 1, va, bs =>
    if bs = [] then [] else (va, bs.take (128 - va % 128)) :: lineChunks f (va + (128 - va % 128)) (bs.drop (128 - va % 128))

/-- A write by the device through both stages with the checks of R180, whole or not at all; what the cluster has
gathered for a line goes to it first (R216), and the core's L1 copies go. The fault, or none; and the state after. -/
def State.writeVirt (s : State) (core world va : Nat) (bs : List Byte) (agent : Option (Nat × Nat)) :
    Option (FaultCode × Nat) × State :=
  let s1 := s.walked core world (pageStarts va bs.length)
  match s.checkRange core world va bs.length .write with
  | .error e => (some e, s1)
  | .ok _ =>
    (none, (lineChunks (bs.length / 128 + 2) va bs).foldl (fun x p =>
      let pa := s.physical core world .write p.1
      ({ x with l1 := x.l1.filter fun l => !(l.core == core && l.line == lineOf pa) }.mergeLine (core / 8) (lineOf pa)).homeWrite
        agent pa p.2) s1)

/-- A write that the device makes for a warp: each line is noted in the world's log (R341), and one whose packet fails is not
written, with a record that names the instruction (R333, R383). -/
def State.storeVirt (s : State) (by' : Origin) (world va : Nat) (bs : List Byte) : Option (FaultCode × Nat) × State :=
  let s1 := s.walked by'.core world (pageStarts va bs.length)
  match s.checkRange by'.core world va bs.length .write with
  | .error e => (some e, s1)
  | .ok _ =>
    (none, (lineChunks (bs.length / 128 + 2) va bs).foldl (fun x p =>
      let pa := s.physical by'.core world .write p.1
      let y := x.noteMem by'.core world (logAgent 0 by'.core) logWrite p.1 pa p.2.length
      if y.packetFails (lineOf pa) then (y.dropPacket (lineOf pa)).lostWrite world { by' with va := p.1 }
      else
        (({ y with l1 := y.l1.filter fun l => !(l.core == by'.core && l.line == lineOf pa) }.homeTrip (by'.core / 8) world
          (lineOf pa) true).mergeLine (by'.core / 8) (lineOf pa)).homeWrite (some (by'.team, by'.warp)) pa p.2) s1)

end Sys2Proof.Machine
end

