-- ==== Sys2Proof/Machine/Ops.lean ====
section
/-! DEFINITION. The named operations the meanings share: the selected warp, registers, the program counter, taking a
fault, entering and leaving the trap handler, counters. -/

namespace Sys2Proof.Machine

/-- Outcomes of this machine. -/
abbrev Out := Host.Outcome State Fault Refusal

/-! ### Teams and warps -/

def State.findTeam (s : State) (uid : Nat) : Option Team := s.teams.find? fun t => t.uid == uid

def State.putTeam (s : State) (t : Team) : State :=
  { s with teams := s.teams.map fun x => if x.uid = t.uid then t else x }

def State.updTeam (s : State) (uid : Nat) (f : Team → Team) : State :=
  { s with teams := s.teams.map fun x => if x.uid = uid then f x else x }

def Team.warp (t : Team) (j : Nat) : Option Warp := t.warps[j]?

def Team.putWarp (t : Team) (j : Nat) (w : Warp) : Team := { t with warps := t.warps.set j w }

def Team.updWarp (t : Team) (j : Nat) (f : Warp → Warp) : Team := { t with warps := t.warps.modify j f }

def State.updWarp (s : State) (uid j : Nat) (f : Warp → Warp) : State := s.updTeam uid fun t => t.updWarp j f

def State.findWarp (s : State) (uid j : Nat) : Option (Team × Warp) :=
  match s.findTeam uid with
  | none => none
  | some t =>
    match t.warp j with
    | none => none
    | some w => some (t, w)

/-- The warp whose instruction issues: resident and running. -/
def State.curWarp (s : State) : Option (Team × Nat × Warp) :=
  match s.cur with
  | none => none
  | some (uid, j) =>
    match s.findWarp uid j with
    | none => none
    | some (t, w) => if t.place = .resident ∧ w.status = .running then some (t, j, w) else none

def State.findLaunch (s : State) (uid : Nat) : Option Launch := s.launches.find? fun l => l.uid == uid

def State.updLaunch (s : State) (uid : Nat) (f : Launch → Launch) : State :=
  { s with launches := s.launches.map fun x => if x.uid = uid then f x else x }

def State.coreSt (s : State) (c : Nat) : CoreSt := (KMap.find s.cores c).getD CoreSt.reset

def State.setCore (s : State) (c : Nat) (x : CoreSt) : State := { s with cores := KMap.put s.cores c x }

def State.findOp (s : State) (id : Nat) : Option Op := s.ops.find? fun o => o.id == id

def State.putOp (s : State) (o : Op) : State :=
  { s with ops := s.ops.map fun x => if x.id = o.id then o else x }

def State.dropOp (s : State) (id : Nat) : State := { s with ops := s.ops.filter fun o => o.id != id }

/-- A free number below `n`, and the counter advanced (0 when `n` is 0). -/
def State.pick (s : State) (n : Nat) : Nat × State :=
  (Config.freeNat s.fresh % n, { s with fresh := s.fresh + 1 })

/-! ### Registers (R7, R76, R142) -/

/-- A scalar register; s63 reads zero. -/
def Warp.sget (w : Warp) (r : Nat) : Word := if r = 63 then 0 else Sparse.get 0 w.sregs r

/-- A write to s63 is discarded (R76). -/
def Warp.sset (w : Warp) (r : Nat) (v : Word) : Warp :=
  if r = 63 then w else { w with sregs := Sparse.set 0 w.sregs r v }

/-- A pair of scalar registers, the even one low (R142). -/
def Warp.sget64 (w : Warp) (r : Nat) : DWord := (w.sget (r + 1)).append (w.sget r)

def Warp.sset64 (w : Warp) (r : Nat) (v : DWord) : Warp :=
  (w.sset r (v.extractLsb' 0 32)).sset (r + 1) (v.extractLsb' 32 32)

/-- The key of vector register `r` in lane `l`. -/
def vkey (r l : Nat) : Nat := 32 * r + l

def Warp.vget (w : Warp) (r l : Nat) : Word := Sparse.get 0 w.vregs (vkey r l)

/-- A write of one lane of a vector register; it clears the lane's poison mark (R181). -/
def Warp.vset (w : Warp) (r l : Nat) (v : Word) : Warp :=
  { w with vregs := Sparse.set 0 w.vregs (vkey r l) v, poison := KMap.erase w.poison (vkey r l) }

def Warp.vget64 (w : Warp) (r l : Nat) : DWord := (w.vget (r + 1) l).append (w.vget r l)

def Warp.vset64 (w : Warp) (r l : Nat) (v : DWord) : Warp :=
  (w.vset r l (v.extractLsb' 0 32)).vset (r + 1) l (v.extractLsb' 32 32)

/-- A predicate register as one bit per lane; p7 reads 1 (R7). -/
def Warp.pget (w : Warp) (p : Nat) : LaneMask := if p = 7 then allLanes else Sparse.get 0 w.preds p

/-- A write to p7 is discarded; otherwise the lanes of `m` take the bits of `v` (R76, R141). -/
def Warp.psetLanes (w : Warp) (p : Nat) (m v : LaneMask) : Warp :=
  if p = 7 then w else { w with preds := Sparse.set 0 w.preds p ((w.pget p &&& ~~~m) ||| (v &&& m)) }

/-- Poison marks that reading the registers in the lanes of `m` meets, lowest register and lane first (R181). -/
def Warp.poisoned (w : Warp) (regs : List Nat) (m : LaneMask) : Option (Nat × Poison) :=
  ((lanesOf m).flatMap fun l => regs.filterMap fun r =>
    (KMap.find w.poison (vkey r l)).map fun p => (l, p)).head?

/-! ### Troubles (R350, R356) -/

/-- What a meaning says of the fault it raises. -/
structure Trouble where
  code : FaultCode
  lane : Nat := 0xFF
  addr : Nat := 0
  opaddr : Nat := 0
  prog : Nat := 0
  detail : Nat := 0
  deferred : Bool := false
  atHeader : Bool := false
  deriving DecidableEq, Repr, Inhabited

/-- A deferred data fault as R181 and R356 report it: OPADDR names the load's header, PROG its index. -/
def Trouble.ofPoison (lane : Nat) (p : Poison) : Trouble :=
  { code := dataCode p.fault, lane := lane, addr := p.addr, opaddr := p.hdr.toNat, prog := p.idx, deferred := true }

/-- The fault of a read that a warp's instruction, or its fetch, makes at issue (R79, R350): a data fault is a deferred one that names
the instruction itself (R349, R356). -/
def Warp.readTrouble (w : Warp) (e : FaultCode × Nat) : Trouble :=
  if e.1 = .integrity ∨ e.1 = .uncorr then
    { code := e.1, addr := e.2, opaddr := w.hdr.toNat, prog := w.idx, deferred := true }
  else { code := e.1, addr := e.2 }

/-- TAKING A FAULT (R350): the warp is suspended with its PC at the instruction, and one record is handed to its
source; everything else continues. The record's SOURCE and SEQ stay with the warp until it leaves suspension. -/
def State.suspend (s : State) (t : Team) (j : Nat) (w : Warp) (x : Trouble) : State :=
  let src := warpSource t.core w.slot
  let seq := s.nextSeq t.world src
  let info : FaultInfo :=
    { code := x.code, precise := !x.deferred, parked := false, deferred := x.deferred, status := false,
      lane := x.lane, teamId := t.teamId, warpId := j, core := t.core, index := if x.atHeader then 0xFF else w.idx,
      hdr := w.hdr, addr := x.addr, opaddr := x.opaddr, prog := x.prog, detail := x.detail, rid := 0 }
  (s.post evFault t.world src info.body).updWarp t.uid j fun _ =>
    { w with status := .suspended src seq x.atHeader (decide (x.code = .trap)), inRep := false }

/-! ### Issuing -/

/-- What a meaning answers for the warp that issues it: `done`, the effect took place and the PC moves past the
word; `goto`, the effect set the PC itself; `hold`, the instruction does not issue now (the warp is not ready);
`trap`, it raises a fault. The first two give the rest of the state and the warp. -/
inductive Issue where
  | done (s : State) (w : Warp)
  | goto (s : State) (w : Warp)
  | hold
  | trap (s : State) (w : Warp) (x : Trouble)

/-- The state after what a warp's instruction answered. What the warp has learnt of writes to lines (R195) is the
state's. -/
def State.finish (s : State) (t : Team) (j : Nat) : Issue → State
  | .done s' w => s'.updWarp t.uid j fun x => { w.advance with watched := x.watched }
  | .goto s' w => s'.updWarp t.uid j fun x => { w with watched := x.watched }
  | .hold => { s with held := true }
  | .trap s' w x => s'.suspend t j w x

/-- An instruction of the selected warp. -/
def onWarp (s : State) (f : Team → Nat → Warp → Issue) : Out :=
  match s.curWarp with
  | none => .fault .noWarp
  | some (t, j, w) => .next (s.finish t j (f t j w))

/-- F_ILLEGAL with nothing done. -/
def illegal (s : State) (w : Warp) : Issue := .trap s w { code := .illegal }

/-- An instruction that is F_ILLEGAL unless `ok` (R76, R79 step 5, and the legality its rule gives). -/
def require (ok : Bool) (s : State) (w : Warp) (k : Issue) : Issue := if ok then k else illegal s w

/-- An instruction that reads the registers in the lanes of `m`: a poisoned one raises its deferred fault (R181). -/
def reading (s : State) (w : Warp) (regs : List Nat) (m : LaneMask) (k : Issue) : Issue :=
  match w.poisoned regs m with
  | some (l, p) => .trap s w (Trouble.ofPoison l p)
  | none => k

/-- A vector register below t' (R39). -/
def Team.okV (t : Team) (r : Nat) : Bool := decide (r < t.nregs)
/-- An even vector pair below t' (R76). -/
def Team.okV2 (t : Team) (r : Nat) : Bool := r % 2 == 0 && decide (r + 1 < t.nregs)
/-- A vector quad below t' (R76). -/
def Team.okV4 (t : Team) (r : Nat) : Bool := r % 4 == 0 && decide (r + 3 < t.nregs)
/-- An even scalar pair (R76). -/
def okS2 (r : Nat) : Bool := r % 2 == 0

/-! ### Lanes and the reconvergence check (R49 to R51, R168 to R170) -/

/-- live(m): a mask without the lanes that have exited, nor, while a record is held, the parked lanes (R49, R168). -/
def Warp.liveOf (w : Warp) (m : LaneMask) : LaneMask :=
  match w.park with
  | some p => m &&& w.live &&& ~~~p.lanes
  | none => m &&& w.live

/-- What the check of R51 ends in. -/
inductive Reconverged where
  | at (w : Warp)
  | exited (w : Warp)
  | maskFault (w : Warp)

/-- The warp put back at its parked word with the parked lanes and the record cleared (R169, R170). -/
def Warp.unpark (w : Warp) (p : Park) : Warp :=
  { w with active := p.lanes, park := none, hdr := p.hdr, idx := p.idx, clause := some p.clause }

/-- The address of the parked word (R168). -/
def Park.addr (p : Park) : DWord := p.hdr + BitVec.ofNat 64 (4 * (p.idx + 1))

/-- The loop of R51 from address `a`; `fuel` bounds the entries (each is switched once and popped once). While a
record is held, popping an entry that holds a parked lane, or ending with none active, is F_MASK (R169). -/
def Warp.reconverge : Nat → Warp → DWord → Reconverged
  | 0, w, a => .at { w with hdr := a }
  | f + 1, w, a =>
    match w.stack with
    | [] =>
      if w.liveOf w.active = 0 then
        match w.park with
        | some p => .maskFault (w.unpark p)
        | none => .exited { w with hdr := a, idx := 0, clause := none }
      else .at { w with hdr := a }
    | e :: r =>
      if a = e.join ∨ w.liveOf w.active = 0 then
        if e.phase = false ∧ w.liveOf e.pend ≠ 0 then
          Warp.reconverge f { w with stack := { e with phase := true } :: r, active := w.liveOf e.pend } e.tgt
        else
          match w.park with
          | some p =>
            if e.mask &&& p.lanes ≠ 0 then .maskFault (w.unpark p)
            else Warp.reconverge f { w with stack := r, active := w.liveOf e.mask } e.join
          | none => Warp.reconverge f { w with stack := r, active := w.liveOf e.mask } e.join
      else .at { w with hdr := a }

/-- Fuel that suffices for a warp's stack. -/
def Warp.reconvergeFuel (w : Warp) : Nat := 2 * w.stack.length + 2

/-! ### Counters and tokens (R150, R183) -/

def Warp.ctr (w : Warp) : Ctr → Nat
  | .l => w.cntL
  | .s => w.cntS
  | .c => w.cntC
  | .t => w.cntT

def Warp.setCtr (w : Warp) (ct : Ctr) (n : Nat) : Warp :=
  match ct with
  | .l => { w with cntL := n }
  | .s => { w with cntS := n }
  | .c => { w with cntC := n }
  | .t => { w with cntT := n }

def Warp.token (w : Warp) (k : Nat) : Nat := Sparse.get 0 w.tokens k

def Warp.setToken (w : Warp) (k n : Nat) : Warp := { w with tokens := Sparse.set 0 w.tokens k n }

/-- Whether the counter and token can be raised: neither stands at 63 (R150). -/
def Warp.canRaise (w : Warp) (ct : Option Ctr) (k : Option Nat) : Bool :=
  (match ct with
    | some ct => decide (w.ctr ct < 63)
    | none => true) &&
  (match k with
    | some k => decide (w.token k < 63)
    | none => true)

def Warp.raiseCtr (w : Warp) (ct : Option Ctr) (k : Option Nat) : Warp :=
  let w1 := match ct with
    | some ct => w.setCtr ct (w.ctr ct + 1)
    | none => w
  match k with
  | some k => w1.setToken k (w1.token k + 1)
  | none => w1

/-- The counter and token fall (R183). -/
def Warp.lowerCtr (w : Warp) (ct : Option Ctr) (k : Option Nat) : Warp :=
  let w1 := match ct with
    | some ct => w.setCtr ct (w.ctr ct - 1)
    | none => w
  match k with
  | some k => w1.setToken k (w1.token k - 1)
  | none => w1

/-- All tokens named in a mask are zero (R67, R81). -/
def Warp.tokensZero (w : Warp) (kmask : Nat) : Bool :=
  (List.range 8).all fun k => !bitOf kmask k || w.token k == 0

/-- An operation put in flight for the selected warp: its counter and token rise (R183, R238). -/
def State.launchOp (s : State) (w : Warp) (o : Op) : State × Warp :=
  ({ s with ops := s.ops ++ [{ o with id := s.nextUid }], nextUid := s.nextUid + 1 }, w.raiseCtr o.ctr o.kn)

/-- The instruction of a warp that the device writes for (R383). -/
def Warp.origin (w : Warp) (t : Team) (j : Nat) : Origin :=
  { team := t.uid, teamId := t.teamId, warp := j, core := t.core, hdr := w.hdr, idx := w.idx, va := 0 }

/-- An operation of a warp with the common fields filled. -/
def mkOp (t : Team) (j : Nat) (w : Warp) (kn : Option Nat) (ctr : Option Ctr) (kind : OpKind) : Op :=
  { id := 0, world := t.world, core := t.core, team := t.uid, warp := j, hdr := w.hdr, idx := w.idx, kn := kn,
    ctr := ctr, opaddr := 0, blkpa := 0, kind := kind, reads := [], writes := [], readDone := false,
    writeDone := false, tiles := [], ticket := none, fenced := w.fenced, parked := none, rid := none, trouble := none,
    inTprog := false, paused := false }

/-- The operation ends: its counter and token fall and it is no longer in flight. -/
def State.retire (s : State) (o : Op) : State :=
  (s.dropOp o.id).updWarp o.team o.warp fun w => w.lowerCtr o.ctr o.kn

/-- Flags an asynchronous operation raised reach its warp's FPSTAT (R114). -/
def State.mergeFlags (s : State) (o : Op) (f : Flags) : State :=
  s.updWarp o.team o.warp fun w => { w with fpstat := w.fpstat ||| f }

/-! ### Named barriers (R54, R154) -/

def Team.barrier (t : Team) (n : Nat) : Barrier := (KMap.find t.bars n).getD Barrier.reset

/-- Warp `j` has arrived in the phase of barrier `n` that has not completed. -/
def Team.arrivedAt (t : Team) (n j : Nat) : Bool :=
  match t.warp j with
  | some w => KMap.find w.arrivals n == some false
  | none => false

def Team.blockedAt (t : Team) (n j : Nat) : Bool :=
  match t.warp j with
  | some w => w.status == .bhold n
  | none => false

/-! ### Older values (R138, R176, R201) -/

/-- Warp `j` is ordered after the writes of the values that satisfy `p`. -/
def Team.learn (t : Team) (j : Nat) (p : OldValue → Bool) : Team :=
  { t with old := t.old.map fun e => if p e && !e.known.contains j then { e with known := e.known ++ [j] } else e }

/-- Values that every warp of the team is ordered after are no longer seen. -/
def Team.forget (t : Team) : Team :=
  { t with old := t.old.filter fun e => (List.range t.warps.length).any fun j => !e.known.contains j }

/-- Warp `j` arrives on barrier `n`: a release, of what it is ordered after (R55). -/
def Team.arriveOld (t : Team) (j n : Nat) : Team :=
  { t with old := t.old.map fun e =>
      { e with signal := if e.known.contains j && !e.signal.contains n then e.signal ++ [n] else e.signal,
               due := e.due.filter fun d => d != (n, j) } }

/-- A phase of barrier `n` completes: what was released in it is seen by the warps blocked at the barrier, and by those that
have arrived once they pass `bhold` (R55). -/
def Team.orderOld (t : Team) (n : Nat) : Team :=
  let js := List.range t.warps.length
  let waiting := js.filter fun j => t.blockedAt n j
  let later := js.filter fun j => t.arrivedAt n j && !t.blockedAt n j
  let old := t.old.map fun e =>
    if e.signal.contains n then
      { e with known := e.known ++ waiting.filter fun j => !e.known.contains j, signal := e.signal.filter fun b => b != n,
               due := e.due ++ later.map fun j => (n, j) }
    else e
  Team.forget { t with old := old }

/-- Warp `j` passes `bhold` of barrier `n`, whose phase it arrived in has completed (R55). -/
def Team.passOld (t : Team) (n j : Nat) : Team := (t.learn j fun e => e.due.contains (n, j)).forget

/-- A phase of barrier `n` completes: arrival records of the phase are marked complete, and the warps blocked on it
go on (R54, R55). -/
def Team.releaseBarrier (t : Team) (n : Nat) : Team :=
  let t1 := t.orderOld n
  { t1 with warps := t.warps.map fun w =>
      let w1 := { w with arrivals := w.arrivals.map fun a => if a.1 = n then (n, true) else a }
      if w1.status = .bhold n then Warp.proceed { w1 with status := .running } else w1 }

/-- Completed phases of barrier `n` are taken while E is set and A ≥ E (R54). -/
def Team.settleBarrier (t : Team) (n : Nat) : Team :=
  let b := t.barrier n
  match b.e with
  | none => t
  | some e =>
    if e ≤ b.a then
      let nb : Barrier := { phase := !b.phase, a := b.a - e, e := none }
      Team.releaseBarrier { t with bars := KMap.put t.bars n nb } n
    else t

/-- An arrival of `k` on barrier `n`; a `bpost` names the expected count (R54, R154). -/
def Team.arrive (t : Team) (n k : Nat) (expect : Option Nat) : Team :=
  let b := t.barrier n
  let e := match b.e with
    | some e => some e
    | none => expect
  let nb : Barrier := { b with a := min 4095 (b.a + k), e := e }
  Team.settleBarrier { t with bars := KMap.put t.bars n nb } n

/-! ### ASBASE, ASLIMIT and ASTOP (R176) -/

/-- One of the three by number. -/
def Team.asReg (t : Team) (r : Nat) : DWord :=
  match r with
  | 0 => t.asbase
  | 1 => t.aslimit
  | _ => t.astop

def Team.putAs (t : Team) (r : Nat) (v : DWord) : Team :=
  match r with
  | 0 => { t with asbase := v }
  | 1 => { t with aslimit := v }
  | _ => { t with astop := v }

/-- Warp `j` writes what had a value: it sees its own write, and the team's others may see the value before (R138, R176, R201). -/
def Team.leaveOld (t : Team) (j : Nat) (what : OldWhat) (v : DWord) : Team :=
  let e : OldValue := { what := what, writer := (t.uid, j), value := v, known := [j], signal := [], due := [] }
  let t1 := t.learn j fun e => e.what == what
  Team.forget { t1 with old := if t1.old.contains e then t1.old else t1.old ++ [e] }

/-- A `setsr` of one of the three by warp `j` (R176). -/
def Team.setAs (t : Team) (j r : Nat) (v : DWord) : Team := (t.leaveOld j (.stack r) (t.asReg r)).putAs r v

/-- One of the three registers of the activation stack. -/
def OldWhat.isStack : OldWhat → Bool
  | .stack _ => true
  | _ => false

/-- The older values that warp `j` may see. -/
def Team.mayBeOld (t : Team) (j : Nat) : List OldValue := t.old.filter fun e => !e.known.contains j

/-- What warp `j` sees of a value: the current one or one of the older ones it may see, as `k` chooses. -/
def Team.seen (t : Team) (j k : Nat) (what : OldWhat) (now : DWord) : DWord :=
  let vs := now :: ((t.mayBeOld j).filter fun e => e.what == what).map OldValue.value
  vs.getD (k % vs.length) now

/-- A slot field or one of the three registers put back to a value. -/
def Team.restoreOld (t : Team) (what : OldWhat) (v : DWord) : Team :=
  match what with
  | .stack r => t.putAs r v
  | .seed _ => t
  | .field slot off n => { t with slots := Sparse.setN 0 t.slots (slot * 128 + off) (leBytes n v.toNat) }

/-- The value that something written has now. -/
def State.nowOf (s : State) (t : Team) (what : OldWhat) : DWord :=
  match what with
  | .stack r => t.asReg r
  | .seed k => BitVec.ofNat 64 (Sparse.get 0 (s.world t.world).sg k).toNat
  | .field slot off n => BitVec.ofNat 64 (leVal (Sparse.getN 0 t.slots (slot * 128 + off) n))

/-- The team as warp `j` sees its slots and the three registers, the world's seeds as it sees them, and the state after: each thing
of which it may see an older value is separately a free choice (R138, R176, R201). `stack`: whether the instruction is one that R176
lets see older values of the three registers. -/
def State.seenFor (s : State) (t : Team) (j : Nat) (stack : Bool) : Team × Sparse Word × State :=
  let ws := (((t.mayBeOld j).map OldValue.what).filter fun e => stack || !e.isStack).eraseDups
  let sg := (s.world t.world).sg
  if ws = [] then (t, sg, s)
  else
    let vs := (ws.zip (List.range ws.length)).map fun p => (p.1, t.seen j (Config.freeNat (s.fresh + p.2)) p.1 (s.nowOf t p.1))
    (vs.foldl (fun x p => x.restoreOld p.1 p.2) t,
      vs.foldl (fun x p => match p.1 with
        | .seed k => Sparse.set 0 x k (p.2.setWidth 32)
        | _ => x) sg,
      { s with fresh := s.fresh + ws.length })

/-- A slot that takes a new map, or a new field, for every warp of the team (R200). -/
def Team.clearOld (t : Team) (slot : Nat) (p : Nat → Bool) : Team :=
  { t with old := t.old.filter fun e => match e.what with
      | .field i off _ => !(i == slot && p off)
      | _ => true }

/-- An instruction that reads slots, seeds, or ASBASE, ASLIMIT and ASTOP at issue, as its warp sees them. -/
def onSeeing (s : State) (stack : Bool) (f : State → Team → Sparse Word → Nat → Warp → Issue) : Out :=
  onWarp s fun t j w =>
    let v := s.seenFor t j stack
    f v.2.2 v.1 v.2.1 j w

/-! ### The trap handler (R357, R358) -/

/-- The warp's trap frame in its team's context area. -/
def Team.frameAddr (t : Team) (j : Nat) : Nat := t.ctxBase + 49408 + 64 * j

/-- The trap frame's 64 bytes (R357). -/
def trapFrame (w : Warp) (n : Nat) (rhdr : DWord) (ridx : Nat) : List Byte :=
  leBytes 8 rhdr.toNat ++ leBytes 1 ridx ++ leBytes 1 w.idx ++ leBytes 2 n ++ leBytes 4 w.active.toNat
    ++ leBytes 4 w.stack.length ++ leBytes 4 0 ++ leBytes 8 w.hdr.toNat
    ++ leBytes 4 (w.sget 56).toNat ++ leBytes 4 (w.sget 57).toNat ++ leBytes 4 (w.sget 58).toNat
    ++ leBytes 4 (w.sget 59).toNat ++ leBytes 16 0

/-- ENTERING THE TRAP HANDLER (R357): the frame is written, s56 to s59 are set, INTRAP is 1 and the PC is TRAPVEC. -/
def Warp.enterTrap (w : Warp) (frame : Nat) (n : Nat) (vec : DWord) : Warp :=
  { (((w.sset64 56 (BitVec.ofNat 64 frame)).sset 58 (BitVec.ofNat 32 n)).sset 59 0).leap vec with intrap := true }

/-- RETURNING FROM THE TRAP HANDLER (R358): s56 to s59, ACTIVE and the PC come from the frame, INTRAP is 0. -/
def Warp.leaveTrap (w : Warp) (frame : List Byte) : Warp :=
  let word := fun i => BitVec.ofNat 32 (leVal ((frame.drop i).take 4))
  let w1 := (((w.sset 56 (word 32)).sset 57 (word 36)).sset 58 (word 40)).sset 59 (word 44)
  { w1 with active := word 12, intrap := false, hdr := BitVec.ofNat 64 (leVal (frame.take 8)),
            idx := leVal ((frame.drop 8).take 1), clause := none, yielded := w.yielded || w.lastYields }

end Sys2Proof.Machine
end

