-- ==== Sys2Proof/Machine/Flags.lean ====
section
/-! DEFINITION. FPMODE, FPSTAT and the flags of floating-point results (R107 to R114). -/

namespace Sys2Proof.Machine

/-- The rounding mode a two-bit RM selects (R112). -/
def rmMode (n : Nat) : Mode :=
  match n with
  | 0 => .rne
  | 1 => .rtz
  | 2 => .rdn
  | _ => .rup

/-- The warp's rounding mode (R112). -/
def Warp.mode (w : Warp) : Mode := rmMode (field w.fpmode.toNat 1 0)

/-- The warp's FTZ (R112). -/
def Warp.ftz (w : Warp) : Bool := bitOf w.fpmode.toNat 2

/-- Flags merged into FPSTAT (R113): none is ever cleared. -/
def Warp.addFlags (w : Warp) (f : Flags) : Warp := { w with fpstat := w.fpstat ||| f }

/-- The flags of several results together. -/
def orFlags (l : List Flags) : Flags := l.foldl (· ||| ·) 0

/-- NV when one of the bit patterns is a signalling NaN (R107). -/
def snanFlag (f : Fmt) (bs : List Nat) : Flags := if bs.any f.isSNaN then flagNV else 0

/-- A rounded result with the flags of the exact operation and of the rounding (R161). -/
def deliver (f : Fmt) (mode : Mode) (ftz : Bool) (x : XR × Flags) : Nat × Flags :=
  let r := x.1.round f mode ftz
  (r.1, x.2 ||| r.2)

/-- a + b (R161). -/
def fadd (f : Fmt) (mode : Mode) (ftz : Bool) (a b : Nat) : Nat × Flags :=
  let r := deliver f mode ftz (XR.add mode (f.val ftz a) (f.val ftz b))
  (r.1, r.2 ||| snanFlag f [a, b])

/-- a − b (R161). -/
def fsub (f : Fmt) (mode : Mode) (ftz : Bool) (a b : Nat) : Nat × Flags :=
  let r := deliver f mode ftz (XR.add mode (f.val ftz a) (f.val ftz b).neg)
  (r.1, r.2 ||| snanFlag f [a, b])

/-- a × b (R161). -/
def fmul (f : Fmt) (mode : Mode) (ftz : Bool) (a b : Nat) : Nat × Flags :=
  let r := deliver f mode ftz (XR.mul (f.val ftz a) (f.val ftz b))
  (r.1, r.2 ||| snanFlag f [a, b])

/-- a × b + c, rounded once (R161). -/
def ffma (f : Fmt) (mode : Mode) (ftz : Bool) (a b c : Nat) : Nat × Flags :=
  let p := XR.mul (f.val ftz a) (f.val ftz b)
  let q := XR.add mode p.1 (f.val ftz c)
  let r := deliver f mode ftz (q.1, p.2 ||| q.2)
  (r.1, r.2 ||| snanFlag f [a, b, c])

/-- A bit pattern as FTZ reads it: a subnormal becomes a zero of its sign (R111). -/
def flushIn (f : Fmt) (ftz : Bool) (a : Nat) : Nat :=
  if ftz ∧ a % f.sign < 2 ^ f.mbits then (if f.neg a then f.sign else 0) else a

/-- Whether pattern `a` orders below or equal to `b`, with −0 below +0 (R107). -/
def orderLe (f : Fmt) (a b : Nat) : Bool :=
  let x := f.val false a
  let y := f.val false b
  XR.lt x y || (XR.eqv x y && (f.neg a || !f.neg b))

/-- minimumNumber and maximumNumber (R107, R161). -/
def fminmax (f : Fmt) (ftz max : Bool) (a b : Nat) : Nat × Flags :=
  let x := flushIn f ftz a
  let y := flushIn f ftz b
  let r :=
    if f.isNaN a then (if f.isNaN b then f.qnan else y)
    else if f.isNaN b then x
    else if orderLe f x y == max then y else x
  (r, snanFlag f [a, b])

/-- A bit pattern with its sign bit cleared or inverted; a NaN gives the canonical one (R161). -/
def fabsBits (f : Fmt) (a : Nat) : Nat := if f.isNaN a then f.qnan else a % f.sign
def fnegBits (f : Fmt) (a : Nat) : Nat :=
  if f.isNaN a then f.qnan else if f.neg a then a % f.sign else a % f.sign + f.sign

end Sys2Proof.Machine
end

