-- ==== Sys2Proof/Machine/Gavotte.lean ====
section
/-! DEFINITION. The Gavotte rotation, narrowing to INT8 and NQ4, rotation tags and the sums of the matrix unit (R120
to R137), on exact values. -/

namespace Sys2Proof.Machine

/-! ### Signs and seeds (R133, R134, R137) -/

/-- One step of the sign generator. -/
def lfsrNext (st : Word) : Word :=
  if st.getLsbD 0 then (st >>> 1) ^^^ 0x8020_0003#32 else st >>> 1

/-- The generator's start for a block (R133). -/
def lfsrStart (seed : Word) (bi : Nat) : Word :=
  let st := seed ^^^ BitVec.ofNat 32 (bi * 0x9E37_79B1)
  if st = 0 then 1 else st

/-- The outputs of `n` steps. -/
def lfsrBits : Nat → Word → List Bool
  | 0, _ => []
  | n + 1, st => st.getLsbD 0 :: lfsrBits n (lfsrNext st)

/-- `lfsr_sign` of the elements 0 to n − 1 of a block: true means negative (R133). -/
def lfsrSigns (seed : Word) (bi n : Nat) : List Bool := lfsrBits n (lfsrStart seed bi)

/-- fold(s) (R134). -/
def foldSeed (s : Word) : Nat :=
  (s.extractLsb' 24 8 ^^^ s.extractLsb' 16 8 ^^^ s.extractLsb' 8 8 ^^^ s.extractLsb' 0 8).toNat

/-- The tag of data rotated with a block code under a seed slot's value (R137). -/
def rotTag (blkc slot : Nat) (seed : Word) : Nat :=
  0x8000 + blkc * 2 ^ 13 + slot * 2 ^ 10 + foldSeed seed * 4

/-- Block code of a tag, seed slot of a tag, and whether a tag says rotated (R134). -/
def tagBlk (t : Nat) : Nat := field t 14 13
def tagSlot (t : Nat) : Nat := field t 12 10
def tagRotated (t : Nat) : Bool := bitOf t 15

/-- `tag_check` passes (R135). -/
def tagOk (sg : Sparse Word) (t : Nat) : Bool :=
  field t 1 0 == 0 &&
    (if tagRotated t then tagBlk t != 0 && field t 9 2 == foldSeed (Sparse.get 0 sg (tagSlot t)) else t == 0)

/-- Elements of a block by block code: identity stands alone (R128). -/
def blkSize (c : Nat) : Nat :=
  match c with
  | 1 => 16
  | 2 => 64
  | 3 => 256
  | _ => 1

/-! ### The rotation (R130, R131) -/

/-- The largest magnitude. -/
def maxAbs (xs : List XR) : XR := xs.foldl (fun m x => XR.max m x.abs) (.fin false 0 1)

/-- `align_block`: integers, the exponent, and whether a nonzero part was discarded (R130). -/
def alignBlock (xs : List XR) (W : Nat) : List Int × Int × Bool :=
  let e := (maxAbs xs).log2
  let sc := xs.map (XR.scale2 ((W : Int) - 2 - e))
  (sc.map (XR.toInt .rtz), e, sc.any fun x => !x.isInt)

/-- One stage of the butterflies with stride `2 ^ s` (R131). -/
def butterfly (s : Nat) (a : List Int) : List Int :=
  let h := 2 ^ s
  (List.range a.length).map fun i =>
    if bitOf i s then a.getD (i - h) 0 - a.getD i 0 else a.getD i 0 + a.getD (i + h) 0

/-- The stages 0 to k − 1 in order. -/
def butterflies (k : Nat) (a : List Int) : List Int := (List.range k).foldl (fun x s => butterfly s x) a

/-- `normalise` (R131): the outputs and whether a nonzero part was discarded. -/
def normalise (k : Nat) (a : List Int) (e : Int) (W : Nat) : List XR × Bool :=
  let q := 2 ^ (k / 2)
  (a.map fun v => XR.scale2 (e - (W : Int) + 2) (XR.ofInt ((XR.ofFrac v q).toInt .rne)),
   a.any fun v => v % (q : Int) ≠ 0)

/-- The elements with their signs applied. -/
def applySigns (signs : List Bool) (a : List Int) : List Int := (a.zip signs).map fun p => if p.2 then -p.1 else p.1

/-- Shared cases of the two rotations: a NaN or Inf, all zero, or the work itself. -/
def rotateCases (xs : List XR) (W : Nat) (k : Nat) (f : List Int → List Int) : List XR × Flags :=
  if xs.any fun x => !x.isFin then (xs.map fun _ => XR.nan, flagNV)
  else if xs.all XR.isZero then (xs.map fun _ => XR.fin false 0 1, 0)
  else
    let al := alignBlock xs W
    let r := normalise k (f al.1) al.2.1 W
    (r.1, if al.2.2 || r.2 then flagNX else 0)

/-- `gavotte_fwd` (R131) of a block of `2 ^ k` elements. -/
def gavotteFwd (xs : List XR) (seed : Word) (bi W : Nat) : List XR × Flags :=
  let k := Nat.log2 xs.length
  rotateCases xs W k fun a => butterflies k (applySigns (lfsrSigns seed bi xs.length) a)

/-- `gavotte_inv` (R131). -/
def gavotteInv (xs : List XR) (seed : Word) (bi W : Nat) : List XR × Flags :=
  let k := Nat.log2 xs.length
  rotateCases xs W k fun a => applySigns (lfsrSigns seed bi xs.length) (butterflies k a)

/-! ### Delivery (R132) -/

/-- An exact output rounded to a floating format; a zero is +0 (R132). -/
def deliverRot (f : Fmt) (x : XR) : Nat × Flags :=
  let r := x.rne f
  (if r.1 % f.sign = 0 then 0 else r.1, r.2)

/-- `narrow_i8` of one scale group: codes, the scale as FP32 bits, flags (R132); an infinity's u lies beyond FP32. -/
def narrowI8 (ys : List XR) : List Int × Nat × Flags :=
  if ys.any XR.isNaN then (ys.map fun _ => 0, fp32.qnan, flagNV)
  else if ys.any fun y => !y.isFin then (ys.map fun _ => 0, fp32.qnan, flagNV ||| flagOF)
  else if ys.all XR.isZero then (ys.map fun _ => 0, 0x3F80_0000, 0)
  else
    let u := max ((maxAbs ys).log2 - 6) (-149)
    if 127 < u then (ys.map fun _ => 0, fp32.qnan, flagNV ||| flagOF)
    else
      let t := ys.map (XR.scale2 (-u))
      let codes := t.map fun y => max (-128) (min 127 (y.toInt .rne))
      (codes, ((XR.fin false 1 1).scale2 u |>.rne fp32).1,
        if (t.zip codes).any fun p => !(XR.eqv p.1 (XR.ofInt p.2)) then flagNX else 0)

/-! ### NQ4 (R120 to R123) -/

/-- m_k of the codebook (R120). -/
def nq4Code (k : Nat) : Int :=
  ([-128, -91, -69, -53, -40, -28, -16, -5, 5, 16, 28, 40, 53, 69, 91, 128] : List Int).getD k 0

/-- An element's exact value from its code, its block scale and the superscale (R122). -/
def nq4Value (k q S : Nat) : XR :=
  match fp32.val false S with
  | .fin neg n d =>
    let m := nq4Code k
    .fin (neg != decide (m < 0)) (m.natAbs * q * n) (128 * 255 * d)
  | _ => .nan

/-- |x − y| of two fractions compared: whether `|t − a| < |t − b|`, with t = tn / td and a, b in 128ths. -/
def nearer (tn : Int) (td : Nat) (a b : Int) : Bool :=
  decide ((128 * tn - a * td).natAbs < (128 * tn - b * td).natAbs)

/-- Whether they are equally near. -/
def equallyNear (tn : Int) (td : Nat) (a b : Int) : Bool :=
  (128 * tn - a * td).natAbs == (128 * tn - b * td).natAbs

/-- `nq4_encode` (R123): the nearest code, ties to the smaller |m_k|. Between the codes 7 and 8, of equal
magnitude, the rule names none: a free choice. -/
def nq4Encode (fresh : Nat) (tn : Int) (td : Nat) : Nat :=
  if tn = 0 then 7 + Config.nq4Zero fresh % 2
  else
    (List.range 16).foldl (fun best k =>
      if nearer tn td (nq4Code k) (nq4Code best) ||
          (equallyNear tn td (nq4Code k) (nq4Code best) && decide ((nq4Code k).natAbs < (nq4Code best).natAbs))
      then k else best) 0

/-- `nq4_superscale` (R123). -/
def nq4Superscale (xs : List XR) : Nat := ((maxAbs xs).round fp32 .rup false).1

/-- One block of `nq4_superblock`: its q and its codes, S = n / d. -/
def nq4Block (fresh : Nat) (xs : List XR) (sneg : Bool) (n d : Nat) : Nat × List Nat :=
  match maxAbs xs with
  | .fin _ an ad =>
    let q := if n = 0 then 0 else if sneg then 0 else min 255 (ceilDiv (255 * an * d) (ad * n))
    (q, (xs.zip (List.range xs.length)).map fun p =>
      if q = 0 then 8
      else
        match p.1 with
        | .fin neg xn xd => nq4Encode (fresh + p.2) (signedNum neg (xn * 255 * d)) (xd * q * n)
        | _ => 8)
  | _ => (0, xs.map fun _ => 8)

/-- The list cut into pieces of `n` (`fuel` pieces at most). -/
def chunksOf {α : Type} (n : Nat) : Nat → List α → List (List α)
  | 0, _ => []
  | f + 1, l => match l with
    | [] => []
    | l => l.take n :: chunksOf n f (l.drop n)

/-- `nq4_superblock` (R123): codes, block scales, superscale, flags; elements of a short last superblock are given
as they are and the rest of its record is code 8 with q = 0 (R121). -/
def nq4Superblock (fresh : Nat) (xs : List XR) (S : Nat) : List Nat × List Nat × Nat × Flags :=
  match fp32.val false S with
  | .fin sneg n d =>
    if xs.any fun x => !x.isFin then (xs.map fun _ => 8, List.replicate (ceilDiv xs.length 64) 0, fp32.qnan, flagNV)
    else
      let bs := (chunksOf 64 (ceilDiv xs.length 64) xs).map fun b => (nq4Block fresh b sneg n d, b)
      let inexact := bs.any fun p => (p.1.2.zip p.2).any fun e => !(XR.eqv (nq4Value e.1 p.1.1 S) e.2)
      (bs.flatMap fun p => p.1.2, bs.map fun p => p.1.1, S, if inexact then flagNX else 0)
  | _ => (xs.map fun _ => 8, List.replicate (ceilDiv xs.length 64) 0, fp32.qnan, flagNV)

/-- The 8,512 bytes of a superblock record (R121). -/
def nq4Record (codes qs : List Nat) (S : Nat) : List Byte :=
  let cs := codes ++ List.replicate (16384 - codes.length) 8
  ((chunksOf 2 8192 cs).map fun p => BitVec.ofNat 8 (p.getD 0 8 + 16 * p.getD 1 8))
    ++ ((qs ++ List.replicate (256 - qs.length) 0).map fun q => BitVec.ofNat 8 q)
    ++ leBytes 4 S ++ leBytes 60 0

/-! ### The matrix unit's sums (R124 to R127) -/

/-- A sum of two FP64 patterns, round_rne, with its flags (R124). -/
def add64 (a b : Nat) : Nat × Flags := fadd fp64 .rne false a b

/-- One level of `chunk_sum`. -/
def chunkLevel : List Nat → List Nat × Flags
  | a :: b :: r =>
    let x := add64 a b
    let y := chunkLevel r
    (x.1 :: y.1, x.2 ||| y.2)
  | l => (l, 0)

/-- `n` levels. -/
def chunkLevels : Nat → List Nat → Nat × Flags
  | 0, l => (l.headD 0, 0)
  | n + 1, l =>
    let x := chunkLevel l
    let y := chunkLevels n x.1
    (y.1, x.2 ||| y.2)

/-- `chunk_sum` of up to 32 products; missing positions hold +0 (R124). -/
def chunkSum (p : List Nat) : Nat × Flags := chunkLevels 5 (p ++ List.replicate (32 - p.length) 0)

/-- The exact product of two BF16 patterns in FP64; NaN, Inf and their flags as IEEE 754-2019 gives them (R124,
R126). -/
def mulBf (a b : Nat) : Nat × Flags :=
  let p := XR.mul (bf16.val false a) (bf16.val false b)
  let r := p.1.rne fp64
  (r.1, p.2 ||| r.2 ||| snanFlag bf16 [a, b])

/-- `x − y` of FP32-sized exact values. -/
def subXR (x y : XR) : XR := (XR.add .rne x y.neg).1

/-- The slices hi, mid and lo of an FP32 operand as BF16 patterns (R126). All carry the sign of x. DESIGN CHOICE (R126 names no
flags): forming them raises none, even where lo loses bits (log 98). -/
def slices (x : Nat) : List Nat :=
  let s := if fp32.neg x then bf16.sign else 0
  match fp32.val false x with
  | .fin _ _ _ =>
    let v := fp32.val false x
    let hi := (v.abs.round bf16 .rtz false).1
    let r1 := subXR v.abs (bf16.val false hi)
    let mid := (r1.abs.round bf16 .rtz false).1
    let r2 := subXR r1 (bf16.val false mid)
    let lo := (r2.abs.round bf16 .rtz false).1
    [hi + s, mid + s, lo + s]
  | .nan => [bf16.qnan, 0, 0]
  | .inf _ => [bf16.inf + s, 0, 0]

/-- The passes in order, as slice numbers of A and B (R127). -/
def passes (nine : Bool) : List (Nat × Nat) :=
  let all := [(0, 0), (0, 1), (1, 0), (0, 2), (1, 1), (2, 0), (1, 2), (2, 1), (2, 2)]
  if nine then all else all.take 6

/-- The product of one pair in one pass (R126). -/
def passProduct (p : Nat × Nat) (a b : Nat) : Nat × Flags :=
  let special := !(fp32.val false a).isFin || !(fp32.val false b).isFin
  if special then
    if p = (0, 0) then
      let m := XR.mul (fp32.val false a) (fp32.val false b)
      let r := m.1.rne fp64
      (r.1, m.2 ||| r.2 ||| snanFlag fp32 [a, b])
    else (0, 0)
  else mulBf ((slices a).getD p.1 0) ((slices b).getD p.2 0)

/-- The chunks of a product of a row and a column, BF16: one term a chunk. -/
def bfTerms (xs : List (Nat × Nat)) : List (Nat × Flags) :=
  (chunksOf 32 (ceilDiv xs.length 32) xs).map fun c =>
    let ps := c.map fun p => mulBf p.1 p.2
    let s := chunkSum (ps.map (·.1))
    (s.1, s.2 ||| orFlags (ps.map (·.2)))

/-- The terms of an FP32 product: every pass of a chunk in order (R127). -/
def fpTerms (nine : Bool) (xs : List (Nat × Nat)) : List (Nat × Flags) :=
  (chunksOf 32 (ceilDiv xs.length 32) xs).flatMap fun c =>
    (passes nine).map fun k =>
      let ps := c.map fun p => passProduct k p.1 p.2
      let s := chunkSum (ps.map (·.1))
      (s.1, s.2 ||| orFlags (ps.map (·.2)))

/-- The terms added into an accumulator one after another (R124, R127). -/
def accumulate (acc : Nat) (terms : List (Nat × Flags)) : Nat × Flags :=
  terms.foldl (fun a t => let r := add64 a.1 t.1; (r.1, a.2 ||| t.2 ||| r.2)) (acc, 0)

end Sys2Proof.Machine
end

