-- ==== Sys2Proof/Machine/Maps.lean ====
section
/-! DEFINITION. Tensor maps and their checks, element addresses, scratchpad intervals and the range scoreboard (R185,
R197 to R199, R205, R225). -/

namespace Sys2Proof.Machine

/-! ### Slots and maps (R197) -/

/-- `n` bytes of a slot as a number. -/
def Team.slotNat (t : Team) (slot off n : Nat) : Nat := leVal (Sparse.getN 0 t.slots (slot * 128 + off) n)

def decodeElemFmt : Nat → Option ElemFmt
  | 0 => some .i8 | 1 => some .i16 | 2 => some .i32 | 3 => some .i64 | 4 => some .n8 | 5 => some .n16
  | 6 => some .n32 | 7 => some .n64 | 8 => some .bf16 | 9 => some .f32 | 10 => some .f64 | 11 => some .nq4
  | _ => none

/-- Element size in bytes; an NQ4 element has no size of its own. -/
def ElemFmt.size : ElemFmt → Nat
  | .i8 | .n8 | .nq4 => 1
  | .i16 | .n16 | .bf16 => 2
  | .i32 | .n32 | .f32 => 4
  | .i64 | .n64 | .f64 => 8

/-- The map a slot holds (R197, R198). -/
def Team.tmap (t : Team) (slot : Nat) : TMap :=
  let f := t.slotNat slot
  let pair := f 92 1
  { slot := slot,
    base := if bitOf pair 7 && bitOf pair 0 then f 80 8 else f 0 8,
    fmt := (decodeElemFmt (f 8 1)).getD .i8, rank := f 9 1, scratch := f 10 1 == 1, bcast := f 11 1, tag := f 12 2,
    dims := (List.range 5).map fun d => f (16 + 4 * d) 4,
    strides := 0 :: (List.range 4).map fun d => f (40 + 8 * d) 8,
    wrap := f 72 4, alt := f 80 8, gen0 := f 88 2, gen1 := f 90 2, pair := pair }

def TMap.dim (m : TMap) (d : Nat) : Nat := m.dims.getD d 0
def TMap.stride (m : TMap) (d : Nat) : Nat := m.strides.getD d 0
def TMap.esize (m : TMap) : Nat := m.fmt.size

/-- The reserved fields of a slot are zero and its codes are assigned (R197, R199). -/
def Team.slotFieldsOk (t : Team) (slot : Nat) : Bool :=
  let f := t.slotNat slot
  (decodeElemFmt (f 8 1)).isSome && decide (f 10 1 ≤ 1) && decide (f 11 1 < 32) && f 14 2 == 0 && f 36 4 == 0
    && f 76 4 == 0 && field (f 92 1) 6 1 == 0 && f 93 35 == 0

/-- The checks of R199 on a slot, as a destination or not. -/
def Team.mapOk (t : Team) (slot : Nat) (dest : Bool) : Bool :=
  let m := t.tmap slot
  let base := t.slotNat slot 0 8
  t.slotFieldsOk slot && decide (1 ≤ m.rank) && decide (m.rank ≤ 5)
    && ((List.range 5).all fun d =>
      if d < m.rank then m.dim d != 0 else m.dim d == 0 && m.stride d == 0)
    && base % m.esize == 0 && m.alt % m.esize == 0 && (m.strides.all fun x => x % m.esize == 0)
    && (if m.scratch then decide (base < 2 ^ 32) && decide (m.alt < 2 ^ 32)
        else decide (base < 2 ^ 58) && decide (m.alt < 2 ^ 58))
    && m.wrap % 64 == 0 && !(m.scratch && m.wrap != 0 && base % 64 != 0)
    && !(m.fmt == .nq4 && (m.dim 0 % 64 != 0 || base % 64 != 0 || m.alt % 64 != 0 || m.wrap != 0 || m.bcast != 0))
    && !(dest && m.bcast != 0)

/-- Whether a `tmld` of the team into the slot is under way (R200). -/
def State.slotBusy (s : State) (uid slot : Nat) : Bool :=
  s.ops.any fun o => o.team == uid && (match o.kind with
    | .tmld x _ _ => x == slot
    | _ => false)

/-- The data fault a slot carries, with the PC of its `tmld` (R200). -/
def Team.slotFault (t : Team) (slot : Nat) : Option Poison := KMap.find t.slotFaults slot

/-- Using slots at issue: a busy one holds the warp, one with a data fault raises it as a deferred one,
one that fails R199 is F_ILLEGAL (R199, R200, R349, R356). Slots are given with whether they are destinations. -/
def usingSlots (s : State) (t : Team) (w : Warp) (slots : List (Nat × Bool)) (x : Trouble) (k : Issue) : Issue :=
  if slots.any fun p => s.slotBusy t.uid p.1 then .hold
  else
    match slots.findSome? fun p => t.slotFault p.1 with
    | some p => .trap s w (Trouble.ofPoison 0xFF p)
    | none => if slots.all fun p => t.mapOk p.1 p.2 then k else .trap s w { x with code := .illegal }

/-! ### Elements (R198) -/

/-- Whether coordinates lie inside the map's extents; those past its rank are 0. -/
def TMap.inside (m : TMap) (c : List Nat) : Bool :=
  (List.range 5).all fun d => if d < m.rank then decide (c.getD d 0 < m.dim d) else c.getD d 0 == 0

/-- The unwrapped offset of an element (R198). -/
def TMap.rawOffset (m : TMap) (c : List Nat) : Nat :=
  (List.range m.rank).foldl (fun o d =>
    if bitOf m.bcast d then o else o + c.getD d 0 * (if d = 0 then m.esize else m.stride d)) 0

/-- The offset of an element from the base (R198). -/
def TMap.offset (m : TMap) (c : List Nat) : Nat := if m.wrap = 0 then m.rawOffset c else m.rawOffset c % m.wrap

/-- The address of an element: a global VA modulo 2^64, or a scratchpad offset. -/
def TMap.addr (m : TMap) (c : List Nat) : Nat :=
  if m.scratch then m.base + m.offset c else (m.base + m.offset c) % 2 ^ 64

/-- Number of elements of extents. -/
def volume (ext : List Nat) (rank : Nat) : Nat := (List.range rank).foldl (fun p d => p * ext.getD d 0) 1

/-- Coordinates of element `e` of extents, dimension 0 innermost (R206). -/
def coordsOf (ext : List Nat) (rank e : Nat) : List Nat :=
  ((List.range rank).foldl (fun (acc : List Nat × Nat) d =>
    let x := ext.getD d 0
    (acc.1 ++ [acc.2 % x], acc.2 / x)) ([], e)).1

/-- An element's index in storage order (R120). -/
def indexOf (ext : List Nat) (rank : Nat) (c : List Nat) : Nat :=
  (List.range rank).reverse.foldl (fun n d => n * ext.getD d 0 + c.getD d 0) 0

/-- Superblock records of an NQ4 map (R121). -/
def TMap.records (m : TMap) : Nat := ceilDiv (volume m.dims m.rank) 16384

/-- Coordinates in a list added. -/
def addCoords (a b : List Nat) : List Nat := (List.range 5).map fun d => a.getD d 0 + b.getD d 0

/-! ### Reading and writing bytes of a map's space -/

/-- Scratchpad bytes of a team. -/
def Team.scratchRead (t : Team) (a n : Nat) : List Byte := Sparse.getN 0 t.scratch a n
def Team.scratchWrite (t : Team) (a : Nat) (bs : List Byte) : Team := { t with scratch := Sparse.setN 0 t.scratch a bs }

/-! ### Intervals (R185, R205) -/

/-- Two half-open ranges of granules overlap (R185). -/
def overlaps (a b : Nat × Nat) : Bool := decide (a.1 < b.2) && decide (b.1 < a.2)

/-- `intervals(M, org, box)` in granules; a map in global memory registers nothing (R205). -/
def TMap.intervals (m : TMap) (org box : List Nat) : List (Nat × Nat) :=
  if !m.scratch then []
  else
    let empty := !m.inside org || ((List.range m.rank).any fun d => box.getD d 0 == 0)
    if empty then []
    else
      let top := (List.range 5).map fun d => min (org.getD d 0 + box.getD d 0) (m.dim d) - 1
      if m.fmt = .nq4 then
        let recOf := fun (c : List Nat) => indexOf m.dims m.rank c / 16384
        [((m.base + 8512 * recOf org) / 64, ceilDiv (m.base + 8512 * (recOf top + 1)) 64)]
      else
        let lo := m.rawOffset org
        let hi := m.rawOffset top + m.esize
        if m.wrap = 0 then [((m.base + lo) / 64, ceilDiv (m.base + hi) 64)]
        else if m.wrap ≤ hi - lo then [(m.base / 64, (m.base + m.wrap) / 64)]
        else
          let a := lo % m.wrap
          let b := a + (hi - lo)
          if b ≤ m.wrap then [((m.base + a) / 64, ceilDiv (m.base + b) 64)]
          else [((m.base + a) / 64, (m.base + m.wrap) / 64), (m.base / 64, ceilDiv (m.base + b - m.wrap) 64)]

/-- The whole tensor's intervals. -/
def TMap.whole (m : TMap) : List (Nat × Nat) := m.intervals [0, 0, 0, 0, 0] m.dims

/-- Every granule of the intervals lies in the allocation. -/
def Team.holds (t : Team) (iv : List (Nat × Nat)) : Bool := iv.all fun i => decide (i.2 * 64 ≤ t.scratchSize)

/-- A byte range lies in the allocation. -/
def Team.inScratch (t : Team) (a n : Nat) : Bool := decide (a + n ≤ t.scratchSize)

/-! ### The range scoreboard (R185, R225) -/

/-- An outstanding entry of a team: registration number, read intervals, write intervals. -/
structure SbEntry where
  reg : Nat
  reads : List (Nat × Nat)
  writes : List (Nat × Nat)
  deriving DecidableEq, Repr, Inhabited

/-- The entries a team's own operations and the multicasts to it hold, with the core they stand on; a box with no element
in bounds registers nothing (R205). -/
def Op.entries (o : Op) : List (Nat × SbEntry) :=
  let own : List (Nat × SbEntry) :=
    if o.paused || (o.readDone && o.writeDone) then []
    else if o.reads = [] ∧ o.writes = [] then []
    else [(o.team, { reg := o.id, reads := if o.readDone then [] else o.reads,
                     writes := if o.writeDone then [] else o.writes })]
  let targets : List (Nat × SbEntry) := match o.kind with
    | .copy c => if o.paused then [] else
        c.targets.filterMap fun g =>
          if g.state = .registered ∧ g.writes ≠ [] then some (g.team, { reg := g.reg, reads := [], writes := g.writes })
          else none
    | _ => []
  own ++ targets

/-- A team's outstanding entries. -/
def State.teamEntries (s : State) (uid : Nat) : List SbEntry :=
  s.ops.flatMap fun o => o.entries.filterMap fun e => if e.1 = uid then some e.2 else none

/-- The scoreboard of a core is full: 64 entries (R205). -/
def State.scoreboardFull (s : State) (core : Nat) : Bool :=
  decide (64 ≤ (s.ops.flatMap fun o => o.entries.filter fun e =>
    match s.findTeam e.1 with
    | some t => t.core == core
    | none => false).length)

/-- A newer entry must wait for an older one of its team (R225). -/
def State.mustWait (s : State) (uid reg : Nat) (reads writes : List (Nat × Nat)) : Bool :=
  (s.teamEntries uid).any fun e => decide (e.reg < reg) &&
    ((e.writes.any fun a => (reads ++ writes).any fun b => overlaps a b)
      || e.reads.any fun a => writes.any fun b => overlaps a b)

/-- A thread access is held: a load by write intervals, a store or atomic by any (R185). -/
def State.accessHeld (s : State) (uid : Nat) (load : Bool) (iv : List (Nat × Nat)) : Bool :=
  (s.teamEntries uid).any fun e =>
    (e.writes ++ (if load then [] else e.reads)).any fun a => iv.any fun b => overlaps a b

/-- The granules of a byte range. -/
def granules (a n : Nat) : Nat × Nat := (a / 64, ceilDiv (a + n) 64)

end Sys2Proof.Machine
end

