-- ==== Sys2Proof/Machine/Abort.lean ====
section
/-! DEFINITION. Ending work from outside: abandoning operations (R354), ending a team (R363), the grid barrier and its
laggard boost (R56, R57). -/

namespace Sys2Proof.Machine

/-! ### The grid barrier (R56, R57) -/

/-- Whether every live warp of every team of a grid has executed `barg`, and some has. -/
def State.bargDone (s : State) (launch : Nat) : Bool :=
  let ws := (s.teams.filter fun t => t.launch == launch).flatMap fun t => t.warps
  (ws.any fun w => w.status == .barg) && ws.all fun w => w.status == .barg || w.status == .exited

/-- A cluster's offset in units of 25 MHz. -/
def Power.offset (p : Power) (c : Nat) : Int := (KMap.find p.offsets c).getD 0

/-- The clusters of a grid that can give up STEP, in order of arrival (R57). -/
def Power.donor (p : Power) (step maxofs : Nat) (order : List Nat) (last : Nat) : Option Nat :=
  order.find? fun c => c != last && decide ((level18 : Int) ≤ p.level + p.offset c - step)
    && decide (-(maxofs : Int) ≤ p.offset c - step)

/-- The laggard boost at a completed grid barrier (R57). -/
def State.boost (s : State) (order : List Nat) : State :=
  let b := s.boostctl.toNat
  let step := field b 7 4
  let maxofs := field b 15 8
  match order.getLast? with
  | none => s
  | some last =>
    if !bitOf b 0 || step == 0 || decide (s.power.level < level18) then s
    else if (level21 : Int) < s.power.level + s.power.offset last + step ∨ (maxofs : Int) < s.power.offset last + step
    then s
    else
      match s.power.donor step maxofs order last with
      | none => s
      | some d =>
        let o1 := KMap.put s.power.offsets d (s.power.offset d - step)
        let o2 := KMap.put o1 last (((KMap.find o1 last).getD 0) + step)
        { s with power := { s.power with offsets := o2 } }

/-- A warp is blocked at the grid's `barg`. -/
def State.bargs (s : State) (launch : Nat) (u : Nat × Nat) : Bool :=
  match s.findWarp u.1 u.2 with
  | some (t, w) => t.launch == launch && w.status == .barg
  | none => false

/-- The team's warps blocked at `barg` go on, ordered after what the warps of the grid wrote or were ordered after (R56). -/
def Team.passBarg (t : Team) (at' : Nat × Nat → Bool) : Team :=
  { t with
    old := t.old.filter fun e => !(at' e.writer || e.known.any fun j => at' (t.uid, j)),
    warps := t.warps.map fun w => if w.status = WStatus.barg then Warp.proceed { w with status := .running } else w }

/-- A phase of `barg` completes: the warps go on, each core's L1 lines of the world are dropped (an acquire at device
scope), and the boost moves between clusters that hold teams of the grid (R56, R57, R215). -/
def State.settleBarg (s : State) (launch : Nat) : State :=
  if !s.bargDone launch then s
  else
    let cores := (s.teams.filter fun t => t.launch == launch).map fun t => (t.core, t.world)
    let s1 := { s with teams := s.teams.map fun (t : Team) => if t.launch = launch then t.passBarg (s.bargs launch) else t }
    let s2 := cores.foldl (fun x c => x.dropL1 c.1 c.2) s1
    let order := match s.findLaunch launch with
      | some l => l.bargOrder.filter fun c => s.teams.any fun t => t.launch == launch && t.place == .resident && t.core / 8 == c
      | none => []
    (s2.updLaunch launch fun l => { l with bargOrder := [] }).boost order

/-! ### Abandoning an operation (R354) -/

/-- SMASK of an abandoned copy: each target that did not receive every beat (R354). -/
def Copy.missed (c : Copy) : Nat :=
  ((c.targets.zip (List.range c.targets.length)).map fun p => if p.1.state = .done then 0 else 2 ^ p.2).foldl
    (· + ·) 0

/-- Bytes written at a physical address by the device for a core: what its cluster has gathered for the lines goes
first (R216), and the core's L1 copies go, so that a warp that waits on the token sees the bytes (R228). Writes of status
never fail (R204). -/
def State.devWrite (s : State) (core pa : Nat) (bs : List Byte) : State :=
  let first := lineOf pa
  let last := lineOf (pa + bs.length - 1)
  let s1 := { s with l1 := s.l1.filter fun l => !(l.core == core && decide (first ≤ l.line) && decide (l.line ≤ last)) }
  let s2 := (List.range (last + 1 - first)).foldl (fun x i => x.mergeLine (core / 8) (first + i)) s1
  s2.homeWrite none pa bs

/-- A copy's arrival word increases by the bytes performed, as one atomic add (R207); the core's L1 copies of a global one
go, so that a warp that waits on the token sees it (R228), and its line's last release is at device scope (R219, R223). -/
def State.addArrival (s : State) (o : Op) (c : Copy) (uid bytes : Nat) : State :=
  if !c.awen then s
  else if c.awsp then
    s.updTeam uid fun t => t.scratchWrite c.awaddr (leBytes 8 (leVal (t.scratchRead c.awaddr 8) + bytes))
  else
    let s1 := (s.drainWorld (o.core / 8) o.world).snoopOwner (lineOf c.awpa)
    (s1.devWrite o.core c.awpa (leBytes 8 (s1.readNat c.awpa 8 + bytes))).noteRelease o.core o.world .dev (lineOf c.awpa)

/-- TPROG of the warp is cleared when the operation it names completes or is abandoned (R355). -/
def State.clearTprog (s : State) (o : Op) : State :=
  s.updWarp o.team o.warp fun w => if o.inTprog then { w with tprog := 0 } else w

/-- The allocation a target was captured with still has its generation, on a core of the sender's cluster (R13, R208): the team
is resident, or it has ended and no later allocation has taken its place. -/
def State.targetHere (s : State) (o : Op) (g : CopyTgt) : Bool :=
  match s.findTeam g.team with
  | some t => t.place == .resident && t.gen == g.gen && t.core / 8 == o.core / 8
  | none => (s.coreSt g.core).freed.contains g.gen && g.core / 8 == o.core / 8

/-- What an abandoned copy leaves: the arrival words of the bytes performed, and the barrier arrivals (R354); a `cpym`'s
at each target it had not finished. -/
def State.abandonArrivals (s : State) (o : Op) (c : Copy) (arrive : Bool) : State :=
  let at' := fun (x : State) (uid bytes : Nat) =>
    let y := x.addArrival o c uid bytes
    if arrive && c.baren then y.updTeam uid fun t => t.arrive c.bar 1 none else y
  if c.multi then
    (c.targets.filter fun g => (g.state == .waiting || g.state == .registered) && s.targetHere o g).foldl
      (fun x g => at' x g.team g.bytes) s
  else at' s o.team c.bytes

/-- An operation abandoned (R354): status, arrival word, barrier unless the team is being ended, and its token and
counter fall. -/
def State.abandon (s : State) (o : Op) (arrive : Bool) : State :=
  let s1 := match o.kind with
    | .copy c =>
      (s.devWrite o.core (o.blkpa + 5) [2, BitVec.ofNat 8 (if c.multi then c.missed else 0)]).abandonArrivals o c arrive
    | .pimx _ => s.devWrite o.core (o.blkpa + 4) [2]
    | _ => s
  (s1.clearTprog o).retire o

/-! ### Ending a team (R363) -/

/-- The record a whole-team fault posts (R356, R383), by the hub's control. -/
def State.postTeamFault (s : State) (t : Team) (code : FaultCode) (addr : Nat) : State :=
  let info : FaultInfo :=
    { code := code, precise := false, parked := false, deferred := false, status := false, lane := 0xFF,
      teamId := t.teamId, warpId := 0xFF, core := t.core, index := 0, hdr := 0, addr := addr, opaddr := 0, prog := 0,
      detail := 0, rid := 0 }
  s.post evFault t.world hubSource info.body

/-- A warp ended from outside: no lane lives. -/
def Warp.ended (w : Warp) : Warp := { w with live := 0, active := 0, park := none, stack := [], status := .exited }

/-- A team whose warps have ended and whose context area is released. -/
def Team.ended (t : Team) : Team :=
  { t with ctxLen := 0, preempting := false, deferred := [], warps := t.warps.map Warp.ended }

/-- A team that has been ended from outside already: its context area is released (R363). -/
def Team.released (t : Team) : Bool := t.ctxLen == 0

/-- A team ended with a code: its live warps end, one record is posted, parked and paused operations are abandoned
without barrier arrivals, its context area is released; running operations complete (R363). -/
def State.abortTeam (s : State) (uid : Nat) (code : FaultCode) (addr : Nat) : State :=
  match s.findTeam uid with
  | none => s
  | some t =>
    if t.released then s
    else
    let s1 := s.updTeam uid Team.ended
    let s2 := s1.postTeamFault t code addr
    let gone := s2.ops.filter fun o => o.team == uid && (o.parked.isSome || o.paused)
    (gone.foldl (fun x o => x.abandon o false) s2).settleBarg t.launch

end Sys2Proof.Machine
end

