-- ==== Sys2Proof/Machine/Links.lean ====
section
/-! DEFINITION. Keys, link packets and their nonces, and what the DRAM cells hold of a line (R332 to R334, R336). -/

namespace Sys2Proof.Machine

/-! ### Keys (R332) -/

/-- The keys drawn for a world from the random source. -/
def drawKeys (n : Nat) : WorldKeys :=
  { knet := Config.freeKey n, kxts1 := Config.freeKey (n + 1), kxts2 := Config.freeKey (n + 2), kmac := Config.freeKey (n + 3) }

/-- Where data travel or lie. -/
inductive DataPath where
  | clusterSlice | controllerPackage | ucieAd | cells | pimCells | onDie
  deriving DecidableEq, Repr, Inhabited

inductive Cipher where
  /-- AES-256-GCM under KNET with a tag of 64 bits. -/
  | gcm
  /-- AES-256-XTS under KXTS and a MAC of 64 bits under KMAC. -/
  | xtsMac
  | plain
  deriving DecidableEq, Repr, Inhabited

/-- The cipher on a path (R332, R336). -/
def DataPath.cipher : DataPath → Cipher
  | .clusterSlice | .controllerPackage | .ucieAd => .gcm
  | .cells => .xtsMac
  | .pimCells | .onDie => .plain

/-! ### Nonces and tags (R333) -/

/-- The 96-bit nonce of the next packet. -/
def State.nonce (s : State) (src dst world : Nat) (c : PacketClass) : Nat :=
  src * 2 ^ 88 + dst * 2 ^ 80 + world * 2 ^ 75 + c.code * 2 ^ 72 + s.packetCount src dst world c % 2 ^ 72

/-- A packet as it travels: its ciphertext, and the leading 64 bits of the tag over it and its header. -/
def State.sealPacket (s : State) (src dst world : Nat) (c : PacketClass) (header payload : List Byte) : List Byte × List Byte :=
  match (s.world world).keys with
  | none => ([], [])
  | some k =>
    let x := Config.gcmSeal k.knet (s.nonce src dst world c) header payload
    (x.1, x.2.take 8)

/-- The counters of a world start again with its key. -/
def State.newCounters (s : State) (world : Nat) : State :=
  { s with nonces := s.nonces.filter fun p => p.1 / 8 % 32 != world }

/-- The number of the link with an AD among what can lose a packet: above every line number. -/
def adLink (a : Nat) : Nat := 2 ^ 40 + a

/-- The packets of a tile evaluation on the link with an AD, through the AD's package-side module `q`: input codes to the die,
output codes back (R28, R333). -/
def State.adPackets (s : State) (world a q : Nat) : State :=
  let u := hdModule a q
  (s.packet (hdUciePort u) (adUciePort u) world .data).packet (adUciePort u) (hdUciePort u) world .data

/-! ### The cells (R334, R336) -/

/-- The DRAM cells of a line: plaintext on a PIM page, ciphertext under the keys of the page's WORLD elsewhere; the tweak
is the line number. -/
def State.cellBytes (s : State) (line : Nat) : List Byte :=
  let plain := s.readMem (128 * line) 128
  if s.potPim (line / 128) then plain
  else
    match (s.world (s.potWorld (line / 128))).keys with
    | none => []
    | some k => Config.xts k.kxts1 k.kxts2 line plain

/-- The stored MAC of a line of a page that is no PIM page: line number, SGEN, ciphertext. -/
def State.cellMac (s : State) (line : Nat) : List Byte :=
  match (s.world (s.potWorld (line / 128))).keys with
  | none => []
  | some k => (Config.cmac k.kmac (leBytes 8 line ++ leBytes 1 (s.potSgen (line / 128)) ++ s.cellBytes line)).take 8

end Sys2Proof.Machine
end

