-- ==== Sys2Proof/Machine/Health.lean ====
section
/-! DEFINITION. Writes whose packets fail, and the ageing of HEALTH's window (R333, R335, R377). -/

namespace Sys2Proof.Machine

/-- A write to lines whose packet fails is not performed (R333): the line it fails on, if any, with the failure counted. -/
def State.losePacket (s : State) (lines : List Nat) : Option State :=
  (lines.find? s.packetFails).map s.dropPacket

/-- HEALTH_WINDOW_AGE: counts leave the 24-hour window. -/
def execHealthWindowAge (soft link : Nat) (s : State) : Out :=
  .next ({ s with soft := { s.soft with softWindow := s.soft.softWindow - soft,
                                        linkWindow := s.soft.linkWindow - link } }).settleHealth

end Sys2Proof.Machine
end

