-- ==== Sys2Proof/Machine/Cache.lean ====
section
/-! DEFINITION. Cache placement, ways, retention hints and replacement (R20, R188, R328 to R331), coherence requests
of an L2 (R232 to R235), and write-backs (R333, R341). -/

namespace Sys2Proof.Machine

/-! ### Ways (R328, R329, R331) -/

def World.allotBasic (x : World) : Bool := !bitOf x.cacheallot.toNat 63
def World.share (x : World) : Nat := field x.cacheallot.toNat 7 0

/-- The ACTIVE worlds in basic mode, ascending, with their shares (R329). -/
def State.basicWorlds (s : State) : List (Nat × Nat) :=
  s.worlds.filterMap fun p => if p.2.state = .active ∧ p.2.allotBasic then some (p.1, p.2.share) else none

/-- A run of `n` ways modulo 16 from way `k` as a mask. -/
def wayRun (k n : Nat) : Nat := ((List.range 16).filter fun i => decide ((i + 16 - k % 16) % 16 < n)).foldl (fun m i => m + 2 ^ i) 0

/-- The run of world `w` in the list of basic worlds: way `k` follows the previous run (R329). -/
def basicMask (w total : Nat) : Nat → List (Nat × Nat) → Nat
  | _, [] => 0
  | k, (v, sh) :: r =>
    let n := if sh = 0 then 0 else max 1 (16 * sh / total)
    if v = w then (if n = 0 then 0 else wayRun k (min n 16)) else basicMask w total (k + n) r

/-- The masks of L2 and LLC ways open to a world's fills. -/
def State.wayMasks (s : State) (w : Nat) : Nat × Nat :=
  let x := s.world w
  if x.allotBasic then
    let bs := s.basicWorlds
    let m := basicMask w ((bs.map (·.2)).foldl (· + ·) 0) 0 bs
    (m, m)
  else (field x.cacheallot.toNat 47 32, field x.cacheallot.toNat 31 16)

/-! ### Lines (R14, R20, R330) -/

def l2Slice (line : Nat) : Nat := line / 128 % 16
def l2Set (line : Nat) : Nat := line % 64
def llcSet (line : Nat) : Nat := line / 64 % 2048

/-- Set of an L1 line: 256 KiB in 8 ways of 128-byte lines (R14). -/
def l1Set (line : Nat) : Nat := Config.freeL1Set line % 256

/-- The ways of an L1. -/
def l1Mask : Nat := 0xFF

/-- Whether a line of a cache lies in the set of `line` in its unit. -/
def L1Line.inSet (x : L1Line) (core line : Nat) : Bool := x.core == core && l1Set x.line == l1Set line

def L2Line.inSet (x : L2Line) (cluster line : Nat) : Bool :=
  x.cluster == cluster && l2Slice x.line == l2Slice line && l2Set x.line == l2Set line

def LlcLine.inSet (x : LlcLine) (line : Nat) : Bool := llcSlice x.line == llcSlice line && llcSet x.line == llcSet line

/-- A core's L1 copy of a line under its world's tag (R330). -/
def State.l1Find (s : State) (core world line : Nat) : Option L1Line :=
  s.l1.find? fun x => x.core == core && x.world == world && x.line == line

/-- A way of a set as replacement sees it: way, world, hint. -/
abbrev WayView := Nat × Nat × Hint

def L1Line.view (x : L1Line) : WayView := (x.way, x.world, x.hint)
def L2Line.view (x : L2Line) : WayView := (x.way, x.world, x.hint)
def LlcLine.view (x : LlcLine) : WayView := (x.way, x.world, x.hint)

/-- Ways that a mask names. -/
def maskWays (mask : Nat) : List Nat := (List.range 16).filter fun i => bitOf mask i

/-- The way a fill takes among a set's ways, most recently used first (R188, R330): the lowest invalid way of the mask,
else the least recently used that is not spared as sticky. -/
def chooseWay (mask : Nat) (held : List WayView) : Option Nat :=
  match (maskWays mask).find? fun i => !(held.any fun h => h.1 == i) with
  | some i => some i
  | none =>
    let mine := held.filter fun h => bitOf mask h.1
    let spared := fun (h : WayView) => h.2.2 == .sticky && held.any fun g => g.2.1 == h.2.1 && g.2.2 != .sticky
    match (mine.filter fun h => !spared h).getLast? with
    | some h => some h.1
    | none => mine.getLast?.map (·.1)

/-- When more than half of a world's ways in a set would become sticky, its oldest sticky line loses the mark (R188):
whether the line in `way` does. -/
def losesSticky (mask world : Nat) (held : List WayView) (way : Nat) : Bool :=
  let sticky := held.filter fun h => h.2.1 == world && h.2.2 == .sticky
  decide ((maskWays mask).length < 2 * (sticky.length + 1)) &&
    (match sticky.getLast? with
      | some h => h.1 == way
      | none => false)

/-- A line put beside the others of a cache with the hint of the access that fills or touches it (R188): under `.stream` it is
the least recently used, otherwise the most; a sticky one may cost the oldest of the set its mark. -/
def placeLine {α : Type} (view : α → WayView) (unmark : α → α) (inSet : α → Bool) (mask world : Nat) (hint : Hint) (x : α)
    (rest : List α) : List α :=
  let held := (rest.filter inSet).map view
  let kept := rest.map fun y => if hint == .sticky && inSet y && losesSticky mask world held (view y).1 then unmark y else y
  if hint = .stream then kept ++ [x] else x :: kept

/-- The hint an access acts with in the L1 and the L2: a world without ways in the L2 is performed as `.bypass` (R330).
DESIGN CHOICE: a world whose LLC mask alone is 0 is not; the LLC takes no line of it (log 126). -/
def State.hintOf (s : State) (world : Nat) (hint : Hint) : Hint := if (s.wayMasks world).1 = 0 then .bypass else hint

/-! ### The L1s (R14, R188, R215) -/

/-- A core's copy of a line, of one world, goes. -/
def State.dropL1Line (s : State) (core world line : Nat) : State :=
  { s with l1 := s.l1.filter fun x => !(x.core == core && x.world == world && x.line == line) }

def State.placeL1 (s : State) (x : L1Line) (rest : List L1Line) : State :=
  { s with l1 := placeLine L1Line.view (fun y => { y with hint := .default }) (·.inSet x.core x.line) l1Mask x.world x.hint x rest }

/-- A line as a load leaves it in L1 (R215): any older copy goes, and under `.bypass` none is allocated (R188). -/
def State.fillL1 (s : State) (core world line : Nat) (hint : Hint) : State :=
  let s1 := s.dropL1Line core world line
  if hint = .bypass then s1
  else
    match chooseWay l1Mask ((s1.l1.filter (·.inSet core line)).map L1Line.view) with
    | none => s1
    | some way =>
      s1.placeL1 { core := core, line := line, way := way, world := world, hint := hint,
                   data := s.clusterRead (core / 8) world (line * 128) 128 }
        (s1.l1.filter fun y => !(y.inSet core line && y.way == way))

/-- A line of L1 touched by an access (R188). DESIGN CHOICE: a `.bypass` access that hits leaves the line's hint and its place in
the order of use (log 119). -/
def State.touchL1 (s : State) (x : L1Line) (hint : Hint) : State :=
  if hint = .bypass then s else s.placeL1 { x with hint := hint } (s.l1.erase x)

/-! ### Coherence messages -/

/-- Source and destination ports and class of a message's packet (R333); a cluster sends the data it forwards itself. -/
def CohMsg.route (m : CohMsg) : Nat × Nat × PacketClass :=
  let c := clusterPort m.cluster
  let h := slicePort (llcSlice m.line)
  match m.kind with
  | .getS | .getM | .upg | .putE => (c, h, .request)
  | .putM | .putO => (c, h, .writeBack)
  | .invAck | .confirm _ => (c, h, .response)
  | .inv | .fwd _ _ => (h, c, .snoop)
  | .grant _ data => (h, c, if data then .data else .response)

/-- A message put in flight: one packet more of its kind. -/
def State.send (s : State) (m : CohMsg) : State :=
  { s.packet m.route.1 m.route.2.1 m.world m.route.2.2 with coh := s.coh ++ [m] }

/-- The data an owner forwards to the requester (R233). -/
def State.forward (s : State) (owner : Nat) (m : CohMsg) : State :=
  { s.packet (clusterPort owner) (clusterPort m.cluster) m.world .data with coh := s.coh ++ [m] }

/-- The first message that satisfies `p`. -/
def State.hasMsg (s : State) (p : CohMsg → Bool) : Option CohMsg := s.coh.find? p

/-- One message taken out of flight. -/
def State.takeMsg (s : State) (m : CohMsg) : State := { s with coh := s.coh.erase m }

/-! ### The L2s -/

/-- A cluster drops its copy of a line: E, M and O tell the home, S leaves silently (R232). Its gathered bytes for
the line are merged first (R216). -/
def State.evictL2 (s : State) (x : L2Line) : State :=
  let s1 := s.mergeLine x.cluster x.line
  let s2 := { s1 with l2 := s1.l2.erase x }
  let put := fun (k : CohKind) => s2.send { kind := k, line := x.line, cluster := x.cluster, world := x.world, hint := x.hint }
  match x.state with
  | .s => s2
  | .e => put .putE
  | .m => put .putM
  | .o => put .putO

def State.placeL2 (s : State) (x : L2Line) (rest : List L2Line) : State :=
  { s with l2 := placeLine L2Line.view (fun y => { y with hint := .default }) (·.inSet x.cluster x.line)
                   (s.wayMasks x.world).1 x.world x.hint x rest }

/-- A fill of an L2 line under the world's mask and hint (R188, R330). -/
def State.fillL2 (s : State) (cluster world line : Nat) (hint : Hint) (st : Moesi) : State :=
  if s.hintOf world hint = .bypass ∨ s.potPim (line / 128) then s
  else
    match chooseWay (s.wayMasks world).1 ((s.l2.filter fun x => x.inSet cluster line).map L2Line.view) with
    | none => s
    | some way =>
      let s1 := match s.l2.find? fun x => x.inSet cluster line && x.way == way with
        | some v => s.evictL2 v
        | none => s
      s1.placeL2 { cluster := cluster, line := line, way := way, world := world, hint := hint, state := st } s1.l2

/-- A line of L2 touched by an access (R188), as in L1 (log 119). -/
def State.touchL2 (s : State) (cluster world line : Nat) (hint : Hint) : State :=
  match s.l2Find cluster world line with
  | none => s
  | some x => if hint = .bypass then s else s.placeL2 { x with hint := hint } (s.l2.erase x)

/-! ### The LLC -/

/-- A near-bank command covers the page while it runs: the LLC allocates no line of it (R313). -/
def State.pimCovers (s : State) (page : Nat) : Bool :=
  s.ops.any fun o => match o.kind with
    | .pimx b => (match b.pages with
      | some ps => ps.contains page
      | none => false)
    | _ => false

def State.placeLlc (s : State) (x : LlcLine) (rest : List LlcLine) : State :=
  { s with llc := placeLine LlcLine.view (fun y => { y with hint := .default }) (·.inSet x.line)
                    (s.wayMasks x.world).2 x.world x.hint x rest }

/-- The hint an access acts with in the LLC: `.bypass` fills it as `.stream` (R188). -/
def llcHint (hint : Hint) : Hint := if hint = .bypass then .stream else hint

/-- A line whose write-back was lost on the way (R333): what its home holds is open, the failure is counted, and the line's world
has a record that names no instruction. -/
def State.loseLine (s : State) (world cluster line : Nat) : State :=
  let bs := (List.range 128).map fun i => Config.freeByte (s.fresh + i)
  let s1 := { s with mem := Sparse.setN memDefault s.mem (128 * line) bs, fresh := s.fresh + 128 }
  (s1.dropPacket line).lostWrite world
    { team := 0, teamId := 0, warp := 0xFF, core := 8 * cluster, hdr := 0, idx := 0, va := 0 }

/-- The guest-physical pages among a world's watched ranges that stage 2 maps to a physical page. -/
def State.watchedPages (s : State) (world page : Nat) : List Nat :=
  (((s.world world).log.watch.filter fun e => e.kind == 0).flatMap fun e =>
    (List.range (e.hi / 256 + 1 - e.lo / 256)).map (e.lo / 256 + ·)).eraseDups.filter fun p =>
      (s.stage2 world (p * 16384)).map Leaf.page == some page

/-- A write of a line that leaves the LLC noted in its world's log (R341). R342 names no AGENT for it: the number is free (log
114). -/
def State.noteBack (s : State) (world line : Nat) : State :=
  if (s.world world).log.watch.isEmpty then s
  else
    (s.watchedPages world (line / 128)).foldl (fun x p =>
      x.noteLog world 0 (Config.freeNat (s.fresh + line) % 65536) logWrite (p * 256 + line % 128 * 2) 2 128) s

/-- Data of a line go to its package, or are lost on the way (R333). -/
def State.writeBackLine (s : State) (world line : Nat) : State :=
  let s1 := (s.dramPackets world line true).noteBack world line
  if s1.packetFails line then s1.loseLine world 0 line else s1

/-- A dirty line that leaves the LLC goes to its package. -/
def State.writeBackLlc (s : State) (x : LlcLine) : State := if x.dirty then s.writeBackLine x.world x.line else s

/-- An access at the LLC: a line held is touched, otherwise it is filled under the world's mask (R188, R313, R330). `dirty`:
the access brings data that memory has not got; where the LLC takes no line they go on to the package. -/
def State.useLlc (s : State) (world line : Nat) (hint : Hint) (dirty : Bool) : State :=
  match s.llc.find? fun x => x.world == world && x.line == line with
  | some x => s.placeLlc { x with hint := llcHint hint, dirty := x.dirty || dirty } (s.llc.erase x)
  | none =>
    let past := if dirty then s.writeBackLine world line else s
    if s.pimCovers (line / 128) then past
    else
      match chooseWay (s.wayMasks world).2 ((s.llc.filter fun x => x.inSet line).map LlcLine.view) with
      | none => past
      | some way =>
        let s1 := ((s.llc.filter fun x => x.inSet line && x.way == way)).foldl State.writeBackLlc s
        s1.placeLlc { line := line, way := way, world := world, hint := llcHint hint, dirty := dirty }
          (s1.llc.filter fun x => !(x.inSet line && x.way == way))

/-! ### Requests of an L2 (R232, R234) -/

/-- The home is serving a request of the cluster for the line, or holds one in its queue (R233). -/
def DirEntry.serving (e : DirEntry) (cluster : Nat) : Bool :=
  (match e.busy with
    | .idle => false
    | .id r _ | .sa r _ _ | .fd r _ _ => r == cluster) || e.queue.any fun m => m.cluster == cluster

/-- A request of a cluster for a line is in flight, waiting or being served. -/
def State.requested (s : State) (cluster line : Nat) : Bool :=
  (s.coh.any fun m => m.line == line && m.cluster == cluster && (match m.kind with
    | .getS | .getM | .upg | .grant _ _ => true
    | _ => false)) || (match KMap.find s.dir line with
      | some e => e.serving cluster
      | none => false)

/-- What an L2 asks of the home for an access (R232, R234): nothing on a hit, GetS or GetM on a miss, Upg to write a
line it shares. PIM lines and worlds without ways are not held in an L2. -/
def State.askHome (s : State) (cluster world line : Nat) (write : Bool) (hint : Hint) : State :=
  if s.potPim (line / 128) || s.hintOf world hint == .bypass || s.requested cluster line then s
  else
    let msg := fun (k : CohKind) => s.send { kind := k, line := line, cluster := cluster, world := world, hint := hint }
    match s.l2Find cluster world line with
    | none => if write then msg .getM else msg .getS
    | some x =>
      if !write then s
      else
        match x.state with
        | .m => s
        | .e => { s with l2 := s.l2.map fun y => if y = x then { y with state := .m } else y }
        | .o | .s => msg .upg

/-- An L2 that does not hold a line has it fetched: a fault is delivered, or the LLC has the line and the home is asked for it
(R188, R232, R335). -/
def State.fetchLine (s : State) (cluster world line : Nat) (write : Bool) (hint : Hint) : Option DataFault × State :=
  let r := s.readLine world line
  match r.1 with
  | some f => (some f, r.2)
  | none => (none, (r.2.useLlc world line hint false).askHome cluster world line write hint)

end Sys2Proof.Machine
end

