-- ==== Sys2Proof/Machine/Operands.lean ====
section
/-! DEFINITION. Operand forms: immediates, register pairs, lane by lane writes, and the addresses of memory operands
(R76, R77, R89, R141, R142, R179). -/

namespace Sys2Proof.Machine

/-- An immediate sign-extended to 32 bits (R143, R156). -/
def imm32 (i : Int) : Word := BitVec.ofInt 32 i

/-- The writes of a value to an even pair (R142). -/
def pairWrites (d : Nat) (v : DWord) : List (Nat × Word) := [(d, v.extractLsb' 0 32), (d + 1, v.extractLsb' 32 32)]

/-- Each lane of `m` takes its writes; every source was read from the warp as it stood (R11, R141). -/
def Warp.writeLanes (w : Warp) (m : LaneMask) (f : Nat → List (Nat × Word)) : Warp :=
  (lanesOf m).foldl (fun x l => (f l).foldl (fun y p => y.vset p.1 l p.2) x) w

/-- A vector instruction without flags: legality, poisoned sources, then one result a lane (R141). -/
def laneOp (s : State) (ok : Team → Bool) (srcs : List Nat) (f : Warp → Nat → List (Nat × Word)) : Out :=
  onWarp s fun t _ w =>
    require (ok t) s w <| reading s w srcs w.active <| .done s (w.writeLanes w.active (f w))

/-- A vector instruction whose lanes raise flags, merged into FPSTAT (R113, R114). -/
def laneOpF (s : State) (ok : Team → Bool) (srcs : List Nat) (f : Warp → Nat → List (Nat × Word) × Flags) : Out :=
  onWarp s fun t _ w =>
    require (ok t) s w <| reading s w srcs w.active <|
      .done s ((w.writeLanes w.active fun l => (f w l).1).addFlags
        (orFlags ((lanesOf w.active).map fun l => (f w l).2)))

/-- A vector compare: each active lane of pd takes its result, and flags merge (R84, R158, R159). -/
def predOp (s : State) (p : Nat) (ok : Team → Bool) (srcs : List Nat) (f : Warp → Nat → Bool × Flags) : Out :=
  onWarp s fun t _ w =>
    require (ok t) s w <| reading s w srcs w.active <|
      let bits := (lanesOf w.active).foldl (fun m l => if (f w l).1 then m ||| (1#32 <<< l) else m) (0 : LaneMask)
      .done s ((w.psetLanes p w.active bits).addFlags (orFlags ((lanesOf w.active).map fun l => (f w l).2)))

/-- A scalar instruction: legality, then its effect on the warp's scalar registers (R143). -/
def scalarOp (s : State) (ok : Bool) (f : Warp → Warp) : Out :=
  onWarp s fun _ _ w => require ok s w <| .done s (f w)

/-- The lanes of a mask that satisfy `p`. -/
def maskWhere (p : Nat → Bool) : LaneMask :=
  (List.range 32).foldl (fun m l => if p l then m ||| (1#32 <<< l) else m) (0 : LaneMask)

/-- A global address: the pair's value plus an offset, modulo 2^64 (R179). -/
def Warp.globalAddr (w : Warp) (a : Nat) (off : Int) (l : Nat) : Nat := (w.vget64 a l + BitVec.ofInt 64 off).toNat

/-- A scratchpad address as an integer (R89). -/
def Warp.scratchAddr (w : Warp) (a : Nat) (off : Int) (l : Nat) : Int := ((w.vget a l).toNat : Int) + off

/-- Size in bytes of a load or store type (R89). -/
def memSize : MemTy → Nat
  | .n8 | .i8 => 1
  | .n16 | .i16 => 2
  | .b32 => 4
  | .b64 => 8
  | .b128 => 16

/-- Registers a value of a type occupies from `d`, and whether `d` may begin them (R76, R89). -/
def memRegs (ty : MemTy) (d : Nat) : List Nat :=
  match ty with
  | .b64 => [d, d + 1]
  | .b128 => [d, d + 1, d + 2, d + 3]
  | _ => [d]

def Team.okMem (t : Team) (ty : MemTy) (d : Nat) : Bool :=
  match ty with
  | .b64 => t.okV2 d
  | .b128 => t.okV4 d
  | _ => t.okV d

/-- The value a register group holds, as a number (R142). -/
def Warp.vgroup (w : Warp) (regs : List Nat) (l : Nat) : Nat :=
  regs.foldr (fun r n => (w.vget r l).toNat + 2 ^ 32 * n) 0

/-- The writes of a number to a register group. -/
def groupWrites : List Nat → Nat → List (Nat × Word)
  | [], _ => []
  | r :: rs, n => (r, BitVec.ofNat 32 (n % 2 ^ 32)) :: groupWrites rs (n / 2 ^ 32)

/-- A loaded value as its register takes it: extended by type (R186). -/
def extendLoad (ty : MemTy) (n : Nat) : Nat :=
  match ty with
  | .i8 => (BitVec.ofInt 32 (signExt 8 n)).toNat
  | .i16 => (BitVec.ofInt 32 (signExt 16 n)).toNat
  | _ => n

end Sys2Proof.Machine
end

