-- ==== Sys2Proof/Machine/LoadStore.lean ====
section
/-! DEFINITION. Issue of loads, stores and atomics: legality, address checks, and the operation put in flight (R89, R90,
R179 to R191). Their data move at the completion events. -/

namespace Sys2Proof.Machine

/-! ### Address checks (R180) -/

/-- A global address of one lane: alignment, then checks 3 to 5. -/
def checkGlobal (s : State) (t : Team) (k : AccKind) (size va : Nat) : Except FaultCode Nat :=
  if va % size ≠ 0 then .error .align else s.translate t.core t.world va k

/-- A scratchpad address of one lane: alignment, then the bounds of the allocation. -/
def checkScratch (t : Team) (size : Nat) (a : Int) : Except FaultCode Nat :=
  if a % (size : Int) ≠ 0 then .error .align
  else if 0 ≤ a ∧ a + size ≤ t.scratchSize then .ok a.toNat
  else .error .scratch

/-- The address field of a fault record. -/
def addrField (a : Int) : Nat := (BitVec.ofInt 64 a).toNat

/-- The lanes' addresses checked: either the fault R180 reports, or each lane with its address and its physical
address (or scratchpad offset). -/
def checkLanes (lanes : List Nat) (addr : Nat → Int) (chk : Int → Except FaultCode Nat) :
    Except (Nat × FaultCode × Nat) (List (Nat × Int × Nat)) :=
  match firstFault (lanes.filterMap fun l => match chk (addr l) with
    | .error c => some (l, c, addrField (addr l))
    | .ok _ => none) with
  | some e => .error e
  | none => .ok (lanes.filterMap fun l => match chk (addr l) with
    | .ok pa => some (l, addr l, pa)
    | .error _ => none)

/-- What follows the checks of all active lanes: the fault with its lane, or the work on the checked lanes. -/
def withLanes (s : State) (w : Warp) (addr : Nat → Int) (chk : Int → Except FaultCode Nat)
    (k : List (Nat × Int × Nat) → Issue) : Issue :=
  match checkLanes (lanesOf w.active) addr chk with
  | .error (l, c, a) => .trap s w { code := c, lane := l, addr := a }
  | .ok ls => k ls

/-- The checks of R180 on the active lanes' global addresses, whose walks read their tables (R326): the fault, or the work on the
checked lanes. -/
def withGlobal (s : State) (t : Team) (w : Warp) (k : AccKind) (size : Nat) (addr : Nat → Int)
    (f : State → List (Nat × Int × Nat) → Issue) : Issue :=
  let vas := (lanesOf w.active).map fun l => (addr l).toNat
  let s1 := if vas.all fun a => a % size == 0 then s.walked t.core t.world vas else s
  match checkLanes (lanesOf w.active) addr (fun x => checkGlobal s t k size x.toNat) with
  | .error (l, c, a) => .trap s1 w { code := c, lane := l, addr := a }
  | .ok ls => f s1 ls

/-- An instruction that raises a counter and a token waits until it can (R150). -/
def raising (w : Warp) (ct : Option Ctr) (kn : Option Nat) (k : Issue) : Issue :=
  if w.canRaise ct kn then k else .hold

/-- A `mark` of the team is outstanding: its later global accesses wait for it (R230, R314). -/
def State.markPending (s : State) (uid : Nat) : Bool :=
  s.ops.any fun o => o.team == uid && (match o.kind with
    | .mark _ => true
    | _ => false)

/-- A read that a warp makes at issue waits for its team's marks (R230). -/
def afterMarks (s : State) (t : Team) (k : Issue) : Issue := if s.markPending t.uid then .hold else k

/-- An operation put in flight and the instruction complete at issue. -/
def launching (s : State) (w : Warp) (o : Op) : Issue :=
  let r := s.launchOp w o
  .done r.1 r.2

/-- The parts of a lane's access, of 8 bytes at most, that are single-copy atomic (R187): a 16-byte access has two. -/
def unitsOf (ty : MemTy) (a : LaneAcc) : List LaneAcc :=
  if memSize ty = 16 then
    (List.range 2).map fun p => { a with part := p, va := a.va + 8 * p, pa := a.pa + 8 * p, op1 := a.op1 / 2 ^ (64 * p) % 2 ^ 64 }
  else [a]

/-- Bytes of a unit. -/
def unitSize (ty : MemTy) : Nat := min 8 (memSize ty)

/-- Registers of a unit. -/
def unitRegs (ty : MemTy) (d : Nat) (a : LaneAcc) : List Nat :=
  if memSize ty = 16 then [d + 2 * a.part, d + 2 * a.part + 1] else memRegs ty d

/-- The number an event names a unit by. -/
def LaneAcc.unit (a : LaneAcc) : Nat := 2 * a.lane + a.part

/-- The units of a load of checked lanes, and of a store: of units at one address the highest lane's is the one written
(R187). -/
def loadUnits (ty : MemTy) (ls : List LaneAcc) : List LaneAcc := ls.flatMap (unitsOf ty)
def storeUnits (ty : MemTy) (ls : List LaneAcc) : List LaneAcc :=
  let us := ls.flatMap (unitsOf ty)
  us.filter fun a => !(us.any fun b => b.pa == a.pa && decide (a.lane < b.lane))

/-- An address as an integer. -/
def globalInt (w : Warp) (a : Nat) (off : Int) (l : Nat) : Int := w.globalAddr a off l

/-! ### Loads and stores (R186) -/

/-- `ld.g` (R186). -/
def execLdG (ty : MemTy) (hint : Hint) (d a : Nat) (off : Int) (s : State) : Out :=
  onWarp s fun t j w =>
    let n := memSize ty
    require (t.okMem ty d && t.okV2 a) s w <| raising w (some .l) none <|
      reading s w [a, a + 1] w.active <|
        withGlobal s t w .read n (globalInt w a (off * n)) fun s1 ls =>
          launching s1 w (mkOp t j w none (some .l)
            (.load false ty hint d (loadUnits ty (ls.map fun p =>
              { lane := p.1, part := 0, va := p.2.1.toNat, pa := p.2.2, op1 := 0, op2 := 0 }))))

/-- `st.g` (R186). -/
def execStG (ty : MemTy) (hint : Hint) (d a : Nat) (off : Int) (s : State) : Out :=
  onWarp s fun t j w =>
    let n := memSize ty
    require (isStoreTy ty && t.okMem ty d && t.okV2 a) s w <| raising w (some .s) none <|
      reading s w ([a, a + 1] ++ memRegs ty d) w.active <|
        withGlobal s t w .write n (globalInt w a (off * n)) fun s1 ls =>
          launching s1 w (mkOp t j w none (some .s)
            (.store false ty hint (storeUnits ty (ls.map fun p =>
              { lane := p.1, part := 0, va := p.2.1.toNat, pa := p.2.2, op1 := w.vgroup (memRegs ty d) p.1, op2 := 0 }))))

/-- A scratchpad access waits while it overlaps an outstanding interval (R185). -/
def unheld (s : State) (t : Team) (load : Bool) (n : Nat) (ls : List (Nat × Int × Nat)) (k : Issue) : Issue :=
  if s.accessHeld t.uid load (ls.map fun p => granules p.2.2 n) then .hold else k

/-- `ld.s` (R186). -/
def execLdS (ty : MemTy) (d a : Nat) (off : Int) (s : State) : Out :=
  onWarp s fun t j w =>
    let n := memSize ty
    require (t.okMem ty d && t.okV a) s w <| raising w (some .l) none <|
      reading s w [a] w.active <|
        withLanes s w (w.scratchAddr a (off * n)) (checkScratch t n) fun ls =>
          unheld s t true n ls <|
            launching s w (mkOp t j w none (some .l)
              (.load true ty .default d (loadUnits ty (ls.map fun p =>
                { lane := p.1, part := 0, va := p.2.2, pa := p.2.2, op1 := 0, op2 := 0 }))))

/-- `st.s` (R186). -/
def execStS (ty : MemTy) (d a : Nat) (off : Int) (s : State) : Out :=
  onWarp s fun t j w =>
    let n := memSize ty
    require (isStoreTy ty && t.okMem ty d && t.okV a) s w <| raising w (some .s) none <|
      reading s w ([a] ++ memRegs ty d) w.active <|
        withLanes s w (w.scratchAddr a (off * n)) (checkScratch t n) fun ls =>
          unheld s t false n ls <|
            launching s w (mkOp t j w none (some .s)
              (.store true ty .default (storeUnits ty (ls.map fun p =>
                { lane := p.1, part := 0, va := p.2.2, pa := p.2.2, op1 := w.vgroup (memRegs ty d) p.1, op2 := 0 }))))

/-! ### Atomics (R90, R189 to R191) -/

/-- Registers of an atomic's value: w of R90. -/
def atomWords (ty : AtomTy) : Nat :=
  match ty with
  | .i32 | .n32 => 1
  | .i64 | .n64 => 2

def atomGroup (ty : AtomTy) (r : Nat) : List Nat := if atomWords ty = 2 then [r, r + 1] else [r]

def Team.okAtom (t : Team) (ty : AtomTy) (r : Nat) : Bool := if atomWords ty = 2 then t.okV2 r else t.okV r

/-- Operand registers of an operation: the first and the second, each beginning a value (R90). -/
def atomOperands (aop : AtomOp) (ty : AtomTy) (d : Nat) : List Nat :=
  match aop with
  | .ld => []
  | .st => [d]
  | .cas => [d + atomWords ty, d + 2 * atomWords ty]
  | _ => [d + atomWords ty]

/-- The order rules of R90. -/
def atomOrderOk (aop : AtomOp) (ord : Order) (pro : Bool) : Bool :=
  !(aop == .ld && (ord == .rel || ord == .acqrel)) && !(aop == .st && (ord == .acq || ord == .acqrel))
    && !(pro && !(ord == .acq || ord == .acqrel))

/-- An order that releases. -/
def orderReleases : Order → Bool
  | .rel | .acqrel | .sc => true
  | .rlx | .acq => false

/-- An order that acquires. -/
def orderAcquires : Order → Bool
  | .acq | .acqrel | .sc => true
  | .rlx | .rel => false

/-- The counter an atomic raises (R183). -/
def atomCtr (aop : AtomOp) : Ctr := if aop = .st then .s else .l

/-- A release waits until the warp's L and S are zero (R217). -/
def releasing (w : Warp) (rel : Bool) (k : Issue) : Issue :=
  if rel && (w.cntL != 0 || w.cntS != 0) then .hold else k

/-- The values a lane brings to an atomic. -/
def atomLane (w : Warp) (aop : AtomOp) (ty : AtomTy) (d : Nat) (p : Nat × Int × Nat) : LaneAcc :=
  let v := fun i => match (atomOperands aop ty d)[i]? with
    | some r => w.vgroup (atomGroup ty r) p.1
    | none => 0
  { lane := p.1, part := 0, va := p.2.1.toNat, pa := p.2.2, op1 := v 0, op2 := v 1 }

/-- A global atomic (R189). -/
def atomGlobal (aop : AtomOp) (d a : Nat) (ty : AtomTy) (scope : Scope) (ord : Order) (pro : Bool) (s : State) : Out :=
  onWarp s fun t j w =>
    let n := 4 * atomWords ty
    let srcs := (atomOperands aop ty d).flatMap (atomGroup ty)
    let k : AccKind := if aop = .ld then .read else .atomic
    require (atomOrderOk aop ord pro && t.okAtom ty d && ((atomOperands aop ty d).all (t.okAtom ty)) && t.okV2 a)
        s w <|
      raising w (some (atomCtr aop)) none <| releasing w (orderReleases ord) <|
        reading s w ([a, a + 1] ++ srcs) w.active <|
          withGlobal s t w k n (globalInt w a 0) fun s1 ls =>
            launching s1 w (mkOp t j w none (some (atomCtr aop))
              (.atomic false aop ty scope ord pro d (ls.map (atomLane w aop ty d))))

/-- A scratchpad atomic (R189): order .sc is F_ILLEGAL (R90). -/
def atomScratch (aop : AtomOp) (d a : Nat) (ty : AtomTy) (ord : Order) (s : State) : Out :=
  onWarp s fun t j w =>
    let n := 4 * atomWords ty
    let srcs := (atomOperands aop ty d).flatMap (atomGroup ty)
    require (ord != .sc && atomOrderOk aop ord false && t.okAtom ty d
        && ((atomOperands aop ty d).all (t.okAtom ty)) && t.okV a) s w <|
      raising w (some (atomCtr aop)) none <| releasing w (orderReleases ord) <|
        reading s w ([a] ++ srcs) w.active <|
          withLanes s w (w.scratchAddr a 0) (checkScratch t n) fun ls =>
            unheld s t false n ls <|
              launching s w (mkOp t j w none (some (atomCtr aop))
                (.atomic true aop ty .team ord false d (ls.map (atomLane w aop ty d))))

/-- `atom.ld` (R189). -/
def execAtomLd (d a : Nat) (ty : AtomTy) (scope : Scope) (ord : Order) (pro : Bool) (s : State) : Out :=
  atomGlobal .ld d a ty scope ord pro s
/-- `atom.st` (R189). -/
def execAtomSt (d a : Nat) (ty : AtomTy) (scope : Scope) (ord : Order) (pro : Bool) (s : State) : Out :=
  atomGlobal .st d a ty scope ord pro s
/-- `atom.exch` (R189). -/
def execAtomExch (d a : Nat) (ty : AtomTy) (scope : Scope) (ord : Order) (pro : Bool) (s : State) : Out :=
  atomGlobal .exch d a ty scope ord pro s
/-- `atom.cas` (R189). -/
def execAtomCas (d a : Nat) (ty : AtomTy) (scope : Scope) (ord : Order) (pro : Bool) (s : State) : Out :=
  atomGlobal .cas d a ty scope ord pro s
/-- `atom.add` (R189). -/
def execAtomAdd (d a : Nat) (ty : AtomTy) (scope : Scope) (ord : Order) (pro : Bool) (s : State) : Out :=
  atomGlobal .add d a ty scope ord pro s
/-- `atom.min` (R189). -/
def execAtomMin (d a : Nat) (ty : AtomTy) (scope : Scope) (ord : Order) (pro : Bool) (s : State) : Out :=
  atomGlobal .min d a ty scope ord pro s
/-- `atom.max` (R189). -/
def execAtomMax (d a : Nat) (ty : AtomTy) (scope : Scope) (ord : Order) (pro : Bool) (s : State) : Out :=
  atomGlobal .max d a ty scope ord pro s
/-- `atom.and` (R189). -/
def execAtomAnd (d a : Nat) (ty : AtomTy) (scope : Scope) (ord : Order) (pro : Bool) (s : State) : Out :=
  atomGlobal .band d a ty scope ord pro s
/-- `atom.or` (R189). -/
def execAtomOr (d a : Nat) (ty : AtomTy) (scope : Scope) (ord : Order) (pro : Bool) (s : State) : Out :=
  atomGlobal .bor d a ty scope ord pro s
/-- `atom.ld.s` (R189). -/
def execAtomSLd (d a : Nat) (ty : AtomTy) (ord : Order) (s : State) : Out := atomScratch .ld d a ty ord s
/-- `atom.st.s` (R189). -/
def execAtomSSt (d a : Nat) (ty : AtomTy) (ord : Order) (s : State) : Out := atomScratch .st d a ty ord s
/-- `atom.exch.s` (R189). -/
def execAtomSExch (d a : Nat) (ty : AtomTy) (ord : Order) (s : State) : Out := atomScratch .exch d a ty ord s
/-- `atom.cas.s` (R189). -/
def execAtomSCas (d a : Nat) (ty : AtomTy) (ord : Order) (s : State) : Out := atomScratch .cas d a ty ord s
/-- `atom.add.s` (R189). -/
def execAtomSAdd (d a : Nat) (ty : AtomTy) (ord : Order) (s : State) : Out := atomScratch .add d a ty ord s
/-- `atom.min.s` (R189). -/
def execAtomSMin (d a : Nat) (ty : AtomTy) (ord : Order) (s : State) : Out := atomScratch .min d a ty ord s
/-- `atom.max.s` (R189). -/
def execAtomSMax (d a : Nat) (ty : AtomTy) (ord : Order) (s : State) : Out := atomScratch .max d a ty ord s
/-- `atom.and.s` (R189). -/
def execAtomSAnd (d a : Nat) (ty : AtomTy) (ord : Order) (s : State) : Out := atomScratch .band d a ty ord s
/-- `atom.or.s` (R189). -/
def execAtomSOr (d a : Nat) (ty : AtomTy) (ord : Order) (s : State) : Out := atomScratch .bor d a ty ord s

end Sys2Proof.Machine
end

