-- ==== Sys2Proof/Machine/TensorMap.lean ====
section
/-! DEFINITION. Tensor-map slots, seeds, and the issue of copies (R197 to R205, R208). -/

namespace Sys2Proof.Machine

/-! ### Parameter blocks -/

/-- The trouble of an instruction with a parameter block: OPADDR is its address (R383). -/
def blockTrouble (code : FaultCode) (opaddr addr : Nat) : Trouble := { code := code, addr := addr, opaddr := opaddr }

/-- A block of `n` bytes named by the pair `d`, aligned to `al`, checked with read and write permission and read at
issue, after the team's marks (R180, R204, R230): its address, the physical address of its first byte, and its bytes. -/
def withBlock (s : State) (t : Team) (w : Warp) (d al n : Nat) (k : State → Nat → Nat → List Byte → Issue) : Issue :=
  let a := (w.sget64 d).toNat
  if a % al ≠ 0 then .trap s w (blockTrouble .align a a)
  else
    match s.checkRange t.core t.world a n .atomic with
    | .error e => .trap (s.walked t.core t.world (pageStarts a n)) w (blockTrouble e.1 a e.2)
    | .ok _ => afterMarks s t <|
      match s.readVirt t.core t.world (some (logAgent 0 t.core)) a n with
      | (.ok bs, s1) => k s1 a (s.physical t.core t.world .atomic a) bs
      | (.error e, s1) => .trap s1 w (w.readTrouble e)

/-- `n` bytes of a block at an offset, as a number. -/
def blkNat (b : List Byte) (off n : Nat) : Nat := leVal ((b.drop off).take n)

/-- A condition whose failure is a fault naming the block. -/
def demand (s : State) (w : Warp) (ok : Bool) (code : FaultCode) (opaddr addr : Nat) (k : Issue) : Issue :=
  if ok then k else .trap s w (blockTrouble code opaddr addr)

/-! ### Slots and seeds (R200 to R202) -/

/-- `tmld` (R200). -/
def execTmld (kn d a : Nat) (s : State) : Out :=
  onWarp s fun t j w =>
    let slot := (w.sget d).toNat
    let va := (w.sget64 a).toNat
    require (okS2 a && decide (slot < 16)) s w <| raising w (some .l) (some kn) <|
      if s.slotBusy t.uid slot then .hold
      else if va % 128 ≠ 0 then .trap s w { code := .align, addr := va }
      else
        let s1 := s.walked t.core t.world [va]
        match s.translate t.core t.world va .read with
        | .error c => .trap s1 w { code := c, addr := va }
        | .ok pa => launching s1 w (mkOp t j w (some kn) (some .l) (.tmld slot va pa))

/-- A field selector: offset and size in bytes (R201). -/
def tmField (sel : Nat) : Option (Nat × Nat) :=
  if sel ≤ 1 then some (4 * sel, 4)
  else if sel ≤ 6 then some (16 + 4 * (sel - 2), 4)
  else if sel ≤ 10 then some (40 + 8 * (sel - 7), 8)
  else
    match sel with
    | 11 => some (72, 4)
    | 12 => some (12, 2)
    | 13 => some (88, 2)
    | 14 => some (90, 2)
    | 15 => some (92, 1)
    | 16 => some (80, 4)
    | 17 => some (84, 4)
    | _ => none

/-- A slot field written by warp `j` (R201). -/
def Team.setField (t : Team) (j slot off n v : Nat) : Team :=
  let old := BitVec.ofNat 64 (leVal (Sparse.getN 0 t.slots (slot * 128 + off) n))
  { t.leaveOld j (.field slot off n) old with slots := Sparse.setN 0 t.slots (slot * 128 + off) (leBytes n v) }

/-- `tmset` (R201). -/
def execTmset (d a b : Nat) (s : State) : Out :=
  onWarp s fun t j w =>
    let slot := (w.sget d).toNat
    let v := (w.sget b).toNat
    match tmField (w.sget a).toNat with
    | none => illegal s w
    | some (off, n) =>
      require (decide (slot < 16) && decide (v < 2 ^ (8 * n))) s w <|
        if s.slotBusy t.uid slot then .hold
        else .done (s.updTeam t.uid fun x => x.setField j slot off n v) w

/-- Another team's warps may see the value of a seed before a write by warp `u` (R138). -/
def Team.seedOld (t : Team) (u : Nat × Nat) (k : Nat) (v : DWord) : Team :=
  let e : OldValue := { what := .seed k, writer := u, value := v, known := [], signal := [], due := [] }
  { t with old := if t.old.contains e then t.old else t.old ++ [e] }

/-- A seed of a world written by warp `j` of a team: the other warps of the world may see its old value (R138, R202). -/
def State.setSeed (s : State) (t : Team) (j k : Nat) (v : Word) : State :=
  let x := s.world t.world
  let old := BitVec.ofNat 64 (Sparse.get 0 x.sg k).toNat
  { s.setWorld t.world { x with sg := Sparse.set 0 x.sg k v } with
    teams := s.teams.map fun y =>
      if y.world ≠ t.world then y
      else if y.uid = t.uid then y.leaveOld j (.seed k) old
      else y.seedOld (t.uid, j) k old }

/-- `sgset` (R202). -/
def execSgset (d a : Nat) (s : State) : Out :=
  onWarp s fun t j w =>
    let k := (w.sget d).toNat
    require (decide (k < 8)) s w <| .done (s.setSeed t j k (w.sget a)) w

/-! ### Copies (R203 to R205, R208) -/

/-- The five 32-bit words of a block from an offset. -/
def blkFive (b : List Byte) (off : Nat) : List Nat := (List.range 5).map fun d => blkNat b (off + 4 * d) 4

/-- The reserved fields of a copy block are zero (R203). -/
def copyReservedOk (b : List Byte) (multi : Bool) : Bool :=
  field (blkNat b 0 1) 7 4 == 0 && field (blkNat b 1 1) 7 4 == 0 && field (blkNat b 2 1) 7 3 == 0
    && field (blkNat b 3 1) 7 4 == 0 && blkNat b 7 1 == 0 && blkNat b 76 4 == 0 && blkNat b 112 16 == 0
    && (multi || blkNat b 80 32 == 0)

/-- Check 3 of R204, with the limit of 2^48 elements (R353). -/
def boxOk (rank : Nat) (box sorg dorg : List Nat) : Bool :=
  ((List.range 5).all fun d =>
    if d < rank then box.getD d 0 != 0 else box.getD d 0 == 0 && sorg.getD d 0 == 0 && dorg.getD d 0 == 0)
    && decide (volume box rank ≤ 2 ^ 48)

/-- Check 7 of R204. -/
def copyTagsOk (sg : Sparse Word) (src dst : TMap) (box sorg dorg : List Nat) : Bool :=
  tagOk sg src.tag && tagOk sg dst.tag && src.tag == dst.tag
    && (!tagRotated src.tag ||
      (let n := blkSize (tagBlk src.tag)
       sorg.getD 0 0 == dorg.getD 0 0 && sorg.getD 0 0 % n == 0 && box.getD 0 0 % n == 0))

/-- A scratchpad arrival word lies in the allocation and outside the write intervals (R204, R208). -/
def arrivalIn (t : Team) (aw : Nat) (iv : List (Nat × Nat)) : Bool :=
  t.inScratch aw 8 && iv.all fun i => !overlaps i (granules aw 8)

/-- A target resolved at issue: a team of the sender's launch resident on the sender's cluster (R208), with the
status it starts from. DESIGN CHOICE (check 9 of R204 is for `cpy` only and R208 names no alignment): the alignment of a
target's scratchpad arrival word is not checked (log 99). -/
def resolveTarget (s : State) (t : Team) (c : Copy) (teamId : Nat) : CopyTgt × Nat :=
  match s.teams.find? fun x => x.launch == t.launch && x.teamId == teamId && x.place == .resident
      && x.core / 8 == t.core / 8 with
  | none => ({ team := 0, core := 0, gen := 0, state := .dropped, got := 0, bytes := 0, writes := [], reg := 0 }, 1)
  | some x =>
    let iv := c.dst.intervals c.dorg c.box
    let g : CopyTgt := { team := x.uid, core := x.core, gen := x.gen, state := .waiting, got := 0, bytes := 0,
                         writes := iv, reg := 0 }
    if x.holds iv && (!c.awen || arrivalIn x c.awaddr iv) then (g, 0) else ({ g with state := .dropped }, 3)

/-- The copy a block and two maps describe. -/
def copyOf (b : List Byte) (multi : Bool) (src dst : TMap) : Copy :=
  let ctl := blkNat b 2 1
  { multi := multi, src := src, dst := dst, box := blkFive b 16, sorg := blkFive b 36, dorg := blkFive b 56,
    baren := bitOf ctl 0, awen := bitOf ctl 1, awsp := bitOf ctl 2, bar := blkNat b 3 1, awaddr := blkNat b 8 8,
    awpa := 0, next := 0, part := 0, flight := [], bytes := 0, status := 0, smask := 0, targets := [] }

/-- The scratchpad arrival word and intervals of a `cpy` (check 9 of R204). DESIGN CHOICE: within the check the manual gives no order,
and the intervals come before the arrival word's alignment (log 118). -/
def copyLocalCheck (t : Team) (c : Copy) : Option FaultCode :=
  let rd := c.src.intervals c.sorg c.box
  let wr := c.dst.intervals c.dorg c.box
  if !t.holds rd || !t.holds wr then some .scratch
  else if c.awen && c.awsp then
    if c.awaddr % 8 ≠ 0 then some .align else if arrivalIn t c.awaddr wr then none else some .scratch
  else none

/-- Check 8 of R204: the physical address of a global arrival word. -/
def arrivalCheck (s : State) (t : Team) (c : Copy) : Except FaultCode Nat :=
  if c.awen && !c.awsp then
    if c.awaddr % 8 ≠ 0 then .error .align else s.translate t.core t.world c.awaddr .write
  else .ok 0

/-- A copy that has passed its checks registers its intervals and goes in flight; a full scoreboard holds it (R205). -/
def startCopy (s : State) (t : Team) (j : Nat) (w : Warp) (kn : Nat) (a pa : Nat) (c : Copy) (ids : List Nat) : Issue :=
  let rs := if c.multi then ids.map (resolveTarget s t c) else []
  let c1 := { c with targets := rs.map (·.1), status := (rs.map (·.2)).foldl max 0,
                     smask := ((rs.zip (List.range rs.length)).map fun p =>
                       if p.1.1.state = .dropped then 2 ^ p.2 else 0).foldl (· + ·) 0 }
  let rd := c.src.intervals c.sorg c.box
  let wr := if c.multi then [] else c.dst.intervals c.dorg c.box
  if (rd ≠ [] ∨ wr ≠ []) ∧ s.scoreboardFull t.core then .hold
  else launching s w { mkOp t j w (some kn) (some .c) (.copy c1) with opaddr := a, blkpa := pa, reads := rd, writes := wr }

/-- `cpy` and `cpym` (R203, R204). DESIGN CHOICE (check 9 of R204 is for `cpy` only): a `cpym` whose source intervals leave its
own allocation is issued, and reads zero outside it (log 100). -/
def issueCopy (s : State) (kn d : Nat) (multi : Bool) : Out :=
  onSeeing s false fun s t sg j w =>
    require (okS2 d) s w <| raising w (some .c) (some kn) <| withBlock s t w d 128 128 fun s a pa b =>
      let ss := field (blkNat b 0 1) 3 0
      let ds := field (blkNat b 1 1) 3 0
      usingSlots s t w [(ss, false), (ds, true)] (blockTrouble .illegal a 0) <|
        let c := copyOf b multi (t.tmap ss) (t.tmap ds)
        let rank := c.src.rank
        let ntgt := blkNat b 4 1
        let ids := (List.range (min ntgt 8)).map fun i => blkNat b (80 + 4 * i) 4
        let sizes := c.src.fmt == c.dst.fmt && c.src.rank == c.dst.rank && boxOk rank c.box c.sorg c.dorg
          && (c.src.fmt != .nq4 || (rank == 1 && c.sorg.getD 0 0 % 16384 == 0 && c.dorg.getD 0 0 % 16384 == 0
            && c.box.getD 0 0 % 16384 == 0))
        let targets := if multi then decide (1 ≤ ntgt) && decide (ntgt ≤ 8) && decide ids.Nodup && c.dst.scratch
            && (!c.awen || c.awsp) else ntgt == 0
        demand s w (copyReservedOk b multi && sizes && targets && (!c.baren || decide (c.bar ≤ t.barsMax)))
          .illegal a 0 <|
        demand s w (copyTagsOk sg c.src c.dst c.box c.sorg c.dorg) .tag a 0 <|
          let s1 := if c.awen && !c.awsp && c.awaddr % 8 == 0 then s.walked t.core t.world [c.awaddr] else s
          match arrivalCheck s t c with
          | .error e => .trap s1 w (blockTrouble e a c.awaddr)
          | .ok awpa =>
            match (if multi then none else copyLocalCheck t c) with
            | some e => .trap s1 w (blockTrouble e a 0)
            | none => startCopy s1 t j w kn a pa { c with awpa := awpa } ids

/-- `cpy` (R203). -/
def execCpy (kn d : Nat) (s : State) : Out := issueCopy s kn d false
/-- `cpym` (R208). -/
def execCpym (kn d : Nat) (s : State) : Out := issueCopy s kn d true

end Sys2Proof.Machine
end

