-- ==== Sys2Proof/Machine/NearBank.lean ====
section
/-! DEFINITION. Issue of the near-bank instructions, and what a bank processor's microprogram is and does to a row
(R297 to R307, R314, R315). -/

namespace Sys2Proof.Machine

/-! ### Microprograms (R301, R302, R304) -/

def uop (w : Word) : Nat := field w.toNat 31 28
def uf (w : Word) (hi lo : Nat) : Nat := field w.toNat hi lo

/-- A word is assigned, its reserved fields are zero and its offsets at most 47 (R301, R304). -/
def uopOk (w : Word) : Bool :=
  match uop w with
  | 0x0 => uf w 27 26 != 3 && uf w 23 16 == 0
  | 0x1 => uf w 25 0 == 0
  | 0x2 => uf w 27 0 == 0
  | 0x3 => uf w 27 26 != 3 && uf w 25 0 == 0
  | 0x4 => uf w 27 6 == 0 && decide (uf w 5 0 ≤ 47)
  | 0x5 => uf w 11 0 == 0 && decide (uf w 17 12 ≤ 47)
  | 0x6 => uf w 25 0 == 0
  | 0x7 => uf w 26 0 == 0
  | 0x8 => uf w 27 0 == 0
  | 0x9 | 0xA => uf w 27 25 != 0 && uf w 24 0 == 0
  | 0xB | 0xC => uf w 27 26 != 3 && uf w 25 24 != 3 && uf w 23 22 != 3 && uf w 21 0 == 0
  | 0xD => uf w 27 26 != 3 && uf w 25 24 != 3 && uf w 23 22 == 0 && uf w 21 20 != 3 && uf w 19 0 == 0
  | _ => false

/-- Passes of one execution (R301). -/
def uopPasses (w : Word) : Nat :=
  match uop w with
  | 0x1 | 0x2 | 0x9 | 0xA | 0xB | 0xC | 0xD => 1
  | _ => 0

/-- Repetitions and body length of a LOOP. -/
def loopN (w : Word) : Nat := uf w 27 22 + 1
def loopLen (w : Word) : Nat := uf w 21 18 + 1

/-- A LOOP's body lies inside the program and contains no LOOP (R304). -/
def loopOk (p : List Word) (i : Nat) (w : Word) : Bool :=
  uop w != 0x5 || (decide (i + 1 + loopLen w ≤ p.length)
    && ((p.drop (i + 1)).take (loopLen w)).all fun x => uop x != 0x5)

/-- The word at whose execution the passes first exceed 256, counting from `i` with `n` passes so far; a LOOP is
counted with its body repeated and is itself reported for its body (R304). -/
def passLimit (p : List Word) : Nat → Nat → Nat → Option Nat
  | 0, _, _ => none
  | f + 1, i, n =>
    match p[i]? with
    | none => none
    | some w =>
      if uop w = 0x5 then
        let body := ((p.drop (i + 1)).take (loopLen w)).map uopPasses
        let m := n + loopN w * body.foldl (· + ·) 0
        if 256 < m then some i else passLimit p f (i + 1 + loopLen w) m
      else
        let m := n + uopPasses w
        if 256 < m then some i else passLimit p f (i + 1) m

/-- The index of the first offending word of a program, if any (R304). -/
def offending (p : List Word) : Option Nat :=
  match (List.range p.length).find? fun i => match p[i]? with
    | some w => !(uopOk w && loopOk p i w)
    | none => false with
  | some i => some i
  | none => passLimit p p.length 0 0

/-! ### A bank processor over one row (R298 to R302) -/

/-- The micro-state of a bank processor while it runs a row (R300). -/
structure BpState where
  k : DWord
  cm : DWord
  wm : DWord
  tags : List Bool
  boff : Nat
  acc : List Word
  row : List DWord
  /-- The residue fault that stopped the row: field and element. -/
  stop : Option (Nat × Nat)
  /-- The row's remaining micro-operations are skipped (ENDZ). -/
  skip : Bool
  deriving DecidableEq, Repr, Inhabited

/-- X′: the low 48 bits rotated left by BOFF (R300). -/
def applyBoff (x : DWord) (b : Nat) : DWord :=
  let v := x.toNat % 2 ^ 48
  BitVec.ofNat 64 (x.toNat / 2 ^ 48 * 2 ^ 48 + (v * 2 ^ b % 2 ^ 48) + v / 2 ^ (48 - b))

/-- res(v) of a signed 16-bit element (R10, R299). -/
def residue (v : Nat) : Nat := ((signExt 16 v) % 3).toNat

/-- Element and residue code of a field (R298). -/
def elemOf (f : DWord) (e : Nat) : Nat := field f.toNat (16 * e + 15) (16 * e)
def resOf (f : DWord) (e : Nat) : Nat := field f.toNat (49 + 2 * e) (48 + 2 * e)
def setRes (f : DWord) (e r : Nat) : DWord := BitVec.ofNat 64 (setField f.toNat (49 + 2 * e) (48 + 2 * e) r)

/-- The elements a SLOTS field names, ascending. -/
def slotsOf (n : Nat) : List Nat := (List.range 3).filter fun e => bitOf n e

/-- Every field of the row with its number and tag. -/
def BpState.fields (b : BpState) : List (Nat × DWord × Bool) :=
  (List.range 256).map fun f => (f, b.row.getD f 0, b.tags.getD f false)

/-- Tagged fields changed. -/
def BpState.mapTagged (b : BpState) (g : DWord → DWord) : BpState :=
  { b with row := b.fields.map fun p => if p.2.2 then g p.2.1 else p.2.1 }

/-- An arithmetic micro-operation on residues: a 0b11 source in a tagged field is a residue fault (R302). -/
def BpState.residueOp (b : BpState) (d : Nat) (srcs : List Nat) (g : DWord → Nat) : BpState :=
  match b.fields.findSome? fun p =>
    if p.2.2 then (srcs.find? fun e => resOf p.2.1 e == 3).map fun e => (p.1, e) else none with
  | some x => { b with stop := some x }
  | none => b.mapTagged fun f => setRes f d (g f)

/-- One micro-operation other than LOOP (R302). -/
def BpState.run1 (b : BpState) (w : Word) : BpState :=
  if b.skip || b.stop.isSome then b
  else
    match uop w with
    | 0x0 =>
      let q := uf w 25 24
      let put := fun (r : DWord) => BitVec.ofNat 64 (setField r.toNat (16 * q + 15) (16 * q) (uf w 15 0))
      match uf w 27 26 with
      | 0 => { b with k := put b.k }
      | 1 => { b with cm := put b.cm }
      | _ => { b with wm := put b.wm }
    | 0x1 =>
      let k := applyBoff b.k b.boff
      let cm := applyBoff b.cm b.boff
      { b with tags := b.fields.map fun p =>
          let m := ((p.2.1 ^^^ k) &&& cm) == 0
          match uf w 27 26 with
          | 0 => m
          | 1 => p.2.2 && m
          | 2 => p.2.2 || m
          | _ => p.2.2 && !m }
    | 0x2 =>
      let k := applyBoff b.k b.boff
      let wm := applyBoff b.wm b.boff
      b.mapTagged fun f => (f &&& ~~~wm) ||| (k &&& wm)
    | 0x3 =>
      { b with tags := b.fields.map fun p =>
          match uf w 27 26 with
          | 0 => false
          | 1 => true
          | _ => !p.2.2 }
    | 0x4 => { b with boff := uf w 5 0 }
    | 0x6 =>
      let n := (b.tags.filter fun t => t).length
      { b with acc := b.acc.set (uf w 27 26) (b.acc.getD (uf w 27 26) 0 + BitVec.ofNat 32 n) }
    | 0x7 =>
      { b with tags := (List.range 256).map fun f =>
          if uf w 27 27 = 0 then b.tags.getD (f + 1) false else if f = 0 then false else b.tags.getD (f - 1) false }
    | 0x8 => if b.tags.any fun t => t then b else { b with skip := true }
    | 0x9 =>
      b.mapTagged fun f => (slotsOf (uf w 27 25)).foldl (fun x e => setRes x e (residue (elemOf f e))) f
    | 0xA =>
      match b.fields.findSome? fun p =>
        if p.2.2 then ((slotsOf (uf w 27 25)).find? fun e => resOf p.2.1 e != residue (elemOf p.2.1 e)).map
          fun e => (p.1, e) else none with
      | some x => { b with stop := some x }
      | none => b
    | 0xB =>
      let x := uf w 25 24
      let y := uf w 23 22
      b.residueOp (uf w 27 26) [x, y] fun f => (resOf f x + resOf f y) % 3
    | 0xC =>
      let x := uf w 25 24
      let y := uf w 23 22
      b.residueOp (uf w 27 26) [x, y] fun f => (resOf f x + 3 - resOf f y) % 3
    | 0xD =>
      let x := uf w 25 24
      b.residueOp (uf w 27 26) [x] fun f => resOf f x * uf w 21 20 % 3
    | _ => b

/-- A LOOP's repetitions (R302). -/
def BpState.loop (body : List Word) (step : Nat) : Nat → BpState → BpState
  | 0, b => b
  | n + 1, b =>
    let b1 := body.foldl BpState.run1 b
    BpState.loop body step n (if b1.skip || b1.stop.isSome then b1 else { b1 with boff := (b1.boff + step) % 48 })

/-- The program from index `i` on; `fuel` bounds the words. -/
def BpState.runFrom (p : List Word) : Nat → Nat → BpState → BpState
  | 0, _, b => b
  | f + 1, i, b =>
    match p[i]? with
    | none => b
    | some w =>
      if b.skip || b.stop.isSome then b
      else if uop w = 0x5 then
        BpState.runFrom p f (i + 1 + loopLen w) (BpState.loop ((p.drop (i + 1)).take (loopLen w)) (uf w 17 12) (loopN w) b)
      else BpState.runFrom p f (i + 1) (b.run1 w)

/-- A program over a row with a BP's accumulators: K, CM, WM, tags and BOFF start at zero (R300, R305). -/
def runRow (p : List Word) (acc : List Word) (row : List DWord) : BpState :=
  BpState.runFrom p p.length 0
    { k := 0, cm := 0, wm := 0, tags := List.replicate 256 false, boff := 0, acc := acc, row := row, stop := none,
      skip := false }

/-! ### Issue (R304, R306, R307, R314, R315) -/

/-- A command of a block as read; none when it breaks R306. -/
def readCommand (b : List Byte) (i : Nat) : Option PimCmd :=
  let o := 64 + 16 * i
  let op := blkNat b o 1
  let rows := blkNat b (o + 2) 2
  let pat := blkNat b (o + 4) 4
  let gpa := blkNat b (o + 8) 8
  if op ≤ 1 ∧ blkNat b (o + 1) 1 = 0 ∧ 1 ≤ rows ∧ rows ≤ 4096 ∧ (op = 1 ∨ pat = 0) ∧ gpa % 2048 = 0 ∧ gpa < 2 ^ 52
  then some { fill := op == 1, nrows := rows, pat := pat, gpa := gpa } else none

/-- The header's reserved fields are zero and NCMD is in range (R306, R307). -/
def pimHeaderOk (b : List Byte) : Bool :=
  decide (1 ≤ blkNat b 0 2) && decide (blkNat b 0 2 ≤ 1024) && field (blkNat b 2 1) 7 1 == 0
    && field (blkNat b 3 1) 7 4 == 0 && blkNat b 5 3 == 0 && blkNat b 32 32 == 0

/-- The team has an operation of a kind outstanding. -/
def State.teamHas (s : State) (uid : Nat) (p : OpKind → Bool) : Bool := s.ops.any fun o => o.team == uid && p o.kind

def OpKind.isPimld : OpKind → Bool
  | .pimld _ _ _ => true
  | _ => false

/-- `pimx` (R307). -/
def execPimx (kn d : Nat) (s : State) : Out :=
  onWarp s fun t j w =>
    require (okS2 d) s w <| raising w (some .c) (some kn) <|
      if s.teamHas t.uid OpKind.isPimld then .hold
      else
        withBlock s t w d 64 64 fun s a pa h =>
          let n := blkNat h 0 2
          match s.checkRange t.core t.world a (64 + 16 * n) .atomic,
              s.readVirt t.core t.world (some (logAgent 0 t.core)) a (64 + 16 * n) with
          | .error e, (_, s1) => .trap s1 w (blockTrouble e.1 a e.2)
          | .ok _, (.error e, s1) => .trap s1 w (w.readTrouble e)
          | .ok _, (.ok b, s) =>
            let cmds := (List.range n).filterMap (readCommand b)
            let bar := blkNat b 3 1
            let baren := bitOf (blkNat b 2 1) 0
            let runs := cmds.any fun c => !c.fill
            let prog := match t.uprog with
              | some p => if p.valid then some p else none
              | none => none
            demand s w (pimHeaderOk b && cmds.length == n && (s.world t.world).pimok
                && (!baren || decide (bar ≤ t.barsMax)) && (!runs || prog.isSome)) .illegal a 0 <|
              launching s w
                { mkOp t j w (some kn) (some .c)
                    (.pimx { cmds := cmds, prog := prog, baren := baren, bar := bar, cmd := 0, pages := none,
                             row := 0, pend := [], faults := [], acc := [0, 0, 0, 0],
                             bpAcc := [], stopped := false, status := 0 })
                  with opaddr := a, blkpa := pa }

/-- `pimld` (R304). -/
def execPimld (kn d a : Nat) (s : State) : Out :=
  onWarp s fun t j w =>
    let n := (w.sget a).toNat
    let va := (w.sget64 d).toNat
    require (okS2 d) s w <| demand s w (decide (1 ≤ n) && decide (n ≤ 256)) .illegal va 0 <| raising w (some .c) (some kn) <|
      if va % 64 ≠ 0 then .trap s w (blockTrouble .align va va)
      else
        let s1 := s.walked t.core t.world (pageStarts va (4 * n))
        match s.checkRange t.core t.world va (4 * n) .read with
        | .error e => .trap s1 w (blockTrouble e.1 va e.2)
        | .ok _ =>
          let pas := (List.range n).map fun i => s.physical t.core t.world .read (va + 4 * i)
          launching s1 w { mkOp t j w (some kn) (some .c) (.pimld va n pas) with opaddr := va }

/-- The traffic a `mark` orders: global accesses, copies, near-bank commands and `pimld` (R230, R314). -/
def OpKind.marked : OpKind → Bool
  | .load sp _ _ _ _ => !sp
  | .store sp _ _ _ => !sp
  | .atomic sp _ _ _ _ _ _ _ => !sp
  | .mark _ => false
  | _ => true

/-- `mark` (R314). -/
def execMark (kn : Nat) (s : State) : Out :=
  onWarp s fun t j w =>
    raising w none (some kn) <|
      let before := (s.ops.filter fun o => o.team == t.uid && o.kind.marked).map fun o => o.id
      launching s w (mkOp t j w (some kn) none (.mark before))

/-- `pimwait` (R315). -/
def execPimwait (s : State) : Out :=
  onWarp s fun t j w =>
    if s.ops.any fun o => o.team == t.uid && o.warp == j && (match o.kind with
      | .pimx _ | .pimld _ _ _ | .mark _ => true
      | _ => false) then .hold
    else .done s w

end Sys2Proof.Machine
end

