-- ==== Sys2Proof/Machine/Elements.lean ====
section
/-! DEFINITION. What the tensor, layer and row engines share: operands, the checks of R239, reading and writing elements,
when an operation may be performed and how it ends (R239 to R243, R265). -/

namespace Sys2Proof.Machine

/-! ### Operands (R239 orders 7 and 8, R241) -/

/-- An operand: a map, the box the operation touches in it, and whether it is written. -/
structure Operand where
  map : TMap
  org : List Nat
  box : List Nat
  write : Bool
  deriving DecidableEq, Repr, Inhabited

/-- A two-dimensional operand. -/
def operand2 (m : TMap) (o0 o1 b0 b1 : Nat) (write : Bool) : Operand :=
  { map := m, org := [o0, o1, 0, 0, 0], box := [b0, b1, 1, 1, 1], write := write }

/-- The scratchpad intervals of the operands read and of those written. -/
def readIvs (ops : List Operand) : List (Nat × Nat) :=
  (ops.filter fun p => !p.write).flatMap fun p => p.map.intervals p.org p.box
def writeIvs (ops : List Operand) : List (Nat × Nat) :=
  (ops.filter fun p => p.write).flatMap fun p => p.map.intervals p.org p.box

/-- At most 4 read and 2 write intervals (R239 orders 1 and 3). -/
def fewIvs (ops : List Operand) : Bool := decide ((readIvs ops).length ≤ 4) && decide ((writeIvs ops).length ≤ 2)

/-- Byte ranges of the in-bounds elements of a global map's box. -/
def TMap.spans (m : TMap) (org box : List Nat) : List (Nat × Nat) :=
  if m.scratch then []
  else
    let ext := (List.range 5).map fun d => min (box.getD d 0) (m.dim d - org.getD d 0)
    let cs := (List.range (volume ext m.rank)).map fun e => addCoords org (coordsOf ext m.rank e)
    let ins := cs.filter m.inside
    if m.fmt = .nq4 then
      ((ins.map fun c => indexOf m.dims m.rank c / 16384).eraseDups).map fun r => ((m.base + 8512 * r) % 2 ^ 64, 8512)
    else ins.map fun c => (m.addr c, m.esize)

/-- The virtual pages of byte ranges, each once. -/
def pagesOf (spans : List (Nat × Nat)) : List Nat :=
  (spans.flatMap fun p => (List.range ((p.1 + p.2 - 1) / 16384 + 1 - p.1 / 16384)).map fun i => p.1 / 16384 + i).eraseDups

/-- The physical page of every virtual page of the ranges, or the first fault with its address (R180, R240). -/
def State.holdPages (s : State) (t : Team) (k : AccKind) : List Nat → KMap Nat → Except (FaultCode × Nat) (KMap Nat)
  | [], acc => .ok acc
  | v :: r, acc =>
    match s.translate t.core t.world (v * 16384) k with
    | .error c => .error (c, v * 16384)
    | .ok pa => s.holdPages t k r (KMap.put acc v (pa / 16384))

/-- Order 7 of R239 on every global operand, with further byte ranges read and written: the pages held. -/
def State.holdOperands (s : State) (t : Team) (ops : List Operand) (rd wr : List (Nat × Nat)) :
    Except (FaultCode × Nat) (KMap Nat) :=
  let reads := pagesOf (((ops.filter fun p => !p.write).flatMap fun p => p.map.spans p.org p.box) ++ rd)
  let writes := pagesOf (((ops.filter fun p => p.write).flatMap fun p => p.map.spans p.org p.box) ++ wr)
  match s.holdPages t .read reads [] with
  | .error e => .error e
  | .ok m => s.holdPages t .write writes m

/-- What the walks for the operands' pages read is read (R326). -/
def State.walkedOperands (s : State) (t : Team) (ops : List Operand) (rd wr : List (Nat × Nat)) : State :=
  s.walked t.core t.world ((pagesOf ((ops.flatMap fun p => p.map.spans p.org p.box) ++ rd ++ wr)).map (· * 16384))

/-! ### Generation pairs (R265) -/

/-- The generation of the slot a map reads without a named generation. -/
def TMap.curGen (m : TMap) : Nat := if bitOf m.pair 7 && bitOf m.pair 0 then m.gen1 else m.gen0

/-- `gen_slot`: the map at the slot that holds the generation needed, or none for F_STALE_GEN. `base` is the slot's
BASE field. -/
def TMap.genSlot (m : TMap) (base need : Nat) : Option TMap :=
  if m.gen0 = need then some { m with base := base }
  else if bitOf m.pair 7 && m.gen1 == need then some { m with base := m.alt }
  else none

/-! ### Elements -/

/-- A virtual byte address through the pages held (R240). -/
def heldPa (pages : KMap Nat) (va : Nat) : Nat := (KMap.find pages (va / 16384)).getD 0 * 16384 + va % 16384

/-- What an operation reads at an address of a map's space. -/
def State.opRead (s : State) (t : Team) (pages : KMap Nat) (scratch : Bool) (a n : Nat) : List Byte :=
  if scratch then t.scratchRead a n
  else (List.range n).map fun i => s.clusterByte (t.core / 8) t.world (heldPa pages ((a + i) % 2 ^ 64))

/-- The bits of an element; zero outside the extents. -/
def State.elemBits (s : State) (t : Team) (pages : KMap Nat) (m : TMap) (c : List Nat) : Nat :=
  if m.inside c then leVal (s.opRead t pages m.scratch (m.addr c) m.esize) else 0

/-- The floating format of a map's elements. -/
def ElemFmt.float : ElemFmt → Option Fmt
  | .bf16 => some Sys2Proof.Machine.bf16
  | .f32 => some fp32
  | .f64 => some fp64
  | _ => none

/-- The integer an element's bits stand for. -/
def ElemFmt.int (f : ElemFmt) (n : Nat) : Int :=
  match f with
  | .i8 | .i16 | .i32 | .i64 => signExt (8 * f.size) n
  | _ => n

/-- An NQ4 element's exact value (R121, R122). -/
def State.nq4At (s : State) (t : Team) (pages : KMap Nat) (m : TMap) (c : List Nat) : XR :=
  let i := indexOf m.dims m.rank c
  let rec0 := m.base + 8512 * (i / 16384)
  let j := i % 16384
  let rd := fun (off n : Nat) => leVal (s.opRead t pages m.scratch (rec0 + off) n)
  nq4Value (rd (j / 2) 1 / 16 ^ (j % 2) % 16) (rd (8192 + j / 64) 1) (rd 8448 4)

/-- An element's exact value; zero outside the extents. -/
def State.elemVal (s : State) (t : Team) (pages : KMap Nat) (m : TMap) (c : List Nat) : XR :=
  if m.fmt = .nq4 then if m.inside c then s.nq4At t pages m c else .fin false 0 1
  else
    match m.fmt.float with
    | some f => f.val false (s.elemBits t pages m c)
    | none => XR.ofInt (m.fmt.int (s.elemBits t pages m c))

/-- NV for a signalling NaN among elements' bits. -/
def ElemFmt.snan (f : ElemFmt) (bs : List Nat) : Flags :=
  match f.float with
  | some g => snanFlag g bs
  | none => 0

/-- The write of an element; none outside the extents. -/
def TMap.put (m : TMap) (c : List Nat) (bits : Nat) : List MemWrite :=
  if m.inside c then [(m.scratch, m.addr c, leBytes m.esize bits)] else []

/-- The record of a fault of an operation (R356, R383). CORE is the core its team stands on now. -/
def State.postOpFault (s : State) (o : Op) (source : Nat) (code : FaultCode) (f : FaultInfo → FaultInfo) : State :=
  let core := match s.findTeam o.team with
    | some t => t.core
    | none => o.core
  let tid := match s.findTeam o.team with
    | some t => t.teamId
    | none => 0
  let info : FaultInfo :=
    { code := code, precise := false, parked := false, deferred := false, status := true, lane := 0xFF,
      teamId := tid, warpId := o.warp, core := core, index := o.idx, hdr := o.hdr, addr := 0, opaddr := o.opaddr,
      prog := 0, detail := 0, rid := 0 }
  s.post evFault o.world source (f info).body

/-- Bytes of one page written for an operation; where their packet fails they are not, and a record is posted (R333). -/
def State.putBytes (s : State) (o : Op) (va pa : Nat) (bs : List Byte) : State :=
  match s.losePacket (linesOf pa bs.length) with
  | some s1 => s1.postOpFault o hubSource .integrity fun f => { f with addr := va }
  | none => s.devWrite o.core pa bs

/-- The writes of one element, or of one superblock record, done. -/
def State.opWrite (s : State) (o : Op) (pages : KMap Nat) (x : MemWrite) : State :=
  if x.1 then s.updTeam o.team fun t => t.scratchWrite x.2.1 x.2.2
  else
    let k := 16384 - x.2.1 % 16384
    let s1 := s.putBytes o x.2.1 (heldPa pages x.2.1) (x.2.2.take k)
    if x.2.2.length ≤ k then s1 else s1.putBytes o (x.2.1 + k) (heldPa pages (x.2.1 + k)) (x.2.2.drop k)

/-- Virtual lines of byte ranges, each once, as the first address of a range in it. -/
def spanLines (spans : List (Nat × Nat)) : List Nat :=
  (spans.flatMap fun p => lineStarts p.1 p.2).foldl (fun acc a => if acc.any fun b => lineOf b == lineOf a then acc else acc ++ [a]) []

/-- Lines of byte ranges read for an operation: the first address that delivers a data fault, and the state after (R242,
R335). -/
def State.readSpans (s : State) (o : Op) (pages : KMap Nat) (spans : List (Nat × Nat)) : Option (Nat × DataFault) × State :=
  let vas := spanLines spans
  let r := State.readAll (State.loadLine (o.core / 8) o.world) s (vas.map fun a => lineOf (heldPa pages a))
  (r.1.bind fun f => (vas.find? fun a => lineOf (heldPa pages a) == f.1).map fun a => (a, f.2), r.2)

/-- Accesses of an engine to byte ranges noted in the world's log (R341). -/
def State.noteSpans (s : State) (o : Op) (pages : KMap Nat) (agent op : Nat) (spans : List (Nat × Nat)) : State :=
  if (s.world o.world).log.watch.isEmpty then s
  else (spanLines spans).foldl (fun x a => x.noteMem o.core o.world agent op a (heldPa pages a) 1) s

/-! ### What an operation does when it is performed (R242) -/

/-- Which destination elements take their new value: all, or, when the operation stopped, a free choice (R242). -/
def keepSome {α : Type} (fresh : Nat) (stopped : Bool) (l : List α) : List α :=
  if !stopped then l
  else ((l.zip (List.range l.length)).filter fun p => Config.freeNat (fresh + p.2) % 2 == 0).map (·.1)

/-- A tile element written. -/
def Team.setTile (t : Team) (z p : Nat) (v : DWord) : Team :=
  let x := (KMap.find t.tiles z).getD Tile.zero
  { t with tiles := KMap.put t.tiles z { x with elems := Sparse.set 0 x.elems p v } }

/-- Step 1 of R242. -/
def State.applyEffect (s : State) (o : Op) (pages : KMap Nat) (bank : Nat) (stopped : Bool) (e : Effect) : State :=
  let s1 := (keepSome s.fresh stopped e.mem).foldl (fun x w => x.opWrite o pages w) s
  let s2 := s1.updTeam o.team fun t =>
    let t1 := (keepSome s.fresh stopped e.tiles).foldl (fun y w => y.setTile w.1 w.2.1 w.2.2) t
    { t1 with reel := (keepSome s.fresh stopped e.reel).foldl (fun y w => Sparse.set 0 y w.1 w.2) t1.reel }
  if e.bank = [] then s2
  else
    let c := s2.coreSt o.core
    let put := fun (b : Bank) =>
      { b with elems := (keepSome s.fresh stopped e.bank).foldl (fun y w => Sparse.set 0 y w.1 w.2) b.elems }
    s2.setCore o.core { c with banks :=
      if bank = 0 then { c.banks with bank0 := put c.banks.bank0 } else { c.banks with bank1 := put c.banks.bank1 } }

/-! ### When an operation may be performed -/

/-- A `mark` of the team issued before the operation is outstanding (R230, R314). -/
def State.markBlocked (s : State) (o : Op) : Bool :=
  o.kind.marked && s.ops.any fun m => m.team == o.team && decide (m.id < o.id) && (match m.kind with
    | .mark _ => true
    | _ => false)

/-- A scratchpad access of a thread. -/
def OpKind.scratchAccess : OpKind → Bool
  | .load sp _ _ _ _ => sp
  | .store sp _ _ _ => sp
  | .atomic sp _ _ _ _ _ _ _ => sp
  | _ => false

/-- An older scratchpad access of the operation's warp is outstanding: a warp's scratchpad accesses and registrations
are in issue order (R184, R226). -/
def State.scratchOlder (s : State) (o : Op) : Bool :=
  s.ops.any fun x => x.team == o.team && x.warp == o.warp && decide (x.id < o.id) && x.kind.scratchAccess

/-- The operation is outstanding and runs, and no mark or older scratchpad access of its warp holds it (R226, R230). -/
def State.mayGo (s : State) (o : Op) : Bool :=
  o.parked.isNone && !o.paused && !s.markBlocked o && ((o.reads.isEmpty && o.writes.isEmpty) || !s.scratchOlder o)

/-- No older scoreboard entry holds the operation's read phase, or its write phase (R225). -/
def State.mayRead (s : State) (o : Op) : Bool := s.mayGo o && !s.mustWait o.team o.id o.reads []
def State.mayWrite (s : State) (o : Op) : Bool := s.mayGo o && !s.mustWait o.team o.id [] o.writes

/-- Both phases may go. -/
def State.mayRun (s : State) (o : Op) : Bool := s.mayRead o && s.mayWrite o

/-- Every earlier operation of the team on a common tile has been performed (R228). -/
def State.tilesFree (s : State) (o : Op) : Bool :=
  !(s.ops.any fun x => x.team == o.team && decide (x.id < o.id) && x.tiles.any fun z => decide (z ∈ o.tiles))

/-- An event on an outstanding operation; one that names none, or that cannot come about, changes nothing. -/
def onOp (s : State) (id : Nat) (f : Op → State) : Out :=
  match s.findOp id with
  | none => .next s
  | some o => .next (f o)

end Sys2Proof.Machine
end

