-- ==== Sys2Proof/Machine/Tensor.lean ====
section
/-! DEFINITION. Issue of the rotation, accumulator and matrix instructions (R238 to R258). -/

namespace Sys2Proof.Machine

/-! ### What every tensor instruction does at issue (R238 to R241, R247) -/

/-- A tensor operation before its pages are held, under the seeds its warp sees (R138). -/
def tensorOf (sg : Sparse Word) (kind : TensorKind) (b : List Byte) (maps : KMap TMap) : Tensor :=
  { kind := kind, blk := b, maps := maps, pages := [], sg := sg, kinds := [], bank := 0, astop := 0,
    gena := 0, genb := 0, layer := none, result := none }

def Tensor.map (x : Tensor) (k : Nat) : TMap := (KMap.find x.maps k).getD (default : TMap)
def Tensor.has (x : Tensor) (k : Nat) : Bool := (KMap.find x.maps k).isSome
def Tensor.nat (x : Tensor) (off n : Nat) : Nat := blkNat x.blk off n
def Tensor.seed (x : Tensor) (slot : Nat) : Word := Sparse.get 0 x.sg slot

/-- The operation's scratchpad intervals in its allocation. -/
def operandsHeld (t : Team) (ops : List Operand) : Bool := t.holds (readIvs ops) && t.holds (writeIvs ops)

/-- Orders 7 and 8 of R239, then the operation goes in flight with the change `f` made to the state; a full
scoreboard holds it (R241). -/
def launchTensor (s : State) (t : Team) (j : Nat) (w : Warp) (kn a pa : Nat) (x : Tensor) (ops : List Operand)
    (rd wr : List (Nat × Nat)) (tiles : List Nat) (f : State → State) : Issue :=
  let s1 := s.walkedOperands t ops rd wr
  match s.holdOperands t ops rd wr with
  | .error e => .trap s1 w (blockTrouble e.1 a e.2)
  | .ok pages =>
    if !operandsHeld t ops then .trap s1 w (blockTrouble .scratch a 0)
    else if (readIvs ops ≠ [] ∨ writeIvs ops ≠ []) ∧ s.scoreboardFull t.core then .hold
    else launching (f s1) w
      { mkOp t j w (some kn) (some .t) (.tensor { x with pages := pages }) with
        opaddr := a, blkpa := pa, reads := readIvs ops, writes := writeIvs ops, tiles := tiles }

/-- A slot's TAG written at issue (R247). -/
def State.setSlotTag (s : State) (uid slot tag : Nat) : State :=
  s.updTeam uid fun t =>
    { t.clearOld slot (fun off => off == 12) with slots := Sparse.setN 0 t.slots (slot * 128 + 12) (leBytes 2 tag) }

/-- The tag of data rotated with a block code under a seed slot, plain for identity (R247). -/
def newTag (sg : Sparse Word) (blkc slot : Nat) : Nat :=
  if blkc = 0 then 0 else rotTag blkc slot (Sparse.get 0 sg slot)

/-- A slot byte's slot, and whether it says NONE. -/
def slotOf (n : Nat) : Nat := field n 3 0
def noSlot (n : Nat) : Bool := bitOf n 7

/-- Fields of a ROT byte (R244). -/
def rotBlk (n : Nat) : Nat := field n 1 0
def rotSeed (n : Nat) : Nat := field n 4 2
def rotGroup (n : Nat) : Bool := bitOf n 5

/-- Bytes of a block that are zero. -/
def zeroBytes (b : List Byte) (off n : Nat) : Bool := blkNat b off n == 0

/-! ### Rotation (R244 to R246) -/

/-- The reserved fields of a rotation block are zero (R244). -/
def rotReservedOk (b : List Byte) : Bool :=
  field (blkNat b 0 1) 7 4 == 0 && field (blkNat b 1 1) 7 4 == 0 && field (blkNat b 2 1) 6 4 == 0
    && field (blkNat b 3 1) 7 6 == 0 && zeroBytes b 5 3 && zeroBytes b 68 60

/-- Box, source origin and destination origin of a rotation. -/
def rotBox (x : Tensor) : List Nat := blkFive x.blk 8
def rotSorg (x : Tensor) : List Nat := blkFive x.blk 28
def rotDorg (x : Tensor) : List Nat := blkFive x.blk 48

/-- The rules of R244 on the box. -/
def rotBoxOk (x : Tensor) : Bool :=
  let src := x.map 0
  let dst := x.map 1
  src.rank == dst.rank
    && ((List.range 5).all fun d =>
      if d < src.rank then (rotBox x).getD d 0 != 0
      else (rotBox x).getD d 0 == 0 && (rotSorg x).getD d 0 == 0 && (rotDorg x).getD d 0 == 0)
    && decide ((rotSorg x).getD 0 0 + (rotBox x).getD 0 0 ≤ src.dim 0)
    && decide ((rotDorg x).getD 0 0 + (rotBox x).getD 0 0 ≤ dst.dim 0)

/-- An origin of zeros and a box equal to the map's DIMs. -/
def wholeMap (m : TMap) (org box : List Nat) : Bool :=
  (List.range 5).all fun d => org.getD d 0 == 0 && box.getD d 0 == m.dim d

/-- The scale map's operand (R245): groups of the rows from `org` in blocks of `n`. -/
def scaleOperand (m : TMap) (org box : List Nat) (n : Nat) (group write : Bool) : Operand :=
  { map := m,
    org := (if group then 0 else org.getD 0 0 / n) :: (List.range 4).map fun d => org.getD (d + 1) 0,
    box := (if group then 1 else box.getD 0 0 / n) :: (List.range 4).map fun d => max 1 (box.getD (d + 1) 0),
    write := write }

/-- Operands of a rotation with block size `n`. -/
def rotOperands (x : Tensor) (forward : Bool) (n : Nat) : List Operand :=
  let box := (rotBox x).map (max 1)
  [{ map := x.map 0, org := rotSorg x, box := box, write := false },
   { map := x.map 1, org := rotDorg x, box := box, write := true }]
    ++ (if x.has 2 then
      [scaleOperand (x.map 2) (if forward then rotDorg x else rotSorg x) box n (rotGroup (x.nat 3 1)) forward]
    else [])

/-- The legality of `rot` (R245). -/
def rotLegal (x : Tensor) : Bool :=
  let src := x.map 0
  let dst := x.map 1
  let c := rotBlk (x.nat 3 1)
  let n := blkSize c
  rotReservedOk x.blk && rotBoxOk x && (src.fmt == .f32 || src.fmt == .bf16 || src.fmt == .f64)
    && (dst.fmt == .f32 || dst.fmt == .bf16 || dst.fmt == .i8 || dst.fmt == .nq4)
    && (if c = 0 then dst.fmt == .bf16 || dst.fmt == .f32
        else (rotDorg x).getD 0 0 % n == 0 && (rotBox x).getD 0 0 % n == 0)
    && ((dst.fmt == .i8) == x.has 2) && (!x.has 2 || (x.map 2).fmt == .f32)
    && (dst.fmt != .nq4 || wholeMap dst (rotDorg x) (rotBox x))

/-- The legality of `irot` (R246); the block size comes from the source's tag. -/
def irotLegal (x : Tensor) : Bool :=
  let src := x.map 0
  let dst := x.map 1
  let n := blkSize (tagBlk src.tag)
  rotReservedOk x.blk && rotBoxOk x && field (x.nat 3 1) 4 0 == 0
    && (src.fmt == .f32 || src.fmt == .bf16 || src.fmt == .i8 || src.fmt == .nq4)
    && (dst.fmt == .f32 || dst.fmt == .bf16 || dst.fmt == .f64)
    && (rotSorg x).getD 0 0 % n == 0 && (rotBox x).getD 0 0 % n == 0
    && ((src.fmt == .i8) == x.has 2) && (!x.has 2 || (x.map 2).fmt == .f32)
    && (src.fmt != .nq4 || wholeMap src (rotSorg x) (rotBox x))

/-- `rot` and `irot` at issue. -/
def issueRot (s : State) (kn d : Nat) (forward : Bool) : Out :=
  onSeeing s false fun s t sg j w =>
    require (okS2 d) s w <| raising w (some .t) (some kn) <| withBlock s t w d 128 128 fun s a pa b =>
      let sc := blkNat b 2 1
      let ss := slotOf (blkNat b 0 1)
      let ds := slotOf (blkNat b 1 1)
      usingSlots s t w ([(ss, false), (ds, true)] ++ (if noSlot sc then [] else [(slotOf sc, forward)]))
          (blockTrouble .illegal a 0) <|
        let x := tensorOf sg (if forward then .rot else .irot) b
          ([(0, t.tmap ss), (1, t.tmap ds)] ++ (if noSlot sc then [] else [(2, t.tmap (slotOf sc))]))
        let src := x.map 0
        let rot := blkNat b 3 1
        let n := if forward then blkSize (rotBlk rot) else blkSize (tagBlk src.tag)
        let ops := rotOperands x forward n
        demand s w ((if forward then rotLegal x else irotLegal x) && fewIvs ops) .illegal a 0 <|
        demand s w (tagOk x.sg src.tag && (tagRotated src.tag != forward)
            && (forward || !x.has 2 || tagOk x.sg (x.map 2).tag)) .tag a 0 <|
          launchTensor s t j w kn a pa x ops [] [] [] fun z =>
            z.setSlotTag t.uid ds (if forward then newTag x.sg (rotBlk rot) (rotSeed rot) else 0)

/-- `rot` (R245). -/
def execRot (kn d : Nat) (s : State) : Out := issueRot s kn d true
/-- `irot` (R246). -/
def execIrot (kn d : Nat) (s : State) : Out := issueRot s kn d false

/-! ### Accumulator tiles (R248 to R251) -/

/-- KIND of a tile. -/
def Team.tileKind (t : Team) (z : Nat) : Bool := ((KMap.find t.tiles z).getD Tile.zero).kind

/-- The bits of a tile's element. -/
def Team.tileElem (t : Team) (z p : Nat) : DWord := Sparse.get 0 ((KMap.find t.tiles z).getD Tile.zero).elems p

/-- KIND of tiles set (R248). -/
def Team.setKinds (t : Team) (zs : List Nat) (k : Bool) : Team :=
  { t with tiles := zs.foldl (fun m z => KMap.put m z { (KMap.find m z).getD Tile.zero with kind := k }) t.tiles }

/-- Tiles made all zero with their KIND left as it is (R249). -/
def Team.zeroTiles (t : Team) (zs : List Nat) : Team :=
  { t with tiles := zs.foldl (fun m z => KMap.put m z { (KMap.find m z).getD Tile.zero with elems := [] }) t.tiles }

/-- Tiles zT to zT + NT − 1. -/
def strip (zt nt : Nat) : List Nat := (List.range nt).map fun i => zt + i

/-- Fields of a tile-transfer block. -/
def accCount (x : Tensor) : Nat := x.nat 8 4
def accLen (x : Tensor) : Nat := x.nat 12 4
def accOrg0 (x : Tensor) : Nat := x.nat 16 4
def accOrg1 (x : Tensor) : Nat := x.nat 20 4

/-- The rules of R248 and R250 that `acc.ld` and `acc.st` share. -/
def accShapeOk (t : Team) (x : Tensor) : Bool :=
  let zt := x.nat 1 1
  let nt := x.nat 2 1
  field (x.nat 0 1) 7 4 == 0 && field zt 7 4 == 0 && decide (1 ≤ nt) && decide (nt ≤ 16) && zeroBytes x.blk 28 36
    && decide (zt + nt ≤ t.acc) && decide (1 ≤ accCount x) && decide (accCount x ≤ nt * 4096)
    && decide (1 ≤ accLen x) && decide (accLen x ≤ 65536) && decide ((x.map 0).rank ≤ 2)
    && ((x.map 0).rank == 2 || accOrg1 x == 0)

/-- Rows of a strip, and positions in its first row. -/
def accRows (x : Tensor) : Nat := ceilDiv (accCount x) (accLen x)
def accWidth (x : Tensor) : Nat := min (accCount x) (accLen x)

/-- `acc.ld` (R250). -/
def execAccLd (kn d : Nat) (s : State) : Out :=
  onSeeing s false fun s t sg j w =>
    require (okS2 d) s w <| raising w (some .t) (some kn) <| withBlock s t w d 64 64 fun s a pa b =>
      let ms := slotOf (blkNat b 0 1)
      usingSlots s t w [(ms, false)] (blockTrouble .illegal a 0) <|
        let x := tensorOf sg .accLd b [(0, t.tmap ms)]
        let zs := strip (x.nat 1 1) (x.nat 2 1)
        let unused := fun (n : Nat) => n == 0 || noSlot n
        let ops := [operand2 (x.map 0) (accOrg0 x) (accOrg1 x) (accWidth x) (accRows x) false]
        let k := (x.map 0).fmt.float.isNone && (x.map 0).fmt != .nq4
        demand s w (accShapeOk t x && x.nat 3 1 == 0 && x.nat 24 4 == 0 && unused (x.nat 5 1) && unused (x.nat 6 1)
            && unused (x.nat 7 1) && fewIvs ops) .illegal a 0 <|
        demand s w (tagOk x.sg (x.map 0).tag && (x.map 0).tag == 0) .tag a 0 <|
          launchTensor s t j w kn a pa x ops [] [] zs fun z => z.updTeam t.uid fun y => y.setKinds zs k

/-- Operands of `acc.st` with block size `n`. -/
def accStOperands (x : Tensor) (n : Nat) : List Operand :=
  [operand2 (x.map 0) (accOrg0 x) (accOrg1 x) (accWidth x) (accRows x) true]
    ++ (if x.has 1 then
      [scaleOperand (x.map 1) [accOrg0 x, accOrg1 x, 0, 0, 0] [accWidth x, accRows x, 1, 1, 1] n
        (rotGroup (x.nat 3 1)) true] else [])
    ++ (if x.has 2 then [operand2 (x.map 2) (accOrg1 x) 0 (accRows x) 1 false] else [])
    ++ (if x.has 3 then [operand2 (x.map 3) (accOrg0 x) 0 (accWidth x) 1 false] else [])

/-- The legality of `acc.st` (R251). -/
def accStLegal (t : Team) (x : Tensor) (kind : Bool) : Bool :=
  let m := x.map 0
  let rot := x.nat 3 1
  let c := rotBlk rot
  let n := blkSize c
  let scales := (List.range 3).all fun i => !x.has (i + 1) || (x.map (i + 1)).fmt == .f32
  let vectors := (List.range 2).all fun i => !x.has (i + 2) || (x.map (i + 2)).rank == 1
  accShapeOk t x && field rot 7 6 == 0
    && (if m.fmt = .i64 ∨ m.fmt = .i32 then
          kind && rot == 0 && !x.has 1 && !x.has 2 && !x.has 3 && x.nat 24 4 == 0x3F80_0000
        else (m.fmt == .f64 || m.fmt == .f32 || m.fmt == .bf16 || m.fmt == .i8)
          && (c == 0 || (accLen x % n == 0 && accOrg0 x % n == 0 && accCount x % n == 0))
          && (if m.fmt = .i8 then c != 0 && x.has 1 else !x.has 1) && scales && vectors)

/-- `acc.st` (R251). An integer destination takes no scale maps: their bytes are zero or NONE. DESIGN CHOICE: bits [6:4] of the
three bytes, which R250 neither names nor reserves, are ignored where the byte names a slot (log 101). -/
def execAccSt (kn d : Nat) (s : State) : Out :=
  onSeeing s false fun s t sg j w =>
    require (okS2 d) s w <| raising w (some .t) (some kn) <| withBlock s t w d 64 64 fun s a pa b =>
      let ms := slotOf (blkNat b 0 1)
      let int := (t.tmap ms).fmt == .i64 || (t.tmap ms).fmt == .i32
      let slots := (List.range 3).filterMap fun i =>
        let n := blkNat b (5 + i) 1
        if noSlot n || (int && n == 0) then none else some (i + 1, slotOf n)
      usingSlots s t w ((ms, true) :: slots.map fun p => (p.2, p.1 == 1)) (blockTrouble .illegal a 0) <|
        let rot := blkNat b 3 1
        let x0 := tensorOf sg .accSt b ((0, t.tmap ms) :: slots.map fun p => (p.1, t.tmap p.2))
        let zs := strip (x0.nat 1 1) (x0.nat 2 1)
        let x := { x0 with kinds := zs.map t.tileKind }
        let kind := x.kinds.headD false
        let ops := accStOperands x (blkSize (rotBlk rot))
        demand s w (accStLegal t x kind && (x.kinds.all fun k => k == kind) && fewIvs ops) .illegal a 0 <|
        demand s w ((List.range 2).all fun i => !x.has (i + 2) || tagOk x.sg (x.map (i + 2)).tag) .tag a 0 <|
          launchTensor s t j w kn a pa x ops [] [] zs fun z =>
            z.setSlotTag t.uid ms (newTag x.sg (rotBlk rot) (rotSeed rot))

/-- `acc.zero` (R249): tiles with an earlier operation outstanding are zeroed in their place in the order. -/
def execAccZero (d : Nat) (s : State) : Out :=
  onWarp s fun t j w =>
    let v := (w.sget d).toNat
    let zs := (List.range 16).filter fun n => bitOf v n
    let ones := zs.filter fun n => bitOf v (16 + n)
    require ((zs.all fun n => decide (n < t.acc)) && (List.range 16).all fun n => !bitOf v (16 + n) || bitOf v n) s w <|
      let s1 := s.updTeam t.uid fun y => (y.setKinds zs false).setKinds ones true
      if s.ops.any fun o => o.team == t.uid && o.tiles.any fun z => decide (z ∈ zs) then
        launching s1 w { mkOp t j w none none (.tensor (tensorOf (s.world t.world).sg .zero [] [])) with tiles := zs }
      else .done (s1.updTeam t.uid fun y => y.zeroTiles zs) w

/-! ### The matrix unit (R252 to R258) -/

/-- The banks a team would issue on: its own, or empty ones that it takes (R252). -/
def CoreSt.banksFor (c : CoreSt) (uid : Nat) : Banks := if c.holder = some uid then c.banks else Banks.empty

/-- Another team holds the banks (R252). -/
def CoreSt.heldByOther (c : CoreSt) (uid : Nat) : Bool :=
  match c.holder with
  | some h => h != uid
  | none => false

/-- The team becomes, or stays, the holder with these banks. -/
def State.setBanks (s : State) (t : Team) (b : Banks) : State :=
  s.setCore t.core { s.coreSt t.core with holder := some t.uid, banks := b }

def Banks.bank (b : Banks) (i : Nat) : Bank := if i = 0 then b.bank0 else b.bank1
def Banks.setBank (b : Banks) (i : Nat) (x : Bank) : Banks :=
  if i = 0 then { b with bank0 := x } else { b with bank1 := x }

/-- Bank capacity by TYPE (R252). -/
def bankCap (ty : Nat) : Nat :=
  match ty with
  | 1 => 2048
  | 2 | 3 => 320
  | _ => 1024

/-- Fields of a matrix block. -/
def mmaType (x : Tensor) : Nat := x.nat 1 1
def mmaFlag (x : Tensor) (n : Nat) : Bool := bitOf (x.nat 2 1) n
def mmaM (x : Tensor) : Nat := x.nat 8 2
def mmaN (x : Tensor) : Nat := x.nat 10 2
def mmaK (x : Tensor) : Nat := x.nat 12 4
def mmaZd (x : Tensor) : Nat := x.nat 5 1
def mmaATile (x : Tensor) : Nat := x.nat 3 1
def mmaIsLoad (x : Tensor) : Bool := x.nat 0 1 == 1

/-- Reserved fields are zero and codes assigned (R253). -/
def mmaReservedOk (x : Tensor) : Bool :=
  decide (x.nat 0 1 ≤ 1) && decide (mmaType x ≤ 4) && field (x.nat 2 1) 7 6 == 0 && field (x.nat 3 1) 7 4 == 0
    && field (x.nat 4 1) 7 4 == 0 && field (x.nat 5 1) 7 4 == 0 && zeroBytes x.blk 36 28
    && decide (1 ≤ mmaN x) && decide (mmaN x ≤ 64)

/-- The operand's box: contracted dimension first, or second when transposed (R253). -/
def mmaOperand (x : Tensor) : Operand :=
  let rows := if mmaIsLoad x then mmaN x else mmaM x
  let tr := if mmaIsLoad x then mmaFlag x 3 else mmaFlag x 2
  let o := if mmaIsLoad x then 24 else 16
  operand2 (x.map 0) (x.nat o 4) (x.nat (o + 4) 4) (if tr then rows else mmaK x) (if tr then mmaK x else rows) false

/-- The legality of LOADB (R254). -/
def loadbLegal (x : Tensor) : Bool :=
  mmaReservedOk x && !mmaFlag x 0 && !mmaFlag x 1 && !mmaFlag x 2 && !mmaFlag x 4 && x.nat 3 1 == 0 && x.nat 5 1 == 0
    && x.nat 7 1 == 0 && mmaM x == 0 && x.nat 16 4 == 0 && x.nat 20 4 == 0 && x.nat 32 2 == 0
    && (match mmaType x with
      | 0 => (x.map 0).fmt == .bf16
      | 1 => (x.map 0).fmt == .i8
      | 4 => (x.map 0).fmt == .nq4
      | _ => (x.map 0).fmt == .f32)
    && decide (1 ≤ mmaK x) && decide (mmaK x ≤ bankCap (mmaType x))

/-- The legality of MUL on a bank (R255, R256). -/
def mulLegal (t : Team) (x : Tensor) (b : Bank) : Bool :=
  let rot := x.nat 7 1
  mmaReservedOk x && !mmaFlag x 3 && !mmaFlag x 5 && x.nat 4 1 == 0 && x.nat 24 4 == 0 && x.nat 28 4 == 0
    && x.nat 34 2 == 0 && decide (1 ≤ mmaM x) && decide (mmaM x ≤ 64) && b.loaded && b.k == mmaK x && b.n == mmaN x
    && b.ty == mmaType x && decide (mmaZd x < t.acc)
    && (!mmaFlag x 0 || (t.tileKind (mmaZd x) == (mmaType x == 1)))
    && (if mmaFlag x 1 then
          !mmaFlag x 4 && decide (mmaATile x < t.acc) && decide (mmaK x ≤ 64) && mmaType x != 1
            && field rot 7 5 == 0 && decide (rotBlk rot ≤ 2) && mmaK x % blkSize (rotBlk rot) == 0
        else rot == 0 && (match mmaType x with
          | 1 => (x.map 0).fmt == .i8
          | 2 | 3 => (x.map 0).fmt == .f32
          | _ => (x.map 0).fmt == .bf16))

/-- The tag of A (R256, R257). -/
def mulTag (x : Tensor) : Nat :=
  if mmaFlag x 1 then newTag x.sg (rotBlk (x.nat 7 1)) (rotSeed (x.nat 7 1)) else (x.map 0).tag

/-- LOADB at issue: the bank it fills is recorded with its shape, type, tag and generation (R252, R254). -/
def issueLoadB (s : State) (t : Team) (sg : Sparse Word) (j : Nat) (w : Warp) (kn a pa : Nat) (b : List Byte) : Issue :=
  let ms := slotOf (blkNat b 4 1)
  let bs := (s.coreSt t.core).banksFor t.uid
  let i := 1 - bs.actb
  usingSlots s t w [(ms, false)] (blockTrouble .illegal a 0) <|
    let x := { tensorOf sg .mma b [(0, t.tmap ms)] with bank := i }
    let m := x.map 0
    demand s w (loadbLegal x && fewIvs [mmaOperand x]) .illegal a 0 <|
    demand s w (tagOk x.sg m.tag && (!mmaFlag x 3 || m.tag == 0)) .tag a 0 <|
      match (if mmaFlag x 5 then m.genSlot (t.slotNat ms 0 8) (x.nat 34 2) else some m) with
      | none => .trap s w (blockTrouble .staleGen a 0)
      | some m1 =>
        let y := { x with maps := [(0, m1)] }
        let g := if mmaFlag x 5 then x.nat 34 2 else m.curGen
        let old := bs.bank i
        launchTensor s t j w kn a pa y [mmaOperand y] [] [] [] fun z =>
          z.setBanks t (bs.setBank i
            { old with loaded := true, k := mmaK x, n := mmaN x, ty := mmaType x, tag := m.tag, gen := g })

/-- MUL at issue (R255 to R257). -/
def issueMul (s : State) (t : Team) (sg : Sparse Word) (j : Nat) (w : Warp) (kn a pa : Nat) (b : List Byte) : Issue :=
  let ms := slotOf (blkNat b 3 1)
  let tile := bitOf (blkNat b 2 1) 1
  let bs := (s.coreSt t.core).banksFor t.uid
  usingSlots s t w (if tile then [] else [(ms, false)]) (blockTrouble .illegal a 0) <|
    let x0 := tensorOf sg .mma b (if tile then [] else [(0, t.tmap ms)])
    let x := { x0 with bank := bs.actb, kinds := [t.tileKind ms] }
    let m := x.map 0
    let ops := fun (y : Tensor) => if tile then [] else [mmaOperand y]
    let tag := mulTag x
    demand s w (mulLegal t x (bs.bank bs.actb) && fewIvs (ops x)) .illegal a 0 <|
    demand s w (tagOk x.sg tag && tagOk x.sg (bs.bank bs.actb).tag && tag == (bs.bank bs.actb).tag
        && (!mmaFlag x 2 || tag == 0)) .tag a 0 <|
      match (if mmaFlag x 4 then m.genSlot (t.slotNat ms 0 8) (x.nat 32 2) else some m) with
      | none => .trap s w (blockTrouble .staleGen a 0)
      | some m1 =>
        let y := if tile then x else { x with maps := [(0, m1)] }
        launchTensor s t j w kn a pa y (ops y) [] [] (mmaZd x :: if tile then [ms] else []) fun z =>
          (z.setBanks t bs).updTeam t.uid fun q =>
            if mmaFlag x 0 then q else q.setKinds [mmaZd x] (mmaType x == 1)

/-- `mma` (R253): waits while another team holds the banks (R252). -/
def execMma (kn d : Nat) (s : State) : Out :=
  onSeeing s false fun s t sg j w =>
    require (okS2 d) s w <| raising w (some .t) (some kn) <|
      if (s.coreSt t.core).heldByOther t.uid then .hold
      else withBlock s t w d 64 64 fun s a pa b =>
        if blkNat b 0 1 = 1 then issueLoadB s t sg j w kn a pa b else issueMul s t sg j w kn a pa b

/-- `bswap` (R258). -/
def execBswap (d : Nat) (s : State) : Out :=
  onWarp s fun t _ w =>
    let v := (w.sget d).toNat
    if (s.coreSt t.core).heldByOther t.uid then .hold
    else require (decide (v ≤ 1)) s w <|
      .done (s.setBanks t { (s.coreSt t.core).banksFor t.uid with actb := v }) w

end Sys2Proof.Machine
end

