-- ==== Sys2Proof/Machine/TensorRun.lean ====
section
/-! DEFINITION. What the rotation, accumulator and matrix operations compute (R245, R246, R250, R251, R254 to R256,
R259). -/

namespace Sys2Proof.Machine

/-! ### Rotated rows (R132, R245, R251) -/

/-- The coordinates past dimension 0 of a box's rows, in storage order. -/
def rowTails (box : List Nat) (rank : Nat) : List (List Nat) :=
  (List.range (volume (box.drop 1) (rank - 1))).map (coordsOf (box.drop 1) (rank - 1))

/-- A row's values rotated block by block, the first block's index being `bi0`. -/
def rotateRow (forward : Bool) (xs : List XR) (n bi0 : Nat) (seed : Word) (W : Nat) : List XR × Flags :=
  let bs := chunksOf n (ceilDiv xs.length n) xs
  let rs := (bs.zip (List.range bs.length)).map fun p =>
    if forward then gavotteFwd p.1 seed (bi0 + p.2) W else gavotteInv p.1 seed (bi0 + p.2) W
  (rs.flatMap (·.1), orFlags (rs.map (·.2)))

/-- A row delivered in a floating format (R132). -/
def deliverFloat (f : Fmt) (ys : List XR) : List Nat × Flags :=
  let ds := ys.map (deliverRot f)
  (ds.map (·.1), orFlags (ds.map (·.2)))

/-- A row delivered as INT8 in scale groups of `g` elements: codes as bits, scales, flags (R132). -/
def deliverI8 (ys : List XR) (g : Nat) : List Nat × List Nat × Flags :=
  let rs := (chunksOf g (ceilDiv ys.length g) ys).map narrowI8
  (rs.flatMap fun r => r.1.map fun c => (c % 256).toNat, rs.map fun r => r.2.1, orFlags (rs.map fun r => r.2.2))

/-- The writes of a row's elements from coordinate `o0` on. -/
def putRow (m : TMap) (o0 : Nat) (tail : List Nat) (bits : List Nat) : List MemWrite :=
  (bits.zip (List.range bits.length)).flatMap fun p => m.put ((o0 + p.2) :: tail) p.1

/-- A rotated row delivered to a map, i8 with its scales (R132, R245). -/
def putRotated (dst : TMap) (sc : TMap) (o0 : Nat) (tail : List Nat) (n : Nat) (group : Bool) (ys : List XR) :
    List MemWrite × Flags :=
  match dst.fmt.float with
  | some f => let r := deliverFloat f ys; (putRow dst o0 tail r.1, r.2)
  | none =>
    let r := deliverI8 ys (if group then ys.length else n)
    (putRow dst o0 tail r.1 ++ putRow sc (if group then 0 else o0 / n) tail r.2.1, r.2.2)

/-- A row converted element by element (R128, block code 00). -/
def putPlain (dst : TMap) (o0 : Nat) (tail : List Nat) (xs : List XR) : List MemWrite × Flags :=
  match dst.fmt.float with
  | some f =>
    let rs := xs.map (XR.rne f)
    (putRow dst o0 tail (rs.map (·.1)), orFlags (rs.map (·.2)))
  | none => ([], 0)

/-! ### rot and irot -/

/-- A tail of box coordinates from an origin's. -/
def tailAt (org tail : List Nat) : List Nat := (List.range 4).map fun d => org.getD (d + 1) 0 + tail.getD d 0

/-- The superblock records of a whole NQ4 tensor's values in storage order (R123, R245). -/
def nq4Writes (fresh : Nat) (m : TMap) (ys : List XR) : List MemWrite × Flags :=
  let cs := chunksOf 16384 (ceilDiv ys.length 16384) ys
  let rs := (cs.zip (List.range cs.length)).map fun p =>
    let S := (maxAbs p.1).round fp32 .rup false
    let r := nq4Superblock (fresh + 16384 * p.2) p.1 S.1
    ((m.scratch, m.base + 8512 * p.2, nq4Record r.1 r.2.1 r.2.2.1), r.2.2.2 ||| S.2)
  (rs.map (·.1), orFlags (rs.map (·.2)))

/-- `rot` (R245). -/
def rotEffect (s : State) (t : Team) (x : Tensor) : Effect :=
  let src := x.map 0
  let dst := x.map 1
  let rot := x.nat 3 1
  let n := blkSize (rotBlk rot)
  let d0 := (rotDorg x).getD 0 0
  let b0 := (rotBox x).getD 0 0
  let rows := (rowTails (rotBox x) src.rank).map fun tail =>
    let cs := (List.range b0).map fun e => ((rotSorg x).getD 0 0 + e) :: tailAt (rotSorg x) tail
    let xs := cs.map (s.elemVal t x.pages src)
    let nv := src.fmt.snan (cs.map (s.elemBits t x.pages src))
    (tailAt (rotDorg x) tail, xs, nv)
  if rotBlk rot = 0 then
    let ws := rows.map fun r => let p := putPlain dst d0 r.1 r.2.1; (p.1, p.2 ||| r.2.2)
    { mem := ws.flatMap (·.1), flags := orFlags (ws.map (·.2)) }
  else
    let ys := rows.map fun r => (r.1, rotateRow true r.2.1 n (d0 / n) (x.seed (rotSeed rot)) 24)
    let fl := orFlags (ys.map fun r => r.2.2)
    if dst.fmt = .nq4 then
      let r := nq4Writes s.fresh dst (ys.flatMap fun r => r.2.1)
      { mem := r.1, flags := fl ||| r.2 }
    else
      let ws := ys.map fun r => putRotated dst (x.map 2) d0 r.1 n (rotGroup rot) r.2.1
      { mem := ws.flatMap (·.1), flags := fl ||| orFlags (ws.map (·.2)) }

/-- A source element of `irot` at its exact value (R246): i8 by its scale, NQ4 rounded once to FP32. -/
def irotValue (s : State) (t : Team) (x : Tensor) (n : Nat) (c : List Nat) : XR × Flags :=
  let src := x.map 0
  let v := s.elemVal t x.pages src c
  match src.fmt with
  | .i8 =>
    let q := if rotGroup (x.nat 3 1) then 0 else c.getD 0 0 / n
    ((XR.mul v (s.elemVal t x.pages (x.map 2) (q :: c.drop 1))).1, 0)
  | .nq4 => let r := v.rne fp32; (fp32.val false r.1, r.2)
  | _ => (v, 0)

/-- `irot` (R246). -/
def irotEffect (s : State) (t : Team) (x : Tensor) : Effect :=
  let src := x.map 0
  let dst := x.map 1
  let n := blkSize (tagBlk src.tag)
  let s0 := (rotSorg x).getD 0 0
  let seed := x.seed (tagSlot src.tag)
  let W := if dst.fmt = .f64 then 48 else 24
  let ws := (rowTails (rotBox x) src.rank).map fun tail =>
    let xs := (List.range ((rotBox x).getD 0 0)).map fun e => irotValue s t x n ((s0 + e) :: tailAt (rotSorg x) tail)
    let y := rotateRow false (xs.map (·.1)) n (s0 / n) seed W
    let p := putRotated dst default ((rotDorg x).getD 0 0) (tailAt (rotDorg x) tail) n false y.1
    (p.1, p.2 ||| y.2 ||| orFlags (xs.map (·.2)))
  { mem := ws.flatMap (·.1), flags := orFlags (ws.map (·.2)) }

/-! ### acc.ld and acc.st -/

/-- Map coordinates of a strip's position (R250). -/
def accCoord (x : Tensor) (p : Nat) : List Nat := [accOrg0 x + p % accLen x, accOrg1 x + p / accLen x, 0, 0, 0]

/-- The tile element a map element becomes (R250), with the flags of its conversion (R116, R122, R243). DESIGN CHOICE: R250 makes an
f32 NaN canonical and says nothing of an f64 one, whose bits are taken as they stand, with no flag (log 117). -/
def accElem (s : State) (t : Team) (x : Tensor) (c : List Nat) : DWord × Flags :=
  let m := x.map 0
  match m.fmt with
  | .f64 => (BitVec.ofNat 64 (s.elemBits t x.pages m c), 0)
  | .f32 | .bf16 =>
    (BitVec.ofNat 64 ((s.elemVal t x.pages m c).rne fp64).1, m.fmt.snan [s.elemBits t x.pages m c])
  | .nq4 => let r := (s.elemVal t x.pages m c).rne fp64; (BitVec.ofNat 64 r.1, r.2)
  | f => (BitVec.ofInt 64 (f.int (s.elemBits t x.pages m c)), 0)

/-- A strip's position as tile and element. -/
def stripAt (zt p : Nat) : Nat × Nat := (zt + p / 4096, p % 4096)

/-- `acc.ld` (R250). -/
def accLdEffect (s : State) (t : Team) (x : Tensor) : Effect :=
  let es := (List.range (accCount x)).map fun p => (stripAt (x.nat 1 1) p, accElem s t x (accCoord x p))
  { tiles := es.map fun e => (e.1.1, e.1.2, e.2.1), flags := orFlags (es.map fun e => e.2.2) }

/-- A tile element's exact value by KIND (R248). -/
def tileVal (kind : Bool) (v : DWord) : XR := if kind then XR.ofInt v.toInt else fp64.val false v.toNat

/-- A value and its scale factors multiplied exactly (R251). -/
def scaleBy (v : XR × Flags) (f : XR × Flags) : XR × Flags :=
  let r := XR.mul v.1 f.1
  (r.1, v.2 ||| f.2 ||| r.2)

/-- An FP32 scale read from a row of scales: 1 with no map. -/
def scaleAt (s : State) (t : Team) (x : Tensor) (k i : Nat) : XR × Flags :=
  if x.has k then
    let b := s.elemBits t x.pages (x.map k) [i, 0, 0, 0, 0]
    (fp32.val false b, snanFlag fp32 [b])
  else (.fin false 1 1, 0)

/-- v[p] of R251. -/
def accStVal (s : State) (t : Team) (x : Tensor) (kind : Bool) (p : Nat) : XR × Flags :=
  let z := stripAt (x.nat 1 1) p
  let b := t.tileElem z.1 z.2
  let v := (tileVal kind b, if kind then 0 else snanFlag fp64 [b.toNat])
  let sc := x.nat 24 4
  scaleBy (scaleBy (scaleBy v (fp32.val false sc, snanFlag fp32 [sc]))
    (scaleAt s t x 2 (accOrg1 x + p / accLen x))) (scaleAt s t x 3 (accOrg0 x + p % accLen x))

/-- `acc.st` (R251). -/
def accStEffect (s : State) (t : Team) (x : Tensor) : Effect :=
  let m := x.map 0
  let kind := x.kinds.headD false
  if m.fmt = .i64 ∨ m.fmt = .i32 then
    { mem := (List.range (accCount x)).flatMap fun p =>
        let z := stripAt (x.nat 1 1) p
        let v := (t.tileElem z.1 z.2).toInt
        let u := if m.fmt = .i32 then max (-(2 ^ 31 : Int)) (min (2 ^ 31 - 1) v) else v
        m.put (accCoord x p) (u % (2 ^ 64 : Int)).toNat }
  else
    let rot := x.nat 3 1
    let n := blkSize (rotBlk rot)
    let W := if m.fmt = .f64 then 48 else 24
    let vals := (List.range (accCount x)).map (accStVal s t x kind)
    let rows := chunksOf (accLen x) (accRows x) vals
    let ws := (rows.zip (List.range rows.length)).map fun r =>
      let tail := [accOrg1 x + r.2, 0, 0, 0]
      let xs := r.1.map (·.1)
      let y := if rotBlk rot = 0 then (xs, (0 : Flags))
        else rotateRow true xs n (accOrg0 x / n) (x.seed (rotSeed rot)) W
      let p := if rotBlk rot = 0 then putPlain m (accOrg0 x) tail xs
        else putRotated m (x.map 1) (accOrg0 x) tail n (rotGroup rot) y.1
      (p.1, p.2 ||| y.2)
    { mem := ws.flatMap (·.1), flags := orFlags (ws.map (·.2)) ||| orFlags (vals.map (·.2)) }

/-! ### mma -/

/-- Coordinates of element (contracted `k`, other `i`) of an operand at an origin (R253). -/
def mmaCoord (x : Tensor) (off : Nat) (tr : Bool) (k i : Nat) : List Nat :=
  let a := x.nat off 4
  let b := x.nat (off + 4) 4
  if tr then [a + i, b + k, 0, 0, 0] else [a + k, b + i, 0, 0, 0]

/-- LOADB (R254): NQ4 elements are rounded once to BF16; the slices of R126 are formed where they are used. -/
def loadbEffect (s : State) (t : Team) (x : Tensor) : Effect :=
  let m := x.map 0
  let es := (List.range (mmaK x)).flatMap fun k => (List.range (mmaN x)).map fun j =>
    let c := mmaCoord x 24 (mmaFlag x 3) k j
    if m.fmt = .nq4 then let r := (s.elemVal t x.pages m c).rne Sys2Proof.Machine.bf16; (k * 64 + j, r.1, r.2)
    else (k * 64 + j, s.elemBits t x.pages m c, (0 : Flags))
  { bank := es.map fun e => (e.1, e.2.1), flags := orFlags (es.map fun e => e.2.2) }

/-- Row i of A as bits of its format (R255), or formed from a tile by the down-converter (R256). -/
def mulRow (s : State) (t : Team) (x : Tensor) (i : Nat) : List Nat × Flags :=
  let ks := List.range (mmaK x)
  if mmaFlag x 1 then
    let f := if mmaType x = 2 ∨ mmaType x = 3 then fp32 else Sys2Proof.Machine.bf16
    let bits := ks.map fun k => t.tileElem (mmaATile x) (64 * i + k)
    let kind := x.kinds.headD false
    let vs := bits.map (tileVal kind)
    let rot := x.nat 7 1
    if rotBlk rot = 0 then
      let rs := vs.map (XR.rne f)
      (rs.map (·.1), orFlags (rs.map (·.2)) ||| (if kind then 0 else snanFlag fp64 (bits.map (·.toNat))))
    else
      let y := rotateRow true vs (blkSize (rotBlk rot)) 0 (x.seed (rotSeed rot)) 24
      let r := deliverFloat f y.1
      (r.1, r.2 ||| y.2)
  else (ks.map fun k => s.elemBits t x.pages (x.map 0) (mmaCoord x 16 (mmaFlag x 2) k i), 0)

/-- One output element (R255): the terms of `chunks` chunks, all of them unless a check failed (R259). -/
def mulElem (ty : Nat) (acc : DWord) (chunks : Option Nat) (ab : List (Nat × Nat)) : DWord × Flags :=
  if ty = 1 then
    let ps := match chunks with
      | some c => ab.take (32 * c)
      | none => ab
    (acc + BitVec.ofInt 64 ((ps.map fun p => signExt 8 p.1 * signExt 8 p.2).foldl (· + ·) 0), 0)
  else
    let fp := ty == 2 || ty == 3
    let all := if fp then fpTerms (ty == 2) ab else bfTerms ab
    let terms := match chunks with
      | some c => all.take (if ty = 2 then 9 * c else if ty = 3 then 6 * c else c)
      | none => all
    let r := accumulate acc.toNat terms
    (BitVec.ofNat 64 r.1, r.2)

/-- MUL (R255). -/
def mulEffect (s : State) (t : Team) (core : Nat) (x : Tensor) (chunks : Option Nat) : Effect :=
  let bank := (s.coreSt core).banks.bank x.bank
  let rows := (List.range (mmaM x)).map (mulRow s t x)
  let es := (rows.zip (List.range rows.length)).flatMap fun r => (List.range (mmaN x)).map fun j =>
    let p := 64 * r.2 + j
    let acc := if mmaFlag x 0 then t.tileElem (mmaZd x) p else 0
    let ab := (r.1.1.zip (List.range (mmaK x))).map fun q => (q.1, Sparse.get 0 bank.elems (q.2 * 64 + j))
    let v := mulElem (mmaType x) acc chunks ab
    (p, v.1, v.2)
  { tiles := es.map fun e => (mmaZd x, e.1, e.2.1),
    flags := orFlags (es.map fun e => e.2.2) ||| orFlags (rows.map (·.2)) }

/-- An earlier operation of the team on the same bank that it must follow: a MUL follows loads, a load follows both
(R258). -/
def State.bankBusy (s : State) (o : Op) (x : Tensor) : Bool :=
  s.ops.any fun p => p.team == o.team && decide (p.id < o.id) && (match p.kind with
    | .tensor y => y.kind == .mma && x.kind == .mma && y.bank == x.bank && (mmaIsLoad y || mmaIsLoad x)
    | _ => false)

end Sys2Proof.Machine
end

