-- ==== Sys2Proof/Machine/Layer.lean ====
section
/-! DEFINITION. The layer instructions at issue, the activation stack's copies at issue, and what layer operations
compute (R260 to R268, R281 to R285). -/

namespace Sys2Proof.Machine

/-! ### Regions and handles (R278, R279, R281, R282, R290) -/

def State.region (s : State) (r : Nat) : Region := (KMap.find s.regions r).getD Region.reset
def State.setRegion (s : State) (r : Nat) (x : Region) : State := { s with regions := KMap.put s.regions r x }

/-- Tile rows and tile columns of a shape (R278). -/
def tileRows (k : Nat) : Nat := ceilDiv k 1024
def tileCols (n : Nat) : Nat := ceilDiv n 512

/-- An array handle's V, GEN and REGION (R281). -/
def handleV (h : Word) : Bool := bitOf h.toNat 31
def handleGen (h : Word) : Nat := field h.toNat 29 14
def handleRegion (h : Word) : Nat := field h.toNat 13 0

/-- The region a handle of a world grants (R282); none is F_REGION. -/
def State.grantedRegion (s : State) (world h : Nat) : Option Nat :=
  let x := s.world world
  let e := Sparse.get 0 x.handles h
  let r := s.region (handleRegion e)
  if decide (h < x.hcount) && handleV e && (r.state == .valid) && r.gen == handleGen e then some (handleRegion e)
  else none

/-- PAVANE_CTL's expert fields: reset values apply while EXPERT is 0 (R290). -/
def pavField (ctl : DWord) (hi lo : Nat) : Nat :=
  field (if bitOf ctl.toNat 4 then ctl.toNat else pavaneReset.toNat) hi lo
def Region.pav (r : Region) (hi lo : Nat) : Nat := pavField r.pavane hi lo
def Region.auto (r : Region) : Bool := bitOf r.pavane.toNat 0
def Region.iclass (r : Region) : Nat := field r.pavane.toNat 3 1

/-- A code of the golden image (R280). -/
def goldenCode (img : List Byte) (n k j : Nat) : Int := signExt 8 (img.getD (64 + k * n + j) 0).toNat

/-- The code that a reference column holds in every row: REFZ0, REFZ1, REFP, REFN (R285). -/
def refCode (c : Nat) : Int :=
  match c with
  | 0 | 1 => 0
  | 2 => 64
  | _ => -64

/-- The code of checksum column `q` of a tile in one of its rows: h[k], the sum of the row's data codes of the group (R285). -/
def checksumCell (img : List Byte) (n tr tc q row : Nat) : Int :=
  ((List.range (min 128 (n - (512 * tc + 128 * q)))).map fun i =>
    goldenCode img n (1024 * tr + row) (512 * tc + 128 * q + i)).foldl (· + ·) 0

/-- The code of one cell of a tile: of a data column, a reference column (512 to 515), or a checksum column (516 to 519)
(R278, R285). -/
def cellCode (img : List Byte) (n tr tc row col : Nat) : Int :=
  if col < 512 then (if 512 * tc + col < n then goldenCode img n (1024 * tr + row) (512 * tc + col) else 0)
  else if col < 516 then refCode (col - 512)
  else checksumCell img n tr tc (col - 516) row

/-- The exponent of a column's ADC step: that of a checksum column is 7 higher (R283, R285). -/
def stepExp (ec col : Nat) : Nat := if col < 516 then ec else ec + 7

/-- The exact sum that a column of a tile senses of a vector's codes. -/
def senseSum (img : List Byte) (k n : Nat) (codes : List Int) (tr tc col : Nat) : Int :=
  ((List.range (min 1024 (k - 1024 * tr))).map fun i =>
    codes.getD (1024 * tr + i) 0 * cellCode img n tr tc i col).foldl (· + ·) 0

/-! ### Fields of a layer block (R260) -/

def layerHandle (x : Tensor) : Nat := x.nat 0 2
def layerM (x : Tensor) : Nat := x.nat 16 2
def layerRank (x : Tensor) : Nat := x.nat 18 2
def layerZd (x : Tensor) : Nat := x.nat 5 1
def layerFlag (x : Tensor) (n : Nat) : Bool := bitOf (x.nat 7 1) n
def layerNoad (x : Tensor) : Bool := bitOf (x.nat 3 1) 7

/-- The checks of order 1 of R239: reserved and unused fields, values, formats (R260, R261, R264). -/
def layerLegal (t : Team) (x : Tensor) : Bool :=
  let f := x.kind == .layerF
  let tr := x.kind == .layerT
  let pr := x.kind == .layerP
  field (x.nat 2 1) 7 4 == 0 && field (x.nat 3 1) 6 4 == 0 && field (x.nat 4 1) 7 4 == 0 && field (x.nat 5 1) 7 4 == 0
    && field (x.nat 7 1) 7 4 == 0 && field (x.nat 8 1) 7 4 == 0 && field (x.nat 9 1) 7 4 == 0
    && zeroBytes x.blk 10 6 && zeroBytes x.blk 36 4 && zeroBytes x.blk 46 82
    && decide (1 ≤ layerM x) && decide (layerM x ≤ 64)
    && (!layerFlag x 1 || f) && (!layerFlag x 2 || tr) && (layerFlag x 2 || x.nat 8 1 == 0)
    && (if layerFlag x 3 then decide (x.nat 9 1 ≤ t.barsMax) else x.nat 9 1 == 0)
    && (tr || (x.nat 32 2 == 0 && x.nat 34 2 == 0))
    && (if layerNoad x then
          field (x.nat 3 1) 3 0 == 0 && x.nat 4 1 == 0 && layerRank x == 0 && x.nat 20 4 == 0 && !layerFlag x 2
            && x.nat 32 2 == 0 && x.nat 34 2 == 0
        else decide (1 ≤ layerRank x) && decide (layerRank x ≤ 64) && (x.map 1).fmt == .bf16 && (x.map 2).fmt == .bf16)
    && (!layerFlag x 2 || (x.map 3).fmt == .bf16)
    && (if pr then layerNoad x && !layerFlag x 0 && (x.map 0).fmt == .i8
        else (x.map 0).fmt == .f32 || (x.map 0).fmt == .bf16)

/-- Lengths of an input and an output vector (R260). -/
def layerIn (x : Tensor) (h : LayerHold) : Nat := if x.kind = .layerT then h.n else h.k
def layerOut (x : Tensor) (h : LayerHold) : Nat := if x.kind = .layerT then h.k else h.n

/-- The operands, whose boxes the region's shape decides. -/
def layerOperands (x : Tensor) (h : LayerHold) : List Operand :=
  [operand2 (x.map 0) (x.nat 24 4) (x.nat 28 4) (layerIn x h) (layerM x) false]
    ++ (if layerNoad x then [] else
      [operand2 (x.map 1) 0 0 h.k (layerRank x) false, operand2 (x.map 2) 0 0 (layerRank x) h.n false])
    ++ (if layerFlag x 2 then [operand2 (x.map 3) 0 0 (layerRank x) (layerM x) true] else [])

/-- Tiles of the output strip. -/
def layerStrip (x : Tensor) (h : LayerHold) : List Nat := strip (layerZd x) (ceilDiv (layerM x * layerOut x h) 4096)

/-- XS, HS and LEN of the activation record (R267). -/
def recXs (h : LayerHold) : Nat := ceilDiv (2 * h.k) 64 * 64
def recHs (x : Tensor) : Nat := if layerNoad x then 0 else 128
def recLen (x : Tensor) (h : LayerHold) : Nat := 64 + layerM x * recXs h + layerM x * recHs x

/-- The tags of R260, R262, R263 and R264. -/
def layerTagsOk (x : Tensor) (h : LayerHold) : Bool :=
  let m := (x.map 0).tag
  let blk := if x.kind = .layerT then h.rotn else h.rotk
  let seed := if x.kind = .layerT then h.seedn else h.seedk
  tagOk x.sg m
    && (!tagRotated m || (x.kind != .layerP && tagBlk m == blk && (x.seed (tagSlot m)).toNat == seed))
    && (layerNoad x || ((x.map 1).tag == 0 && (x.map 2).tag == 0))

/-- A team's activation stack may be used (R266). -/
def Team.stackOk (t : Team) : Bool :=
  t.astop.toNat % 64 == 0 && decide (t.asbase.toNat ≤ t.astop.toNat) && decide (t.astop.toNat ≤ t.aslimit.toNat)

/-- What the operation holds of its region (R261). -/
def holdOf (r : Nat) (x : Region) : LayerHold :=
  { region := r, gen := x.gen, k := x.k, n := x.n, rotk := x.rotk, rotn := x.rotn, seedk := x.seedk, seedn := x.seedn,
    ec := x.ec, ej := x.ej, cols := x.cols, codes := [], evaluated := [], inputs := [], clamped := [], chkmis := 0, linkFault := false }

/-- The adapter maps at the slots of the generations `layer.t` needs; others read the current slots (R265). -/
def layerMaps (t : Team) (x : Tensor) : Option (KMap TMap) :=
  if x.kind != .layerT || layerNoad x then some x.maps
  else
    match (x.map 1).genSlot (t.slotNat (x.map 1).slot 0 8) (x.nat 32 2),
        (x.map 2).genSlot (t.slotNat (x.map 2).slot 0 8) (x.nat 34 2) with
    | some a, some b => some (KMap.put (KMap.put x.maps 1 a) 2 b)
    | _, _ => none

/-- Slots a layer block names, with the operand each serves and whether it is a destination. -/
def layerSlots (b : List Byte) : List (Nat × Nat × Bool) :=
  [(0, slotOf (blkNat b 2 1), false)]
    ++ (if bitOf (blkNat b 3 1) 7 then [] else
      [(1, slotOf (blkNat b 3 1), false), (2, slotOf (blkNat b 4 1), false)])
    ++ (if bitOf (blkNat b 7 1) 2 then [(3, slotOf (blkNat b 8 1), true)] else [])

/-- `layer.f`, `layer.t` and `layer.p` at issue (R260, R261). -/
def issueLayer (s : State) (kn d : Nat) (kind : TensorKind) (logOp : Nat) : Out :=
  onSeeing s false fun s t sg j w =>
    require (okS2 d) s w <| raising w (some .t) (some kn) <| withBlock s t w d 128 128 fun s a pa b =>
      let slots := layerSlots b
      usingSlots s t w (slots.map fun p => (p.2.1, p.2.2)) (blockTrouble .illegal a 0) <|
        let x0 := tensorOf sg kind b (slots.map fun p => (p.1, t.tmap p.2.1))
        demand s w (layerLegal t x0) .illegal a 0 <|
          match s.grantedRegion t.world (layerHandle x0) with
          | none => .trap s w (blockTrouble .region a 0)
          | some r =>
            let h := holdOf r (s.region r)
            let zs := layerStrip x0 h
            demand s w (decide (layerIn x0 h ≤ (x0.map 0).dim 0) && (zs.all fun z => decide (z < t.acc))
                && fewIvs (layerOperands x0 h)) .illegal a 0 <|
            demand s w (layerTagsOk x0 h) .tag a 0 <|
              match layerMaps t x0 with
              | none => .trap s w (blockTrouble .staleGen a 0)
              | some maps =>
                let push := layerFlag x0 1
                let len := if push then recLen x0 h else 0
                demand s w (!push || (t.stackOk && decide (t.astop.toNat + len ≤ t.aslimit.toNat))) .actStack a 0 <|
                  let x := { x0 with maps := maps, kinds := zs.map t.tileKind, astop := t.astop.toNat,
                                     gena := (x0.map 1).curGen, genb := (x0.map 2).curGen, layer := some h }
                  launchTensor s t j w kn a pa x (layerOperands x h) [] (if push then [(t.astop.toNat, len)] else [])
                    zs fun z =>
                    let z1 := z.updTeam t.uid fun q =>
                      { q.setKinds zs (kind == .layerP) with astop := q.astop + BitVec.ofNat 64 len }
                    let z2 := if layerFlag x 2 then z1.setSlotTag t.uid (x.map 3).slot 0 else z1
                    z2.noteLog t.world 1 (logAgent 2 t.core) logOp (layerHandle x) 1 (layerM x)

/-- `layer.f` (R262). -/
def execLayerF (kn d : Nat) (s : State) : Out := issueLayer s kn d .layerF logLayerF
/-- `layer.t` (R263). -/
def execLayerT (kn d : Nat) (s : State) : Out := issueLayer s kn d .layerT logLayerT
/-- `layer.p` (R264). -/
def execLayerP (kn d : Nat) (s : State) : Out := issueLayer s kn d .layerP logLayerP

/-! ### The activation stack (R266, R268) -/

/-- `apush` and `apop` at issue (R268), on ASBASE, ASLIMIT and ASTOP as the warp sees them (R176). -/
def issueStackCopy (s : State) (kn d a : Nat) (push : Bool) : Out :=
  onSeeing s true fun s t _ j w =>
    let slot := (w.sget d).toNat
    let n := (w.sget a).toNat
    require (decide (slot < 16) && n % 64 == 0 && decide (64 ≤ n) && decide (n ≤ 2 ^ 24)) s w <|
      raising w (some .c) (some kn) <|
        usingSlots s t w [(slot, !push)] { code := .illegal } <|
          let m := t.tmap slot
          require (m.wrap == 0 && !(m.scratch && m.base % 64 != 0)) s w <|
            let top := t.astop.toNat
            let fits := t.stackOk && (if push then decide (top + n ≤ t.aslimit.toNat)
              else decide (t.asbase.toNat + n ≤ top))
            if !fits then .trap s w { code := .actStack }
            else
              let stack := if push then top else top - n
              let far := if m.scratch then [] else [(m.base, n)]
              let rd := if push then far else [(stack, n)]
              let wr := if push then [(stack, n)] else far
              let s1 := s.walkedOperands t [] rd wr
              match s.holdOperands t [] rd wr with
              | .error e => .trap s1 w { code := e.1, addr := e.2 }
              | .ok pages =>
                let iv := if m.scratch then [(m.base / 64, (m.base + n) / 64)] else []
                if !t.holds iv then .trap s1 w { code := .scratch, addr := m.base }
                else if iv ≠ [] ∧ s.scoreboardFull t.core then .hold
                else
                  let c : StackCopy := { push := push, map := m, stack := stack, pages := pages, bytes := n, next := 0 }
                  launching
                    (s1.updTeam t.uid fun q => { q with astop := BitVec.ofNat 64 (if push then top + n else stack) }) w
                    { mkOp t j w (some kn) (some .c) (.stackCopy c) with
                      reads := if push then iv else [], writes := if push then [] else iv }

/-- `apush` (R268). -/
def execApush (kn d a : Nat) (s : State) : Out := issueStackCopy s kn d a true
/-- `apop` (R268). -/
def execApop (kn d a : Nat) (s : State) : Out := issueStackCopy s kn d a false

/-! ### Driving the array (R262 to R264) -/

/-- A vector as it drives the array: the exact input x (or dy), the codes, their scale, and flags. -/
structure Driven where
  xs : List XR
  codes : List Int
  scale : Nat
  flags : Flags
  deriving DecidableEq, Repr, Inhabited

/-- w[j] of R263: a rotated element times its column's scale and gain, exactly. -/
def driveColumn (c : Column) (v : XR) : XR × Flags :=
  let a := XR.mul v (fp32.val false c.cs)
  let b := XR.mul a.1 (fp32.val false c.g)
  (b.1, a.2 ||| b.2 ||| snanFlag fp32 [c.cs, c.g])

/-- The codes of a vector from its element bits. -/
def driveVector (x : Tensor) (h : LayerHold) (bits : List Nat) : Driven :=
  match (x.map 0).fmt.float with
  | none => { xs := [], codes := bits.map (signExt 8), scale := 0, flags := 0 }
  | some f =>
    let v := bits.map (f.val false)
    let tr := x.kind == .layerT
    let n := blkSize (if tr then h.rotn else h.rotk)
    let seed := BitVec.ofNat 32 (if tr then h.seedn else h.seedk)
    let rotated := tagRotated (x.map 0).tag
    let o := if rotated then rotateRow false v n 0 seed 48 else rotateRow true v n 0 seed 24
    let xs := if rotated then o.1 else v
    let y := if rotated then v else o.1
    let w := if tr then (y.zip h.cols).map fun p => driveColumn p.2 p.1 else y.map fun v => (v, 0)
    let r := narrowI8 (w.map (·.1))
    { xs := xs, codes := r.1, scale := r.2.1, flags := o.2 ||| orFlags (w.map (·.2)) ||| r.2.2 }

/-- The element bits of an input vector. -/
def vectorBits (s : State) (t : Team) (x : Tensor) (h : LayerHold) (m : Nat) : List Nat :=
  (List.range (layerIn x h)).map fun k => s.elemBits t x.pages (x.map 0) [x.nat 24 4 + k, x.nat 28 4 + m, 0, 0, 0]

/-- The key of a delivered code. -/
def codeKey (m tile line : Nat) : Nat := (m * 65536 + tile) * 1024 + line

/-- The sum of the codes delivered for an output line of a vector (R283). -/
def analogSum (x : Tensor) (h : LayerHold) (m line : Nat) : Int :=
  let tc := tileCols h.n
  let keys := if x.kind = .layerT then
      (List.range tc).map fun c => codeKey m (line / 1024 * tc + c) (line % 1024)
    else (List.range (tileRows h.k)).map fun r => codeKey m (r * tc + line / 512) (line % 512)
  (keys.map fun k => Sparse.get (0 : Int) h.codes k).foldl (· + ·) 0

/-- `⌈a / b⌉` of integers, b positive. -/
def ceilInt (a : Int) (b : Nat) : Int := -((-a) / (b : Int))

/-- The integers x with `|x·g + o·part/(share·step) − D/step| ≤ bound`, when g is positive and both are finite (R284). -/
def codeRange (g o : XR) (part share step bound : Nat) (D : Int) : Option (Int × Int) :=
  match g, o with
  | .fin false gn gd, .fin os on od =>
    if gn = 0 then none
    else
      let den := step * od * share
      let c := D * (od * share : Nat) - signedNum os on * (part : Int)
      let b := (bound * den : Nat)
      some (ceilInt ((c - b) * gd) (den * gn), (c + b) * gd / ((den * gn : Nat) : Int))
  | _, _ => none

/-! ### The layer chain (R262 to R264) -/

def mul64 (a b : Nat) : Nat × Flags := fmul fp64 .rne false a b

/-- An FP32 value in FP64, exactly. -/
def widen32 (b : Nat) : Nat := ((fp32.val false b).rne fp64).1
def widenBf (b : Nat) : Nat := ((Sys2Proof.Machine.bf16.val false b).rne fp64).1

/-- Rounding of an FP64 value to BF16. -/
def toBf (b : Nat) : Nat × Flags := (fp64.val false b).rne Sys2Proof.Machine.bf16

/-- R124 over pairs of BF16 operands, from +0. -/
def bfDot (ab : List (Nat × Nat)) : Nat × Flags := accumulate 0 (bfTerms ab)

/-- An adapter element's BF16 bits: A(i, k) at (k, i), B(j, i) at (i, j). -/
def adapterA (s : State) (t : Team) (x : Tensor) (i k : Nat) : Nat := s.elemBits t x.pages (x.map 1) [k, i, 0, 0, 0]
def adapterB (s : State) (t : Team) (x : Tensor) (j i : Nat) : Nat := s.elemBits t x.pages (x.map 2) [i, j, 0, 0, 0]

/-- q[j] of R262 for one column; a signalling NaN of the column sets NV (R107). -/
def columnStep (h : LayerHold) (c : Column) (a : Int) (scale : Nat) : Nat × Flags :=
  let p := XR.mul (XR.scale2 h.ec (XR.ofInt a)) (fp32.val false c.g)
  let t0 := p.1.rne fp64
  let t1 := fadd fp64 .rne false t0.1 (widen32 c.o)
  let t2 := mul64 t1.1 (widen32 c.cs)
  let t3 := mul64 t2.1 (widen32 scale)
  (t3.1, p.2 ||| t0.2 ||| t1.2 ||| t2.2 ||| t3.2 ||| snanFlag fp32 [c.g, c.o, c.cs])

/-- ALPHA times an adapter sum, rounded (R262, R263). -/
def scaleAd (x : Tensor) (d : Nat) : Nat × Flags :=
  let m := mul64 (widen32 (x.nat 20 4)) d
  (m.1, m.2 ||| snanFlag fp32 [x.nat 20 4])

/-- The adapter term of `layer.f` from xb: hb and ad (R262). -/
def adapterF (s : State) (t : Team) (x : Tensor) (h : LayerHold) (xb : List Nat) :
    List Nat × List Nat × Flags :=
  let hs := (List.range (layerRank x)).map fun i =>
    let d := bfDot ((xb.zip (List.range h.k)).map fun p => (p.1, adapterA s t x i p.2))
    let b := toBf d.1
    (b.1, d.2 ||| b.2)
  let hb := hs.map (·.1)
  let ad := (List.range h.n).map fun j =>
    let d := bfDot ((hb.zip (List.range (layerRank x))).map fun p => (p.1, adapterB s t x j p.2))
    let m := scaleAd x d.1
    (m.1, d.2 ||| m.2)
  (hb, ad.map (·.1), orFlags (hs.map (·.2)) ||| orFlags (ad.map (·.2)))

/-- The adapter term of `layer.t` from dy: vb and ad (R263). -/
def adapterT (s : State) (t : Team) (x : Tensor) (h : LayerHold) (dyb : List Nat) :
    List Nat × List Nat × Flags :=
  let vs := (List.range (layerRank x)).map fun i =>
    let d := bfDot ((dyb.zip (List.range h.n)).map fun p => (p.1, adapterB s t x p.2 i))
    let b := toBf d.1
    (b.1, d.2 ||| b.2)
  let vb := vs.map (·.1)
  let ad := (List.range h.k).map fun k =>
    let d := bfDot ((vb.zip (List.range (layerRank x))).map fun p => (p.1, adapterA s t x p.2 k))
    let m := scaleAd x d.1
    (m.1, d.2 ||| m.2)
  (vb, ad.map (·.1), orFlags (vs.map (·.2)) ||| orFlags (ad.map (·.2)))

/-- What one vector of a layer operation gives: its outputs as tile bits, the BF16 forms of x (or of v) and of h, and
flags. -/
structure VectorOut where
  out : List DWord
  xb : List Nat
  hb : List Nat
  flags : Flags
  deriving DecidableEq, Repr, Inhabited

/-- out[j] of R262 and R263 with ACCUM on the old tile value. -/
def finishOut (old : Option (XR × Flags)) (base ad : Nat) : DWord × Flags :=
  let r := fadd fp64 .rne false base ad
  match old with
  | none => (BitVec.ofNat 64 r.1, r.2)
  | some v =>
    let q := deliver fp64 .rne false (XR.add .rne v.1 (fp64.val false r.1))
    (BitVec.ofNat 64 q.1, r.2 ||| v.2 ||| q.2)

/-- The old value at a strip position, under ACCUM, with NV for a signalling NaN (R107). -/
def stripOld (t : Team) (x : Tensor) (p : Nat) : Option (XR × Flags) :=
  if layerFlag x 0 then
    let z := stripAt (layerZd x) p
    let kind := x.kinds.getD (z.1 - layerZd x) false
    let b := t.tileElem z.1 z.2
    some (tileVal kind b, if kind then 0 else snanFlag fp64 [b.toNat])
  else none

/-- One vector of a layer operation. -/
def layerVector (s : State) (t : Team) (x : Tensor) (h : LayerHold) (m : Nat) : VectorOut :=
  let bits := (KMap.find h.inputs m).getD (vectorBits s t x h m)
  let dv := driveVector x h bits
  let L := layerOut x h
  let a := fun j => analogSum x h m j
  match x.kind with
  | .layerP =>
    { out := (List.range L).map fun j => BitVec.ofInt 64 (a j * (2 ^ h.ec : Nat)), xb := [], hb := [], flags := 0 }
  | .layerT =>
    let q := (List.range L).map fun k =>
      let e := (XR.scale2 h.ej (XR.ofInt (a k))).rne fp64
      let r := mul64 e.1 (widen32 dv.scale)
      (r.1, e.2 ||| r.2)
    let inv := rotateRow false (q.map fun e => fp64.val false e.1) (blkSize h.rotk) 0 (BitVec.ofNat 32 h.seedk) 48
    let base := deliverFloat fp64 inv.1
    let dyb := dv.xs.map (XR.rne Sys2Proof.Machine.bf16)
    let ad0 := if layerNoad x then ([], List.replicate L 0, (0 : Flags)) else adapterT s t x h (dyb.map (·.1))
    let ad := if dv.xs.all XR.isFin then ad0 else (ad0.1.map fun _ => Sys2Proof.Machine.bf16.qnan, ad0.2)
    let outs := ((base.1.zip ad.2.1).zip (List.range L)).map fun p => finishOut (stripOld t x (m * L + p.2)) p.1.1 p.1.2
    { out := outs.map (·.1), xb := ad.1, hb := [],
      flags := dv.flags ||| orFlags (q.map (·.2)) ||| inv.2 ||| base.2 ||| orFlags (dyb.map (·.2)) ||| ad.2.2
        ||| orFlags (outs.map (·.2)) }
  | _ =>
    let q := (h.cols.zip (List.range L)).map fun p => columnStep h p.1 (a p.2) dv.scale
    let inv := rotateRow false (q.map fun e => fp64.val false e.1) (blkSize h.rotn) 0 (BitVec.ofNat 32 h.seedn) 48
    let base := deliverFloat fp64 inv.1
    let xb := dv.xs.map (XR.rne Sys2Proof.Machine.bf16)
    let ad := if layerNoad x then ([], List.replicate L 0, (0 : Flags)) else adapterF s t x h (xb.map (·.1))
    let outs := ((base.1.zip ad.2.1).zip (List.range L)).map fun p => finishOut (stripOld t x (m * L + p.2)) p.1.1 p.1.2
    { out := outs.map (·.1), xb := xb.map (·.1), hb := ad.1,
      flags := dv.flags ||| orFlags (q.map (·.2)) ||| inv.2 ||| base.2 ||| orFlags (xb.map (·.2)) ||| ad.2.2
        ||| orFlags (outs.map (·.2)) }

/-- Values of `n` bytes each, padded with zeros to `len` bytes. -/
def padded (vs : List Nat) (len : Nat) : List Byte :=
  let b := vs.flatMap (leBytes 2)
  b ++ List.replicate (len - b.length) 0

/-- The activation record (R267). DESIGN CHOICE: with NOAD no A or B slot is used, and GENA and GENB are 0 (log 120). -/
def activationRecord (x : Tensor) (h : LayerHold) (vs : List VectorOut) : List Byte :=
  leBytes 4 (recLen x h) ++ leBytes 4 h.k ++ leBytes 2 (layerM x) ++ leBytes 2 (layerRank x)
    ++ leBytes 2 (if layerNoad x then 0 else x.gena) ++ leBytes 2 (if layerNoad x then 0 else x.genb)
    ++ leBytes 2 (layerHandle x) ++ leBytes 2 h.gen
    ++ leBytes 4 64 ++ leBytes 4 (64 + layerM x * recXs h) ++ leBytes 36 0
    ++ (vs.flatMap fun v => padded v.xb (recXs h)) ++ (vs.flatMap fun v => padded v.hb (recHs x))

/-- A record's bytes as writes of 64 bytes each. -/
def recordWrites (a : Nat) (b : List Byte) : List MemWrite :=
  let cs := chunksOf 64 (ceilDiv b.length 64) b
  (cs.zip (List.range cs.length)).map fun p => (false, a + 64 * p.2, p.1)

/-- A layer operation (R262 to R264, R267). Only NV and OF are raised (R243); clamped codes raise OF (R283). -/
def layerEffect (s : State) (t : Team) (x : Tensor) (h : LayerHold) : Effect :=
  let vs := (List.range (layerM x)).map (layerVector s t x h)
  let L := layerOut x h
  let pairs := vs.zip (List.range vs.length)
  let fl := orFlags (vs.map fun v => v.flags) ||| (if h.clamped = [] then 0 else flagOF)
  { tiles := pairs.flatMap fun v => (v.1.out.zip (List.range L)).map fun e =>
      let z := stripAt (layerZd x) (v.2 * L + e.2)
      (z.1, z.2, e.1),
    mem := (if layerFlag x 2 then pairs.flatMap fun v => (v.1.xb.zip (List.range v.1.xb.length)).flatMap fun e =>
        (x.map 3).put [e.2, v.2, 0, 0, 0] e.1 else [])
      ++ (if layerFlag x 1 then recordWrites x.astop (activationRecord x h vs) else []),
    flags := fl &&& (flagNV ||| flagOF),
    block := [(40, leBytes 4 h.chkmis), (44, leBytes 2 h.gen)] }

end Sys2Proof.Machine
end

