-- ==== Sys2Proof/Machine/EventQueue.lean ====
section
/-! DEFINITION. Guest-physical accesses of the host and the device, frames sent, event queues and EVENT frames (R236,
R322, R365, R371, R373). -/

namespace Sys2Proof.Machine

/-! ### Guest-physical accesses (R322, R371) -/

/-- The first address of a guest-physical range that fails stage 2 or the POT; `fuel` bounds the pages. -/
def State.gpaFails (s : State) (world : Nat) (k : AccKind) : Nat → Nat → Nat → Option Nat
  | 0, _, _ => none
  | f + 1, gpa, n =>
    if n = 0 then none
    else if (s.gpaAccess world gpa k).isNone then some gpa
    else s.gpaFails world k f (gpa + (16384 - gpa % 16384)) (n - (16384 - gpa % 16384))

/-- The failing address of a range, if any. -/
def State.gpaCheck (s : State) (world gpa n : Nat) (k : AccKind) : Option Nat := s.gpaFails world k (n / 16384 + 2) gpa n

/-- The bytes of a range at their homes. -/
def State.gpaBytes (s : State) (world gpa n : Nat) : List Byte :=
  (List.range n).map fun i => Sparse.get memDefault s.mem ((s.gpaAccess world (gpa + i) .read).getD 0)

/-- The lines of a range: each with the first address of the range in it. -/
def State.gpaLines (s : State) (world gpa n : Nat) : List (Nat × Nat) :=
  (lineStarts gpa n).map fun a => (lineOf ((s.gpaAccess world a .read).getD 0), a)

/-- A read at the homes: the bytes, or the failing address of a check or of a line that delivers a data fault (R335, R371),
with the state that its reads leave. -/
def State.gpaRead (s : State) (world gpa n : Nat) : Except (Nat × State) (List Byte × State) :=
  let s0 := s.walkedGpa world (pageStarts gpa n)
  match s.gpaCheck world gpa n .read with
  | some a => .error (a, s0)
  | none =>
    let lines := s.gpaLines world gpa n
    match State.readAll (State.readLine world) s0 (lines.map (·.1)) with
    | (some (l, _), s1) => .error (addrOn lines l, s1)
    | (none, s1) => .ok (s1.gpaBytes world gpa n, s1)

/-- Bytes written page by page at the homes. -/
def State.gpaPut (world : Nat) : Nat → State → Nat → List Byte → State
  | 0, s, _, _ => s
  | f + 1, s, gpa, bs =>
    if bs = [] then s
    else
      let n := 16384 - gpa % 16384
      match s.gpaAccess world gpa .write with
      | none => s
      | some pa => State.gpaPut world f (s.homeWrite none pa (bs.take n)) (gpa + n) (bs.drop n)

/-- A write at the homes, whole or not at all: the state after it, or the failing address of a check or of a line whose packet
fails (R333), with the failure counted. -/
def State.gpaWrite (s : State) (world gpa : Nat) (bs : List Byte) : Except (Nat × State) State :=
  let s0 := s.walkedGpa world (pageStarts gpa bs.length)
  match s.gpaCheck world gpa bs.length .write with
  | some a => .error (a, s0)
  | none =>
    let lines := s.gpaLines world gpa bs.length
    match lines.find? fun p => s0.packetFails p.1 with
    | some p => .error (p.2, s0.dropPacket p.1)
    | none => .ok (State.gpaPut world (bs.length / 16384 + 2) s0 gpa bs)

/-! ### Frames the module sends (R365, R366, R372) -/

def State.setSession (s : State) (k : Nat) (x : Session) : State := { s with sessions := KMap.put s.sessions k x }

/-- A sessioned frame sent: it takes the next SEQ of the module's direction (R366). -/
def State.sendFrame (s : State) (k ty : Nat) (resp : Bool) (rtag : Nat) (payload : List Byte) : State :=
  match KMap.find s.sessions k with
  | none => s
  | some x =>
    let s1 := s.setSession k { x with txSeq := x.txSeq + 1 }
    { s1 with sent := s1.sent ++ [{ session := k, seq := x.txSeq, ty := ty, resp := resp, rtag := rtag,
                                    payload := payload }] }

/-- A sessionless response: SESSION 0, SEQ 0 (R366). -/
def State.sendPlain (s : State) (ty rtag : Nat) (payload : List Byte) : State :=
  { s with sent := s.sent ++ [{ session := 0, seq := 0, ty := ty, resp := true, rtag := rtag, payload := payload }] }

/-- The most recently opened session of a world (R373). -/
def State.newestSession (s : State) (world : Nat) : Option Nat :=
  ((s.sessions.filter fun p => p.2.world == world).foldl (fun (b : Option (Nat × Session)) p =>
    match b with
    | none => some p
    | some q => if q.2.order < p.2.order then some p else b) none).map (·.1)

/-- The records gathered for a world sent in EVENT frames (R373): 45 records at most in one. -/
def State.flushEvents (s : State) (world : Nat) : State :=
  match KMap.find s.evFrame world with
  | none => s
  | some rs =>
    let s1 := { s with evFrame := KMap.erase s.evFrame world }
    match s.newestSession world with
    | none => s1
    | some k => (chunksOf 45 rs.length rs).foldl (fun x c => x.sendFrame k 0x14 false 0 c.flatten) s1

/-- A record that has entered its queue gathered for an EVENT frame, while the world has a session (R373). -/
def State.gatherEvent (s : State) (world : Nat) (r : List Byte) : State :=
  if (s.newestSession world).isNone then s
  else
    let rs := ((KMap.find s.evFrame world).getD []) ++ [r]
    let s1 := { s with evFrame := KMap.put s.evFrame world rs }
    if 45 ≤ rs.length then s1.flushEvents world else s1

/-! ### Event queues (R373) -/

/-- Entries of a queue. -/
def evEntries : Nat := 4096

/-- The PAD record of a world. -/
def padRecord (world : Nat) : List Byte := recordHead 0 world 0 0xF000_0000 ++ leBytes 20 0

/-- Writes of a record at an entry of a world's queue, and of TAIL after it; the error is the state where one fails. -/
def State.putRecord (s : State) (world entry : Nat) (r : List Byte) (tail : Nat) : Except State State :=
  let evq := (s.world world).evq
  match s.gpaWrite world (evq + 64 + 32 * entry) r with
  | .error e => .error e.2
  | .ok s1 =>
    match s1.gpaWrite world evq (leBytes 8 tail) with
    | .error e => .error e.2
    | .ok s2 => .ok (s2.setWorld world { s2.world world with evTail := tail })

/-- The header of a new world's queue written with TAIL and HEAD zero, where that is still to be done; the error is the state
where the access fails (R318, R373). -/
def State.initQueue (s : State) (world : Nat) : Except State State :=
  let x := s.world world
  if !x.evInit then .ok s
  else
    match s.gpaWrite world x.evq (leBytes 16 0) with
    | .error e => .error e.2
    | .ok s1 => .ok (s1.setWorld world { s1.world world with evInit := false })

/-- A record entered in its world's queue; the error is the state where it does not fit or an access fails. -/
def State.enterRecord (s : State) (world : Nat) (r : List Byte) : Except State State :=
  match s.gpaRead world ((s.world world).evq + 8) 8 with
  | .error e => .error e.2
  | .ok (h, s0) =>
    let x := s0.world world
    let used := (x.evTail + 2 ^ 64 - leVal h) % 2 ^ 64
    let last := x.evTail % evEntries == evEntries - 1
    let pad := r.length == 64 && last
    let need := if pad then 3 else r.length / 32
    if evEntries < used + need then .error s0
    else if pad then
      match s0.putRecord world (evEntries - 1) (padRecord world) ((x.evTail + 1) % 2 ^ 64) with
      | .error s1 => .error s1
      | .ok s1 => s1.putRecord world 0 r ((x.evTail + 3) % 2 ^ 64)
    else s0.putRecord world (x.evTail % evEntries) r ((x.evTail + need) % 2 ^ 64)

/-- The first waiting record of a source no longer waits. -/
def State.dropRecord (s : State) (key : Nat) : State :=
  match KMap.find s.sources key with
  | some x => { s with sources := KMap.put s.sources key { x with pending := x.pending.drop 1 } }
  | none => s

/-- The first waiting record of a source enters, or waits on (R236). -/
def State.enterNext (s : State) (key : Nat) : State :=
  match KMap.find s.sources key with
  | none => s
  | some x =>
    match x.pending with
    | [] => s
    | r :: _ =>
      let world := key / 2 ^ 32
      match s.initQueue world with
      | .error s1 => s1
      | .ok s0 =>
        match s0.enterRecord world r with
        | .error s1 => s1
        | .ok s1 => (s1.dropRecord key).gatherEvent world r

/-- EVENT_RECORD_ENTER: the next record of a source. -/
def execEventRecordEnter (world source : Nat) (s : State) : Out :=
  .next (s.enterNext (sourceKey world source))

/-- The state that an attempt leaves, whether it succeeded or not. -/
def attempted : Except State State → State
  | .ok s => s
  | .error s => s

/-- Every blocked access to a world's queue tried again: the header, then one record of each source (R373). -/
def State.retryQueue (s : State) (world : Nat) : State :=
  let s1 := attempted (s.initQueue world)
  (s1.sources.map (·.1)).foldl (fun x k => if k / 2 ^ 32 = world then x.enterNext k else x) s1

/-- EVENT_QUEUE_RETRY: every source of a world tries again. -/
def execEventQueueRetry (world : Nat) (s : State) : Out := .next (s.retryQueue world)

/-- EVENT_FRAME_SEND: what has been gathered for a world is sent. -/
def execEventFrameSend (world : Nat) (s : State) : Out := .next (s.flushEvents world)

end Sys2Proof.Machine
end

