-- ==== Sys2Proof/Machine/Hash.lean ====
section
/-! DEFINITION. SHA3-256 (FIPS 202) and CRC-32C, which the receipts, logs, evidence and journals of R293, R337 to R346 and
R360 name. -/

namespace Sys2Proof.Machine

/-! ### Keccak-f[1600] -/

/-- The rotation of each lane, at `x + 5 × y`. -/
def keccakRot : List Nat :=
  [0, 1, 62, 28, 27, 36, 44, 6, 55, 20, 3, 10, 43, 25, 39, 41, 45, 15, 21, 8, 18, 2, 61, 56, 14]

/-- The round constants. -/
def keccakRc : List DWord :=
  [0x0000000000000001#64, 0x0000000000008082#64, 0x800000000000808A#64, 0x8000000080008000#64, 0x000000000000808B#64,
   0x0000000080000001#64, 0x8000000080008081#64, 0x8000000000008009#64, 0x000000000000008A#64, 0x0000000000000088#64,
   0x0000000080008009#64, 0x000000008000000A#64, 0x000000008000808B#64, 0x800000000000008B#64, 0x8000000000008089#64,
   0x8000000000008003#64, 0x8000000000008002#64, 0x8000000000000080#64, 0x000000000000800A#64, 0x800000008000000A#64,
   0x8000000080008081#64, 0x8000000000008080#64, 0x0000000080000001#64, 0x8000000080008008#64]

/-- A round on the 25 lanes. -/
def keccakRound (a : List DWord) (rc : DWord) : List DWord :=
  let at' := fun (l : List DWord) (i : Nat) => l.getD i 0
  let c := (List.range 5).map fun x => at' a x ^^^ at' a (x + 5) ^^^ at' a (x + 10) ^^^ at' a (x + 15) ^^^ at' a (x + 20)
  let d := (List.range 5).map fun x => at' c ((x + 4) % 5) ^^^ (at' c ((x + 1) % 5)).rotateLeft 1
  let t := (List.range 25).map fun i => at' a i ^^^ at' d (i % 5)
  let b := (List.range 25).map fun i =>
    let src := (i % 5 + 3 * (i / 5)) % 5 + 5 * (i % 5)
    (at' t src).rotateLeft (keccakRot.getD src 0)
  let e := (List.range 25).map fun i =>
    at' b i ^^^ (~~~(at' b ((i + 1) % 5 + 5 * (i / 5))) &&& at' b ((i + 2) % 5 + 5 * (i / 5)))
  match e with
  | x :: r => (x ^^^ rc) :: r
  | [] => []

def keccakF (a : List DWord) : List DWord := keccakRc.foldl keccakRound a

/-! ### The sponge -/

/-- A block of 136 bytes absorbed. -/
def absorb (a : List DWord) (blk : List Byte) : List DWord :=
  keccakF ((a.zip (List.range 25)).map fun p =>
    if p.2 < 17 then p.1 ^^^ BitVec.ofNat 64 (leVal ((blk.drop (8 * p.2)).take 8)) else p.1)

/-- A list cut into pieces of `n`; `fuel` bounds them. -/
def pieces {α : Type} (n : Nat) : Nat → List α → List (List α)
  | 0, _ => []
  | f + 1, l => if l = [] then [] else l.take n :: pieces n f (l.drop n)
  termination_by structural f _ => f

/-- The message with SHA3's padding, a multiple of 136 bytes. -/
def sha3Pad (m : List Byte) : List Byte :=
  let q := 136 - m.length % 136
  if q = 1 then m ++ [0x86#8] else m ++ [0x06#8] ++ List.replicate (q - 2) 0 ++ [0x80#8]

/-- SHA3-256. -/
def sha3 (m : List Byte) : List Byte :=
  let p := sha3Pad m
  let a := (pieces 136 (p.length / 136) p).foldl absorb (List.replicate 25 0)
  (a.take 4).flatMap fun x => leBytes 8 x.toNat

/-! ### CRC-32C -/

/-- Eight steps of the reflected polynomial 0x82F6_3B78. -/
def crcByte (c : Word) (b : Byte) : Word :=
  (List.range 8).foldl (fun (x : Word) _ => if x.getLsbD 0 then (x >>> 1) ^^^ 0x82F63B78#32 else x >>> 1)
    (c ^^^ b.zeroExtend 32)

/-- CRC-32C with initial value and final inversion of all ones. -/
def crc32c (m : List Byte) : Word := ~~~(m.foldl crcByte 0xFFFFFFFF#32)

end Sys2Proof.Machine
end

