-- ==== Sys2Proof/Machine/VectorFp.lean ====
section
/-! DEFINITION. Floating-point arithmetic, compares and the special functions (R84, R85, R117 to R119, R159, R161,
R162). -/

namespace Sys2Proof.Machine

/-! ### Operand forms: FP32 in one register, FP64 in a pair -/

def fpFmt (f64 : Bool) : Fmt := if f64 then fp64 else fp32

def Team.okFp (t : Team) (f64 : Bool) (r : Nat) : Bool := if f64 then t.okV2 r else t.okV r

def fpRegs (f64 : Bool) (r : Nat) : List Nat := if f64 then [r, r + 1] else [r]

def Warp.fpGet (w : Warp) (f64 : Bool) (r l : Nat) : Nat :=
  if f64 then (w.vget64 r l).toNat else (w.vget r l).toNat

def fpWrites (f64 : Bool) (d n : Nat) : List (Nat × Word) :=
  if f64 then pairWrites d (BitVec.ofNat 64 n) else [(d, BitVec.ofNat 32 n)]

/-- An operation of format, mode, FTZ and operands. -/
abbrev FpFun2 := Fmt → Mode → Bool → Nat → Nat → Nat × Flags

/-- Two sources (R161). -/
def fpVV (s : State) (f64 : Bool) (d a b : Nat) (f : FpFun2) : Out :=
  laneOpF s (fun t => t.okFp f64 d && t.okFp f64 a && t.okFp f64 b) (fpRegs f64 a ++ fpRegs f64 b) fun w l =>
    let r := f (fpFmt f64) w.mode w.ftz (w.fpGet f64 a l) (w.fpGet f64 b l)
    (fpWrites f64 d r.1, r.2)

/-- The fused multiply-add reads vd too (R161). -/
def fpFma (s : State) (f64 : Bool) (d a b : Nat) : Out :=
  laneOpF s (fun t => t.okFp f64 d && t.okFp f64 a && t.okFp f64 b)
    (fpRegs f64 a ++ fpRegs f64 b ++ fpRegs f64 d) fun w l =>
    let r := ffma (fpFmt f64) w.mode w.ftz (w.fpGet f64 a l) (w.fpGet f64 b l) (w.fpGet f64 d l)
    (fpWrites f64 d r.1, r.2)

/-- One source. -/
def fpV (s : State) (f64 : Bool) (d a : Nat) (f : Fmt → Mode → Bool → Nat → Nat × Flags) : Out :=
  laneOpF s (fun t => t.okFp f64 d && t.okFp f64 a) (fpRegs f64 a) fun w l =>
    let r := f (fpFmt f64) w.mode w.ftz (w.fpGet f64 a l)
    (fpWrites f64 d r.1, r.2)

/-- fmin and fmax as operations of two sources. -/
def fminOp : FpFun2 := fun f _ ftz a b => fminmax f ftz false a b
def fmaxOp : FpFun2 := fun f _ ftz a b => fminmax f ftz true a b

/-! ### Arithmetic meanings -/

/-- `fadd.f32` (R161). -/
def execVFaddF32 (d a b : Nat) (s : State) : Out := fpVV s false d a b fadd
/-- `fsub.f32` (R161). -/
def execVFsubF32 (d a b : Nat) (s : State) : Out := fpVV s false d a b fsub
/-- `fmul.f32` (R161). -/
def execVFmulF32 (d a b : Nat) (s : State) : Out := fpVV s false d a b fmul
/-- `fma.f32` (R161). -/
def execVFmaF32 (d a b : Nat) (s : State) : Out := fpFma s false d a b
/-- `fmin.f32` (R161). -/
def execVFminF32 (d a b : Nat) (s : State) : Out := fpVV s false d a b fminOp
/-- `fmax.f32` (R161). -/
def execVFmaxF32 (d a b : Nat) (s : State) : Out := fpVV s false d a b fmaxOp
/-- `fabs.f32` (R161). -/
def execVFabsF32 (d a : Nat) (s : State) : Out := fpV s false d a fun f _ _ x => (fabsBits f x, 0)
/-- `fneg.f32` (R161). -/
def execVFnegF32 (d a : Nat) (s : State) : Out := fpV s false d a fun f _ _ x => (fnegBits f x, 0)
/-- `fadd.f64` (R161). -/
def execVFaddF64 (d a b : Nat) (s : State) : Out := fpVV s true d a b fadd
/-- `fsub.f64` (R161). -/
def execVFsubF64 (d a b : Nat) (s : State) : Out := fpVV s true d a b fsub
/-- `fmul.f64` (R161). -/
def execVFmulF64 (d a b : Nat) (s : State) : Out := fpVV s true d a b fmul
/-- `fma.f64` (R161). -/
def execVFmaF64 (d a b : Nat) (s : State) : Out := fpFma s true d a b
/-- `fmin.f64` (R161). -/
def execVFminF64 (d a b : Nat) (s : State) : Out := fpVV s true d a b fminOp
/-- `fmax.f64` (R161). -/
def execVFmaxF64 (d a b : Nat) (s : State) : Out := fpVV s true d a b fmaxOp
/-- `fabs.f64` (R161). -/
def execVFabsF64 (d a : Nat) (s : State) : Out := fpV s true d a fun f _ _ x => (fabsBits f x, 0)
/-- `fneg.f64` (R161). -/
def execVFnegF64 (d a : Nat) (s : State) : Out := fpV s true d a fun f _ _ x => (fnegBits f x, 0)

/-! ### Special functions (R117 to R119) -/

/-- The canonical NaN with NV. -/
def invalid : XR × Flags := (.nan, flagNV)

/-- 1 / x. -/
def spRcp (x : XR) : XR × Flags := XR.div (.fin false 1 1) x

/-- 1 / √x. -/
def spRsq : XR → XR × Flags
  | .nan => (.nan, 0)
  | .inf neg => if neg then invalid else (.fin false 0 1, 0)
  | .fin neg n d =>
    if n = 0 then (.inf neg, flagDZ)
    else if neg then invalid
    else let r := sqrtFrac d n; (.fin false r.1 r.2, 0)

/-- √x. -/
def spSqrt : XR → XR × Flags
  | .nan => (.nan, 0)
  | .inf neg => if neg then invalid else (.inf false, 0)
  | .fin neg n d =>
    if n = 0 then (.fin neg 0 1, 0)
    else if neg then invalid
    else let r := sqrtFrac n d; (.fin false r.1 r.2, 0)

/-- 2^x. -/
def spExp2 (x : XR) : XR × Flags := (x.exp2, 0)

/-- log2 x. -/
def spLog2 : XR → XR × Flags
  | .nan => (.nan, 0)
  | .inf neg => if neg then invalid else (.inf false, 0)
  | .fin neg n d =>
    if n = 0 then (.inf true, flagDZ) else if neg then invalid else (log2Pos n d, 0)

/-- sin x. -/
def spSin : XR → XR × Flags
  | .nan => (.nan, 0)
  | .inf _ => invalid
  | .fin neg n d => if n = 0 then (.fin neg 0 1, 0) else (trig false neg n d, 0)

/-- cos x. -/
def spCos : XR → XR × Flags
  | .nan => (.nan, 0)
  | .inf _ => invalid
  | .fin neg n d => if n = 0 then (.fin false 1 1, 0) else (trig true neg n d, 0)

/-- A special function correctly rounded under the warp's FPMODE (R117). -/
def special (s : State) (f64 : Bool) (d a : Nat) (g : XR → XR × Flags) : Out :=
  fpV s f64 d a fun f mode ftz x =>
    let r := deliver f mode ftz (g (f.val ftz x))
    (r.1, r.2 ||| snanFlag f [x])

/-- `rcp.f32` (R162). -/
def execVRcpF32 (d a : Nat) (s : State) : Out := special s false d a spRcp
/-- `rsq.f32` (R162). -/
def execVRsqF32 (d a : Nat) (s : State) : Out := special s false d a spRsq
/-- `sqrt.f32` (R162). -/
def execVSqrtF32 (d a : Nat) (s : State) : Out := special s false d a spSqrt
/-- `exp2.f32` (R162). -/
def execVExp2F32 (d a : Nat) (s : State) : Out := special s false d a spExp2
/-- `log2.f32` (R162). -/
def execVLog2F32 (d a : Nat) (s : State) : Out := special s false d a spLog2
/-- `sin.f32` (R162). -/
def execVSinF32 (d a : Nat) (s : State) : Out := special s false d a spSin
/-- `cos.f32` (R162). -/
def execVCosF32 (d a : Nat) (s : State) : Out := special s false d a spCos
/-- `rcp.f64` (R162). -/
def execVRcpF64 (d a : Nat) (s : State) : Out := special s true d a spRcp
/-- `rsq.f64` (R162). -/
def execVRsqF64 (d a : Nat) (s : State) : Out := special s true d a spRsq
/-- `sqrt.f64` (R162). -/
def execVSqrtF64 (d a : Nat) (s : State) : Out := special s true d a spSqrt

/-! ### Compares (R159) -/

/-- NV of a compare: a signalling NaN always, and under an ordering relation a quiet one too. -/
def fcmpFlag (f : Fmt) (ordering : Bool) (a b : Nat) : Flags :=
  if f.isSNaN a || f.isSNaN b || (ordering && (f.isNaN a || f.isNaN b)) then flagNV else 0

/-- A floating compare: each active lane of pd takes the relation (R84, R159). -/
def fcmpOp (s : State) (p a b : Nat) (f64 ordering : Bool) (rel : XR → XR → Bool) : Out :=
  predOp s p (fun t => t.okFp f64 a && t.okFp f64 b) (fpRegs f64 a ++ fpRegs f64 b) fun w l =>
    let f := fpFmt f64
    let x := w.fpGet f64 a l
    let y := w.fpGet f64 b l
    (rel (f.val w.ftz x) (f.val w.ftz y), fcmpFlag f ordering x y)

/-- `fcmp.eq` (R159). -/
def execVFcmpEq (p a b : Nat) (f64 : Bool) (s : State) : Out := fcmpOp s p a b f64 false XR.eqv
/-- `fcmp.ne` (R159). -/
def execVFcmpNe (p a b : Nat) (f64 : Bool) (s : State) : Out := fcmpOp s p a b f64 false fun x y => !XR.eqv x y
/-- `fcmp.lt` (R159). -/
def execVFcmpLt (p a b : Nat) (f64 : Bool) (s : State) : Out := fcmpOp s p a b f64 true XR.lt
/-- `fcmp.le` (R159). -/
def execVFcmpLe (p a b : Nat) (f64 : Bool) (s : State) : Out := fcmpOp s p a b f64 true XR.le
/-- `fcmp.gt` (R159). -/
def execVFcmpGt (p a b : Nat) (f64 : Bool) (s : State) : Out := fcmpOp s p a b f64 true fun x y => XR.lt y x
/-- `fcmp.ge` (R159). -/
def execVFcmpGe (p a b : Nat) (f64 : Bool) (s : State) : Out := fcmpOp s p a b f64 true fun x y => XR.le y x
/-- `fcmp.num` (R159). -/
def execVFcmpNum (p a b : Nat) (f64 : Bool) (s : State) : Out :=
  fcmpOp s p a b f64 false fun x y => !x.isNaN && !y.isNaN
/-- `fcmp.nan` (R159). -/
def execVFcmpNan (p a b : Nat) (f64 : Bool) (s : State) : Out :=
  fcmpOp s p a b f64 false fun x y => x.isNaN || y.isNaN

end Sys2Proof.Machine
end

