-- ==== Sys2Proof/Machine/Reel.lean ====
section
/-! DEFINITION. The Reel row engine (R269 to R276). -/

namespace Sys2Proof.Machine

/-! ### Issue (R270, R275) -/

def reelL (x : Tensor) : Nat := x.nat 8 4
def reelRows (x : Tensor) : Nat := x.nat 12 2
def reelRow0 (x : Tensor) : Nat := x.nat 14 2
def reelRms (x : Tensor) : Bool := bitOf (x.nat 24 1) 0
def reelImport (b : List Byte) : Bool := bitOf (blkNat b 24 1) 1
def reelOrg (x : Tensor) : Nat := x.nat 28 4

/-- Slot bytes an instruction must name, and those it may (R270): 0 X, 1 Y, 2 DY, 3 GAMMA, 4 BETA, 5 DGB, 6 MASK. -/
def reelUses (kind : TensorKind) (imp : Bool) : List Nat × List Nat :=
  match kind with
  | .smax => ([0, 1], [6])
  | .dsmax => ([0, 1, 2], [6])
  | .norm => ([0, 1], [3, 4])
  | .dnorm => ([0, 1, 2], [3, 5])
  | .stat => ([if imp then 0 else 1], [])
  | _ => ([], [])

/-- The slots a block names and NONE are as the instruction uses them. -/
def reelSlotsOk (kind : TensorKind) (b : List Byte) : Bool :=
  let u := reelUses kind (reelImport b)
  (List.range 7).all fun i =>
    field (blkNat b i 1) 6 4 == 0 &&
      (if i ∈ u.1 then !noSlot (blkNat b i 1) else decide (i ∈ u.2) || noSlot (blkNat b i 1))

/-- The formats and ranks of R270 and R275. DESIGN CHOICE: a GAMMA or BETA map whose extent is not L is taken, elements outside it
reading as zero, since R270 lists no refusal of it (log 121). -/
def reelMapOk (kind : TensorKind) (i : Nat) (m : TMap) : Bool :=
  m.scratch &&
    (if kind = .stat then m.fmt == .f64 && decide (2 ≤ m.dim 0)
     else
       match i with
       | 3 | 4 => (m.fmt == .f32 || m.fmt == .bf16) && m.rank == 1
       | 5 => m.fmt == .f64 && m.rank == 2
       | 6 => m.fmt == .n32 && m.rank == 1
       | _ => m.fmt == .f32 || m.fmt == .bf16)

/-- EPS is finite and not negative. -/
def epsOk (n : Nat) : Bool :=
  match fp32.val false n with
  | .fin neg k _ => !neg || k == 0
  | _ => false

/-- The legality of a row block (R270, R275). -/
def reelLegal (t : Team) (x : Tensor) : Bool :=
  reelSlotsOk x.kind x.blk && decide (1 ≤ reelL x) && decide (reelL x ≤ 65536) && decide (1 ≤ reelRows x)
    && decide (reelRows x ≤ 4096) && decide (reelRow0 x + reelRows x ≤ t.acc * 256) && epsOk (x.nat 20 4)
    && field (x.nat 24 1) 7 2 == 0 && zeroBytes x.blk 25 3 && zeroBytes x.blk 32 32
    && (x.maps.all fun p => reelMapOk x.kind p.1 p.2) && (x.kind != .stat || reelL x == 2)

/-- The operands: every map lies in the scratchpad, and DGB is read and written. -/
def reelOperands (x : Tensor) : List Operand :=
  x.maps.flatMap fun p =>
    match p.1 with
    | 1 => [operand2 p.2 0 (reelOrg x) (reelL x) (reelRows x) true]
    | 3 | 4 => [operand2 p.2 0 0 (reelL x) 1 false]
    | 5 => [operand2 p.2 0 0 (reelL x) 2 false, operand2 p.2 0 0 (reelL x) 2 true]
    | 6 => [operand2 p.2 (reelOrg x) 0 (reelRows x) 1 false]
    | _ => [operand2 p.2 0 (reelOrg x) (reelL x) (reelRows x) false]

/-- A Reel instruction at issue. -/
def issueReel (s : State) (kn d : Nat) (kind : TensorKind) : Out :=
  onSeeing s false fun s t sg j w =>
    require (okS2 d) s w <| raising w (some .t) (some kn) <| withBlock s t w d 64 64 fun s a pa b =>
      let u := reelUses kind (reelImport b)
      let named := (List.range 7).filter fun i => (decide (i ∈ u.1) || decide (i ∈ u.2)) && !noSlot (blkNat b i 1)
      usingSlots s t w (named.map fun i => (slotOf (blkNat b i 1), i == 1 || i == 5)) (blockTrouble .illegal a 0) <|
        let x := tensorOf sg kind b (named.map fun i => (i, t.tmap (slotOf (blkNat b i 1))))
        let ops := reelOperands x
        demand s w (reelLegal t x && fewIvs ops) .illegal a 0 <|
        demand s w (x.maps.all fun p => p.2.tag == 0) .tag a 0 <|
          launchTensor s t j w kn a pa x ops [] [] [] id

/-- `reel.smax` (R271). -/
def execReelSmax (kn d : Nat) (s : State) : Out := issueReel s kn d .smax
/-- `reel.norm` (R273). -/
def execReelNorm (kn d : Nat) (s : State) : Out := issueReel s kn d .norm
/-- `reel.dsmax` (R272). -/
def execReelDsmax (kn d : Nat) (s : State) : Out := issueReel s kn d .dsmax
/-- `reel.dnorm` (R274). -/
def execReelDnorm (kn d : Nat) (s : State) : Out := issueReel s kn d .dnorm
/-- `reel.stat` (R275). -/
def execReelStat (kn d : Nat) (s : State) : Out := issueReel s kn d .stat
/-- `reel.clr` (R275). -/
def execReelClr (kn d : Nat) (s : State) : Out := issueReel s kn d .clr

/-! ### Arithmetic on exact values with one rounding -/

/-- A value with the flags raised so far. -/
abbrev XF := XR × Flags

def xmul (a b : XF) : XF := let r := XR.mul a.1 b.1; (r.1, a.2 ||| b.2 ||| r.2)
def xadd (a b : XF) : XF := let r := XR.add .rne a.1 b.1; (r.1, a.2 ||| b.2 ||| r.2)
def xsub (a b : XF) : XF := xadd a (b.1.neg, b.2)
def xdiv (a b : XF) : XF := let r := XR.div a.1 b.1; (r.1, a.2 ||| b.2 ||| r.2)

/-- `round_rne` of a value to a format, as an exact value again. -/
def xround (f : Fmt) (a : XF) : XF := let r := a.1.rne f; (f.val false r.1, a.2 ||| r.2)

/-- The bits of a value that a format represents. -/
def xbits (f : Fmt) (a : XF) : Nat := (a.1.rne f).1

/-- The same value without its flags, once they have been counted. -/
def xq (a : XF) : XF := (a.1, 0)

/-- A left fold that gathers one rounded accumulator. -/
def xsum (f : XF → XF → XF) (l : List XF) : XF := l.foldl (fun acc v => xround fp64 (f acc v)) (.fin false 0 1, 0)

/-- A row's elements of operand `k`, with NV for signalling NaNs. -/
def reelRow (s : State) (t : Team) (x : Tensor) (k row n : Nat) : List XF :=
  (List.range n).map fun i =>
    let b := s.elemBits t [] (x.map k) [i, row, 0, 0, 0]
    (s.elemVal t [] (x.map k) [i, row, 0, 0, 0], (x.map k).fmt.snan [b])

/-- Valid count of a row (R270, R271). -/
def reelValid (s : State) (t : Team) (x : Tensor) (r : Nat) : Nat :=
  if x.has 6 then min (reelL x) (s.elemBits t [] (x.map 6) [reelOrg x + r, 0, 0, 0, 0]) else reelL x

/-- SC, EPS as exact values. -/
def reelSc (x : Tensor) : XF := (fp32.val false (x.nat 16 4), snanFlag fp32 [x.nat 16 4])
def reelEps (x : Tensor) : XF := (fp32.val false (x.nat 20 4), 0)

/-- A statistics entry's value (R269). -/
def reelEntry (t : Team) (x : Tensor) (r which : Nat) : DWord := Sparse.get 0 t.reel (2 * (reelRow0 x + r) + which)

/-- What a row gives: its elements of Y as bits, new entry values, DGB so far, flags. -/
structure RowOut where
  y : List Nat
  entry : Option (DWord × DWord)
  flags : Flags
  deriving DecidableEq, Repr, Inhabited

/-- The format of Y. -/
def reelFmt (x : Tensor) : Fmt := (x.map 1).fmt.float.getD fp32

/-- A row of one value throughout. -/
def sameRow (x : Tensor) (bits : Nat) (entry : Option (DWord × DWord)) (fl : Flags) : RowOut :=
  { y := List.replicate (reelL x) bits, entry := entry, flags := fl }

def dw (n : Nat) : DWord := BitVec.ofNat 64 n

/-- log2 e rounded to FP32 (R271). -/
def l2e : XF := (fp32.val false 0x3FB8_AA3B, 0)

/-- ex[i] of R271. -/
def reelExp (z m : XF) : XF :=
  let u := xround fp32 (xmul (xround fp32 (xsub z m)) l2e)
  xround fp32 (u.1.exp2, u.2)

/-- Outputs rounded to Y's format, with +0 after the valid ones. -/
def reelOut (x : Tensor) (vs : List XF) (entry : Option (DWord × DWord)) (fl : Flags) : RowOut :=
  let ys := vs.map fun v => let r := v.1.rne (reelFmt x); (r.1, v.2 ||| r.2)
  { y := ys.map (·.1) ++ List.replicate (reelL x - ys.length) 0, entry := entry,
    flags := fl ||| orFlags (ys.map (·.2)) }

/-- z[i] of R271. -/
def reelZ (s : State) (t : Team) (x : Tensor) (r : Nat) : List XF :=
  (reelRow s t x 0 (reelOrg x + r) (reelValid s t x r)).map fun v => xround fp32 (xmul (reelSc x) v)

/-- The maximum of z, −Inf when none is valid (R271). DESIGN CHOICE: where it is a zero met with both signs, the last one's sign
stands (log 122). -/
def reelMax (zs : List XF) : XR := zs.foldl (fun m z => if XR.le m z.1 then z.1 else m) (.inf true)

/-- One row of `reel.smax` (R271). -/
def smaxRow (s : State) (t : Team) (x : Tensor) (r : Nat) : RowOut :=
  let zs := reelZ s t x r
  let fl := orFlags (zs.map (·.2))
  let m := reelMax zs
  let nan := dw fp64.qnan
  if (zs.any fun z => z.1.isNaN) ∨ m = .inf false then
    sameRow x (reelFmt x).qnan (some (nan, nan)) (fl ||| flagNV)
  else if zs = [] ∨ m = .inf true then sameRow x 0 (some (dw (fp64.inf + fp64.sign), 0)) fl
  else
    let ex := zs.map fun z => reelExp (xq z) (m, 0)
    let sum := xsum xadd (ex.map xq)
    let ys := ex.map fun e => xdiv (xq e) (xq sum)
    reelOut x ys (some (dw (xbits fp64 (m, 0)), dw (xbits fp64 sum)))
      (fl ||| orFlags (ex.map (·.2)) ||| sum.2)

/-- One row of `reel.dsmax` (R272). -/
def dsmaxRow (s : State) (t : Team) (x : Tensor) (r : Nat) : RowOut :=
  let s1 := fp64.val false (reelEntry t x r 0).toNat
  let s2 := fp64.val false (reelEntry t x r 1).toNat
  if s1.isNaN || s2.isNaN then sameRow x (reelFmt x).qnan none flagNV
  else if s1 = .inf true then sameRow x 0 none 0
  else
    let zs := reelZ s t x r
    let fl := orFlags (zs.map (·.2))
    if zs.any fun z => z.1.isNaN || z.1 == .inf false then sameRow x (reelFmt x).qnan none (fl ||| flagNV)
    else
      let ex := zs.map fun z => reelExp (xq z) (s1, 0)
      let yv := ex.map fun e => xround fp64 (xdiv (xq e) (s2, 0))
      let dy := reelRow s t x 2 (reelOrg x + r) zs.length
      let d := (yv.zip dy).foldl (fun acc p => xround fp64 (xadd acc (xmul (xq p.1) p.2))) ((.fin false 0 1, 0) : XF)
      let es := (yv.zip dy).map fun p => xround fp64 (xsub p.2 (xq d))
      let vs := (yv.zip es).map fun p => xmul (xmul (reelSc x) (xq p.1)) p.2
      reelOut x vs none (fl ||| orFlags (ex.map (·.2)) ||| orFlags (yv.map (·.2)) ||| d.2)

/-- Element i of GAMMA (1 when missing) or BETA (0 when missing) (R270). -/
def reelVec (s : State) (t : Team) (x : Tensor) (k i : Nat) (none : XR) : XF :=
  if x.has k then
    let b := s.elemBits t [] (x.map k) [i, 0, 0, 0, 0]
    (s.elemVal t [] (x.map k) [i, 0, 0, 0, 0], (x.map k).fmt.snan [b])
  else (none, 0)

def xzero : XF := (.fin false 0 1, 0)
def xlen (x : Tensor) : XF := (XR.ofInt (reelL x), 0)

/-- One row of `reel.norm` (R273). -/
def normRow (s : State) (t : Team) (x : Tensor) (r : Nat) : RowOut :=
  let xs := reelRow s t x 0 (reelOrg x + r) (reelL x)
  let sum := xsum xadd xs
  let mu := if reelRms x then xzero else xround fp64 (xdiv (xq sum) (xlen x))
  let d := xs.map fun v => xround fp64 (xsub v (xq mu))
  let a := (d.map xq).foldl (fun acc v => xround fp64 (xadd acc (xmul v v))) xzero
  let v := xround fp64 (xdiv (xq a) (xlen x))
  let e := xadd (xq v) (reelEps x)
  let q := spRsq e.1
  let rs := xround fp64 (q.1, e.2 ||| q.2)
  let ys := (d.zip (List.range d.length)).map fun p =>
    xadd (xmul (xmul (xq p.1) (xq rs)) (reelVec s t x 3 p.2 (.fin false 1 1))) (reelVec s t x 4 p.2 (.fin false 0 1))
  reelOut x ys (some (dw (xbits fp64 mu), dw (xbits fp64 rs)))
    (sum.2 ||| mu.2 ||| orFlags (d.map (·.2)) ||| a.2 ||| v.2 ||| rs.2)

/-- One row of `reel.dnorm` (R274) with the sums for dγ and dβ before it: the row and the sums after it. -/
def dnormRow (s : State) (t : Team) (x : Tensor) (dgb : List (XF × XF)) (r : Nat) : RowOut × List (XF × XF) :=
  let mu : XF := (fp64.val false (reelEntry t x r 0).toNat, snanFlag fp64 [(reelEntry t x r 0).toNat])
  let rs : XF := (fp64.val false (reelEntry t x r 1).toNat, snanFlag fp64 [(reelEntry t x r 1).toNat])
  let xs := reelRow s t x 0 (reelOrg x + r) (reelL x)
  let dy := reelRow s t x 2 (reelOrg x + r) (reelL x)
  let d := xs.map fun v => xround fp64 (xsub v mu)
  let xh := d.map fun v => xround fp64 (xmul (xq v) rs)
  let g := (dy.zip (List.range dy.length)).map fun p =>
    xround fp64 (xmul p.1 (reelVec s t x 3 p.2 (.fin false 1 1)))
  let sg := xsum xadd (g.map xq)
  let sx := (g.zip xh).foldl (fun acc p => xround fp64 (xadd acc (xmul (xq p.1) (xq p.2)))) xzero
  let mg := if reelRms x then xzero else xround fp64 (xdiv (xq sg) (xlen x))
  let mx := xround fp64 (xdiv (xq sx) (xlen x))
  let vs := (g.zip xh).map fun p =>
    xmul rs (xsub (xsub (xq p.1) (xq mg)) (xmul (xq p.2) (xq mx)))
  let dgb' := ((dgb.zip dy).zip xh).map fun p =>
    (xround fp64 (xadd p.1.1.1 (xmul p.1.2 (xq p.2))), xround fp64 (xadd p.1.1.2 p.1.2))
  (reelOut x vs none (orFlags (d.map (·.2)) ||| orFlags (xh.map (·.2)) ||| orFlags (g.map (·.2)) ||| sg.2 ||| sx.2
      ||| mg.2 ||| mx.2), dgb')

/-! ### The operations' effects -/

/-- The writes of rows to Y and to the entries. -/
def rowsEffect (x : Tensor) (rows : List RowOut) : Effect :=
  let ps := rows.zip (List.range rows.length)
  { mem := ps.flatMap fun p => putRow (x.map 1) 0 [reelOrg x + p.2, 0, 0, 0] p.1.y,
    reel := ps.flatMap fun p => match p.1.entry with
      | some e => [(2 * (reelRow0 x + p.2), e.1), (2 * (reelRow0 x + p.2) + 1, e.2)]
      | none => [],
    flags := orFlags (rows.map fun r => r.flags) }

/-- `reel.dnorm`: rows in ascending order (R274). -/
def dnormEffect (s : State) (t : Team) (x : Tensor) : Effect :=
  let start := if x.has 5 then (List.range (reelL x)).map fun i =>
      let at1 := fun (k : Nat) =>
        let b := s.elemBits t [] (x.map 5) [i, k, 0, 0, 0]
        ((fp64.val false b, snanFlag fp64 [b]) : XF)
      (at1 0, at1 1)
    else []
  let r := (List.range (reelRows x)).foldl (fun (acc : List RowOut × List (XF × XF)) k =>
    let o := dnormRow s t x acc.2 k
    (acc.1 ++ [o.1], o.2)) ([], start)
  let e := rowsEffect x r.1
  let sums := r.2.zip (List.range r.2.length)
  { e with
    mem := e.mem ++ sums.flatMap fun p =>
      (x.map 5).put [p.2, 0, 0, 0, 0] (xbits fp64 p.1.1) ++ (x.map 5).put [p.2, 1, 0, 0, 0] (xbits fp64 p.1.2),
    flags := e.flags ||| orFlags (r.2.map fun p => p.1.2 ||| p.2.2) }

/-- `reel.stat` (R275). -/
def statEffect (s : State) (t : Team) (x : Tensor) : Effect :=
  let rs := List.range (reelRows x)
  if reelImport x.blk then
    { reel := rs.flatMap fun r => (List.range 2).map fun k =>
        (2 * (reelRow0 x + r) + k, dw (s.elemBits t [] (x.map 0) [k, reelOrg x + r, 0, 0, 0])) }
  else
    { mem := rs.flatMap fun r => (List.range 2).flatMap fun k =>
        (x.map 1).put [k, reelOrg x + r, 0, 0, 0] (reelEntry t x r k).toNat }

/-- A Reel operation's effect. -/
def reelEffect (s : State) (t : Team) (x : Tensor) : Effect :=
  let rs := List.range (reelRows x)
  match x.kind with
  | .smax => rowsEffect x (rs.map (smaxRow s t x))
  | .dsmax => rowsEffect x (rs.map (dsmaxRow s t x))
  | .norm => rowsEffect x (rs.map (normRow s t x))
  | .dnorm => dnormEffect s t x
  | .stat => statEffect s t x
  | _ => { reel := rs.flatMap fun r => [(2 * (reelRow0 x + r), (0 : DWord)), (2 * (reelRow0 x + r) + 1, 0)] }

/-- The Reel instructions' operations. -/
def TensorKind.isReel : TensorKind → Bool
  | .smax | .norm | .dsmax | .dnorm | .stat | .clr => true
  | _ => false

/-- An earlier Reel operation of the core is outstanding (R276). -/
def State.reelBusy (s : State) (o : Op) : Bool :=
  s.ops.any fun p => p.core == o.core && decide (p.id < o.id) && (match p.kind with
    | .tensor y => y.kind.isReel
    | _ => false)

end Sys2Proof.Machine
end

