-- ==== Sys2Proof/Machine/TensorEvents.lean ====
section
/-! DEFINITION. When tensor, matrix, layer and Reel operations are performed, tiles evaluated, and stack copies done (R238 to
R242, R259, R268, R283 to R285, R289). -/

namespace Sys2Proof.Machine

/-! ### Tile evaluations (R283 to R285) -/

/-- A free integer of a range; 0 of an empty one. -/
def freeInt (fresh : Nat) (lo hi : Int) : Int := if hi < lo then 0 else lo + (Config.freeNat fresh % (hi - lo + 1).toNat : Nat)

/-- Output lines of a tile: data columns below N, or rows below K when transposed. -/
def tileLines (x : Tensor) (h : LayerHold) (tr tc : Nat) : Nat :=
  if x.kind = .layerT then min 1024 (h.k - 1024 * tr) else min 512 (h.n - 512 * tc)

/-- The exact sum of a tile's products for one output line (R284). -/
def tileSum (x : Tensor) (h : LayerHold) (img : List Byte) (codes : List Int) (tr tc line : Nat) : Int :=
  if x.kind = .layerT then
    ((List.range (min 512 (h.n - 512 * tc))).map fun i =>
      codes.getD (512 * tc + i) 0 * goldenCode img h.n (1024 * tr + line) (512 * tc + i)).foldl (· + ·) 0
  else
    ((List.range (min 1024 (h.k - 1024 * tr))).map fun i =>
      codes.getD (1024 * tr + i) 0 * goldenCode img h.n (1024 * tr + i) (512 * tc + line)).foldl (· + ·) 0

/-- Tiles already evaluated for the vector whose codes add to the same outputs, as tile rows (or tile columns when
transposed). -/
def tilesSummed (x : Tensor) (h : LayerHold) (vector tr tc : Nat) : List Nat :=
  if x.kind = .layerT then
    (List.range (tileCols h.n)).filter fun c => h.evaluated.contains (vector * 65536 + tr * tileCols h.n + c)
  else (List.range (tileRows h.k)).filter fun r => h.evaluated.contains (vector * 65536 + r * tileCols h.n + tc)

/-- The codes R284 allows for an output line of a tile while no code of the vector is clamped: the running sum of the line's codes
keeps within the bound; none where R284 states no bound. -/
def codeBounds (r : Region) (x : Tensor) (h : LayerHold) (codes : List Int) (vector tr tc line : Nat) : Option (Int × Int) :=
  if !r.auto || decide (4 < r.iclass) || h.clamped.contains vector then none
  else
    let done := tilesSummed x h vector tr tc
    let sums := if x.kind = .layerT then
        (done ++ [tc]).map fun c => tileSum x h r.golden codes tr c line
      else (done ++ [tr]).map fun q => tileSum x h r.golden codes q tc line
    let D := sums.foldl (· + ·) 0
    let part := done.length + 1
    let got := (done.map fun q =>
      Sparse.get (0 : Int) h.codes (codeKey vector (if x.kind = .layerT then tr * tileCols h.n + q else q * tileCols h.n + tc)
        line)).foldl (· + ·) 0
    let one : XR := .fin false 1 1
    let range := if x.kind = .layerT then
        if h.cols.all fun c => c.cflags == 0 then
          codeRange one (.fin false 0 1) part (tileCols h.n) (2 ^ h.ej) (5 * tileCols h.n) D
        else none
      else
        let c := h.cols.getD (512 * tc + line) { cs := 0, g := 0, o := 0, cflags := 1 }
        if c.cflags = 0 then
          codeRange (fp32.val false c.g) (fp32.val false c.o) part (tileRows h.k) (2 ^ h.ec) (5 * tileRows h.k) D
        else none
    range.map fun b => (b.1 - got, b.2 - got)

/-- A tile's code of a line before clamping: free, within R284's bound where one is stated. -/
def tileCode (fresh : Nat) (r : Region) (x : Tensor) (h : LayerHold) (codes : List Int) (vector tr tc line : Nat) : Int :=
  match codeBounds r x h codes vector tr tc line with
  | some b => freeInt (fresh + line) b.1 b.2
  | none => freeInt (fresh + line) (-4096) 4095

/-- A code clamped to 12 bits (R283). -/
def clampCode (c : Int) : Int := max (-2048) (min 2047 c)

/-- The sum of the codes of group `q` of a tile as delivered (R285). -/
def groupSum (codes : List Int) (q : Nat) : Int := ((codes.drop (128 * q)).take 128).foldl (· + ·) 0

/-- The columns of group `q` of a tile column are compensated and unflagged (R284). -/
def soundGroup (r : Region) (h : LayerHold) (tc q : Nat) : Bool :=
  r.auto && decide (r.iclass ≤ 4) && ((h.cols.drop (512 * tc + 128 * q)).take (min 128 (512 - 128 * q))).all fun c => c.cflags == 0

/-- The code of checksum column `q` (R285): the mean of its group's 128 data readings, before they are clamped, where R284 bounds
them; DESIGN CHOICE: the manual says how near for the verify pass alone, 3 steps each, which makes 768 over the group, and the reading
is free within that, and of any value where R284 states no bound (log 116). Clamped, with no flag. -/
def checksumCode (fresh : Nat) (r : Region) (h : LayerHold) (raw : List Int) (tc q : Nat) : Int :=
  let sum := groupSum raw q
  clampCode (if soundGroup r h tc q then freeInt (fresh + 1024 + q) (ceilInt (sum - 768) 128) ((sum + 768) / 128)
    else freeInt (fresh + 1024 + q) (-4096) 4095)

/-- The checksum columns of a forward evaluation that mismatch the codes delivered (R285). -/
def mismatches (fresh : Nat) (r : Region) (h : LayerHold) (raw : List Int) (tc : Nat) : List Nat :=
  (List.range 4).filter fun q =>
    decide (768 < (groupSum (raw.map clampCode) q - 128 * checksumCode fresh r h raw tc q).natAbs)

/-- The region after a tile evaluation with `n` mismatches (R285, R289). -/
def Region.countEval (r : Region) (n : Nat) : Region :=
  let e := r.evals + 1
  let near := (r.missAt ++ List.replicate n e).filter fun i => decide (e < i + 65536)
  { r with evals := e, missAt := near, winOver := r.winOver || decide (r.pav 47 40 < near.length),
           miscnt := min (2 ^ 32 - 1) (r.miscnt + n), probeDue := r.probeDue || decide (0 < n) }

/-- The die-local UCIe module that carries an evaluation, which the manual leaves open. -/
def evalModule (fresh : Nat) : Nat := Config.freeNat (fresh + 1536) % 4

/-- The operands of an operation. -/
def Tensor.operands (x : Tensor) : List Operand :=
  match x.kind with
  | .rot => rotOperands x true (blkSize (rotBlk (x.nat 3 1)))
  | .irot => rotOperands x false (blkSize (tagBlk (x.map 0).tag))
  | .mma => if !mmaIsLoad x && mmaFlag x 1 then [] else [mmaOperand x]
  | .accLd => [operand2 (x.map 0) (accOrg0 x) (accOrg1 x) (accWidth x) (accRows x) false]
  | .accSt => accStOperands x (blkSize (rotBlk (x.nat 3 1)))
  | .layerF | .layerT | .layerP =>
    match x.layer with
    | some h => layerOperands x h
    | none => []
  | .zero => []
  | _ => reelOperands x

/-- Byte ranges of the global operands read. -/
def Tensor.readSpans (x : Tensor) : List (Nat × Nat) := (x.operands.filter fun p => !p.write).flatMap fun p => p.map.spans p.org p.box

/-- One tile evaluated for one vector of a layer operation; each mismatch leaves a raw record on the tile's AD (R31, R285), and a
packet that fails on the link with the AD leaves the operation with a data fault (R333). -/
def State.evaluateTile (s : State) (o : Op) (t : Team) (x : Tensor) (h : LayerHold) (vector tile : Nat) : State :=
  let s := (spanLines x.readSpans).foldl (fun y a => y.snoopOwner (lineOf (heldPa x.pages a))) s
  let r := s.region h.region
  let tc := tile % tileCols h.n
  let tr := tile / tileCols h.n
  let bits := (KMap.find h.inputs vector).getD (vectorBits s t x h vector)
  let dv := driveVector x h bits
  let raw := (List.range (tileLines x h tr tc)).map fun l => tileCode s.fresh r x h dv.codes vector tr tc l
  let got := raw.map clampCode
  let mism := if x.kind = .layerF then mismatches s.fresh r h raw tc else []
  let put := (got.zip (List.range got.length)).foldl (fun (m : Sparse Int) p =>
    Sparse.set 0 m (codeKey vector tile p.2) p.1) h.codes
  let e := r.placement.getD tile 0
  let m := evalModule s.fresh
  let lost := s.packetFails (adLink (entryAd e))
  let h1 : LayerHold :=
    { h with codes := put, evaluated := h.evaluated ++ [vector * 65536 + tile], inputs := KMap.put h.inputs vector bits,
             clamped := if got = raw then h.clamped else vector :: h.clamped, chkmis := h.chkmis + mism.length,
             linkFault := h.linkFault || lost }
  let s1 := { s.putOp { o with kind := .tensor { x with layer := some h1 } } with fresh := s.fresh + 2048 }.setRegion h.region
    (r.countEval mism.length)
  let s2 := s1.adPackets o.world (entryAd e) (packageModule (adRotation (entryAd e)) m)
  mism.foldl (fun y q => y.logError (entryAd e) (rawError e q m)) (if lost then s2.dropPacket (adLink (entryAd e)) else s2)

/-- TILE_EVALUATION. -/
def execTileEvaluation (op vector tile : Nat) (s : State) : Out :=
  onOp s op fun o =>
    match o.kind, s.findTeam o.team with
    | .tensor x, some t =>
      match x.layer with
      | some h =>
        if s.mayRead o && decide (vector < layerM x) && decide (tile < tileRows h.k * tileCols h.n)
            && !h.evaluated.contains (vector * 65536 + tile) then s.evaluateTile o t x h vector tile
        else s
      | none => s
    | _, _ => s

/-! ### Completion (R242, R259) -/

/-- What an operation computes; `chunk`, the chunk whose check failed twice. -/
def tensorEffect (s : State) (o : Op) (t : Team) (x : Tensor) (chunk : Option Nat) : Effect :=
  match x.kind with
  | .rot => rotEffect s t x
  | .irot => irotEffect s t x
  | .mma => if mmaIsLoad x then loadbEffect s t x else mulEffect s t o.core x chunk
  | .accLd => accLdEffect s t x
  | .accSt => accStEffect s t x
  | .layerF | .layerT | .layerP =>
    match x.layer with
    | some h => layerEffect s t x h
    | none => {}
  | .zero => {}
  | _ => reelEffect s t x

/-- Offset of STATUS in the block. -/
def TensorKind.statusAt : TensorKind → Nat
  | .rot | .irot | .accLd | .accSt => 4
  | .mma | .layerF | .layerT | .layerP => 6
  | _ => 7

/-- The operation multiplies in the matrix unit, whose check may fail (R259): a MUL, or a layer instruction's adapter
terms. -/
def Tensor.multiplies (x : Tensor) : Bool :=
  match x.kind with
  | .mma => !mmaIsLoad x
  | .layerF | .layerT => !layerNoad x
  | _ => false

/-- Its read phase may be performed: every earlier operation it must follow has been, and all its tiles are evaluated (R225,
R228, R258, R276). -/
def State.tensorReady (s : State) (o : Op) (x : Tensor) : Bool :=
  s.mayRead o && s.tilesFree o && !s.bankBusy o x && !(x.kind.isReel && s.reelBusy o)
    && (match x.layer with
      | some h => (List.range (layerM x)).all fun m =>
          (List.range (tileRows h.k * tileCols h.n)).all fun i => h.evaluated.contains (m * 65536 + i)
      | none => true)

/-- Chunks of products that the matrix unit checks (R259): of the K of a MUL, or, for each vector of a layer instruction, of its
two adapter terms. -/
def Tensor.chunks (x : Tensor) : Nat :=
  if !x.multiplies then 0
  else
    match x.layer with
    | some h => layerM x * (ceilDiv (layerIn x h) 32 + ceilDiv (layerRank x) 32)
    | none => ceilDiv (mmaK x) 32

/-- Soft errors of chunks that failed once and passed when recomputed (R259). -/
def State.countMatrices (s : State) (n : Nat) : State := (List.range n).foldl (fun x _ => x.countMatrix) s

/-- Global byte ranges that an effect writes. -/
def Effect.spans (e : Effect) : List (Nat × Nat) := e.mem.filterMap fun w => if w.1 then none else some (w.2.1, w.2.2.length)

/-- The data fault an operation meets, with its address: that of its global operands, or of a link with an AD (R242, R333). -/
def Tensor.dataFault (x : Tensor) (r : Option (Nat × DataFault)) : Option (Nat × DataFault) :=
  if r.isNone && (x.layer.map LayerHold.linkFault).getD false then some (0, .integrity) else r

/-- The read phase (R225, R242): global operands are read, which may find a data fault, and the new values are computed.
Where a chunk of a MUL failed again, the chunks before it keep their results (R259). -/
def State.runTensor (s : State) (o : Op) (t : Team) (x : Tensor) (checks : ChunkChecks) : TensorResult × State :=
  let r := (s.noteSpans o x.pages (logAgent 2 o.core) logRead x.readSpans).readSpans o x.pages x.readSpans
  let stop := checks.failed.filter fun c => decide (c < x.chunks)
  let counted := (checks.retries.eraseDups).filter fun c => decide (c < stop.getD x.chunks)
  let s1 := r.2.countMatrices counted.length
  let data := x.dataFault r.1
  let part := if data.isNone && x.kind == .mma then stop else none
  let fault : Option (FaultCode × Nat) := match data with
    | some f => some (dataCode f.2, f.1)
    | none => stop.map fun _ => (.matrixCheck, 0)
  ({ effect := tensorEffect r.2 o t x part, open' := fault.isSome && part.isNone,
     status := match data, stop with
       | some _, _ => 2
       | none, some _ => 4
       | none, none => 0,
     fault := fault }, s1)

/-- Packets of an effect's lines that fail: the operation stops with a data fault, if it has not stopped already, and which of its
elements are written is open (R242, R333). -/
def State.loseEffect (s : State) (x : Tensor) (r : TensorResult) : TensorResult × State :=
  let bad := (spanLines r.effect.spans).filter fun a => s.packetFails (lineOf (heldPa x.pages a))
  match bad with
  | [] => (r, s)
  | a :: _ =>
    ({ r with open' := true, status := if r.fault.isSome then r.status else 2,
              fault := if r.fault.isSome then r.fault else some (.integrity, a) },
      bad.foldl (fun y b => y.dropPacket (lineOf (heldPa x.pages b))) s)

/-- Steps 1 to 5 of R242. -/
def State.completeTensor (s : State) (o : Op) (x : Tensor) (r : TensorResult) : State :=
  let q := s.loseEffect x r
  let r := q.1
  let s := q.2
  let e := r.effect
  let s1 := (s.noteSpans o x.pages (logAgent 2 o.core) logWrite e.spans).applyEffect o x.pages x.bank r.open' e
  let s2 := ({ s1 with fresh := s1.fresh + e.mem.length + e.tiles.length + e.bank.length + e.reel.length }).mergeFlags o
    e.flags
  let s3 := e.block.foldl (fun y p => y.devWrite o.core (o.blkpa + p.1) p.2) s2
  let s4 := s3.devWrite o.core (o.blkpa + x.kind.statusAt) [BitVec.ofNat 8 r.status]
  let s5 := match r.fault with
    | some (c, a) => s4.postOpFault o (tensorSource o.core) c fun f => { f with addr := a }
    | none => s4
  let s6 := if x.layer.isSome && layerFlag x 3 then s5.updTeam o.team fun y => y.arrive (x.nat 9 1) 1 none else s5
  s6.retire o

/-- TENSOR_OP_COMPLETE: the operation performs its read phase, and its write phase then or, while older entries hold that, at a
later event (R225). -/
def execTensorOpComplete (op : Nat) (checks : ChunkChecks) (s : State) : Out :=
  onOp s op fun o =>
    match o.kind, s.findTeam o.team with
    | .tensor x, some t =>
      match x.result with
      | some r => if s.mayWrite o then s.completeTensor o x r else s
      | none =>
        if !s.tensorReady o x then s
        else if x.kind = .zero then (s.updTeam o.team fun y => y.zeroTiles o.tiles).retire o
        else
          let r := s.runTensor o t x checks
          if s.mayWrite o then r.2.completeTensor o x r.1
          else r.2.putOp { o with kind := .tensor { x with result := some r.1 }, readDone := true }
    | _, _ => s

/-! ### apush and apop (R268) -/

/-- The address a stack copy reads from and the one it writes to, at an offset, each with its space. -/
def StackCopy.src (c : StackCopy) (off : Nat) : Bool × Nat := if c.push then (c.map.scratch, c.map.base + off) else (false, c.stack + off)
def StackCopy.dst (c : StackCopy) (off : Nat) : Bool × Nat := if c.push then (false, c.stack + off) else (c.map.scratch, c.map.base + off)

/-- The bytes of a stack copy from `next` to `upto` moved, 64 at a time, with the accesses noted in the world's log (R341). -/
def State.moveStack (s : State) (o : Op) (c : StackCopy) (upto : Nat) : State :=
  (List.range ((upto - c.next) / 64)).foldl (fun x i =>
    match x.findTeam o.team with
    | none => x
    | some t =>
      let src := c.src (c.next + 64 * i)
      let dst := c.dst (c.next + 64 * i)
      let note := fun (y : State) (op : Nat) (p : Bool × Nat) =>
        if p.1 then y else y.noteSpans o c.pages (logAgent 1 o.core) op [(p.2, 64)]
      (note (note x logRead src) logWrite dst).opWrite o c.pages (dst.1, dst.2, x.opRead t c.pages src.1 src.2 64)) s

/-- The bytes a stack copy reads up to an offset: the first address with a data fault, and the state after (R335). -/
def State.readStack (s : State) (o : Op) (c : StackCopy) (upto : Nat) : Option (Nat × DataFault) × State :=
  if (c.src 0).1 then (none, s) else s.readSpans o c.pages [((c.src c.next).2, upto - c.next)]

/-- A stack copy that finds a data fault: the bytes before its line move, a record is posted, and the operation ends. -/
def State.stopStack (s : State) (o : Op) (c : StackCopy) (f : Nat × DataFault) : State :=
  ((s.moveStack o c (c.next + (f.1 - (c.src c.next).2) / 64 * 64)).postOpFault o (copySource o.core) (dataCode f.2)
    fun g => { g with addr := f.1 }).retire o

/-- STACK_COPY_COMPLETE: the rest of the bytes move, or, at a line with a data fault, those before it, and a record is posted. -/
def execStackCopyComplete (op : Nat) (s : State) : Out :=
  onOp s op fun o =>
    match o.kind with
    | .stackCopy c =>
      if !s.mayRun o then s
      else
        let r := s.readStack o c c.bytes
        match r.1 with
        | none => (r.2.moveStack o c c.bytes).retire o
        | some f => r.2.stopStack o c f
    | _ => s

end Sys2Proof.Machine
end

