-- ==== Sys2Proof/Machine/Arrays.lean ====
section
/-! DEFINITION. Pavane's batches, the steps of reprogramming a region, the journals, and power-fail replay (R278 to R280, R285,
R287 to R295). -/

namespace Sys2Proof.Machine

/-! ### Placements and images (R25, R278 to R280) -/

/-- K and N of a golden image (R280), and its length. -/
def imgK (b : List Byte) : Nat := blkNat b 0 4
def imgN (b : List Byte) : Nat := blkNat b 4 4
def imgLen (b : List Byte) : Nat := 64 + imgK b * imgN b + 4 * imgN b

/-- The columns a commit leaves: CS from the image, G 1, O 0, no flag (R280, R289). -/
def imgCols (b : List Byte) : List Column :=
  (List.range (imgN b)).map fun j =>
    { cs := blkNat b (64 + imgK b * imgN b + 4 * j) 4, g := 0x3F800000, o := 0, cflags := 0 }

/-- Records a journal ring of 1 GiB holds (R291, R293). -/
def journalCap : Nat := 2 ^ 24

/-- A record appended to an AD's journal: it takes the AD's next SEQ. -/
def State.journal (s : State) (a ty region gen tile result : Nat) (digest : List Byte) : State :=
  let x := s.ad a
  let r : JRecord :=
    { ty := ty, region := region, gen := gen, seq := x.seq, tile := tile, result := result, digest := digest,
      torn := false }
  let j := x.journal ++ [r]
  s.setAd a { x with journal := j.drop (j.length - journalCap), seq := (x.seq + 1) % 2 ^ 64 }

/-- The 64 bytes of a record (R293) whose CRC holds. -/
def JRecord.bytes (r : JRecord) : List Byte :=
  let b := leBytes 1 r.ty ++ leBytes 1 0 ++ leBytes 2 r.region ++ leBytes 2 r.gen ++ leBytes 2 0 ++ leBytes 8 r.seq
    ++ leBytes 4 r.tile ++ leBytes 4 r.result ++ r.digest ++ leBytes 4 0
  b ++ leBytes 4 (crc32c b).toNat

/-! ### Flags (R279, R295) -/

/-- A region's flag set: as it is first set, an event goes to world 0, from the lowest AD that holds the region. -/
def State.setFlag (r : Nat) (s : State) (bit : Nat) : State :=
  let x := s.region r
  if bitOf x.flags bit then s
  else
    let f := x.flags + 2 ^ bit
    let p := if x.placement = [] then x.newPlacement else x.placement
    (s.setRegion r { x with flags := f }).post evFlag 0 (adSource ((placementAds p).headD 0))
      (leBytes 2 r ++ leBytes 1 f ++ leBytes 17 0)

/-- Flags set in order, with their effect on HEALTH. -/
def State.setFlags (s : State) (r : Nat) (bits : List Nat) : State := (bits.foldl (State.setFlag r) s).settleHealth

/-! ### Probes and batches (R287 to R290) -/

/-- The built-in probe `p` of a batch, elements 0 to K − 1 (R287). -/
def builtinProbe (gen b p k : Nat) : List Int :=
  let bits := lfsrBits (8 * k) (lfsrStart (BitVec.ofNat 32 (gen * 0x9E3779B1 + b * 64 + p)) 0)
  (pieces 8 k bits).map fun c => signExt 8 ((c.zip (List.range 8)).foldl (fun n e => if e.1 then n + 2 ^ e.2 else n) 0)

/-- The owner's probe `p`: K codes of the set staged on the region's lowest AD that has one (R287, R291). DESIGN CHOICE: codes
that the set lacks, or all where none is staged, are 0 (log 123). -/
def State.ownerProbe (s : State) (region p k : Nat) : List Int :=
  match (placementAds (s.region region).placement).findSome? fun a => KMap.find (s.ad a).probes region with
  | some x => (Sparse.getN 0 x.1 (p * k) k).map fun (c : Byte) => signExt 8 c.toNat
  | none => List.replicate k 0

/-- PAVANE_BATCH_START: the interval has passed, or a mismatch asked for a probe (R285, R287). -/
def execPavaneBatchStart (region : Nat) (s : State) : Out :=
  let r := s.region region
  if r.state ≠ .valid ∨ !r.auto ∨ r.batch.isSome then .next s
  else
    let probe := fun p => if r.pav 17 16 = 0 then builtinProbe r.gen r.batches p r.k else s.ownerProbe region p r.k
    let b : Batch := { cols := r.cols, ctl := r.pavane, probes := (List.range (r.pav 23 18)).map probe }
    .next (s.setRegion region { r with batch := some b, probeDue := false })

/-- A value times a power of two. -/
def xpow (k : Int) (a : XF) : XF := (a.1.scale2 k, a.2)
/-- An FP32 value, an integer, and a quotient as exact values. -/
def xf32 (b : Nat) : XF := (fp32.val false b, 0)
def xint (i : Int) : XF := (XR.ofInt i, 0)
def r64 (a : XF) : XF := xround fp64 a

/-- The new offset of a column (R288), before the limits. -/
def pavaneOffset (ec alpha : Nat) (c : Column) (z : XF) : XF :=
  let o := xf32 c.o
  let d := xsub (xmul (xpow ec (z.1.neg, z.2)) (xf32 c.g)) o
  r64 (xadd o (xpow (-(alpha : Int)) d))

/-- The new gain of a column (R288), before the limits. DESIGN CHOICE: a NaN sum m, which a NaN gain or offset makes, keeps the gain
(log 124). -/
def pavaneGain (ec alpha : Nat) (c : Column) (ref : Int) (as : List Int) : XF :=
  let g := xf32 c.g
  let o := xf32 c.o
  let m := as.foldl (fun m a => r64 (xadd m (r64 (xadd (r64 (xmul (xpow ec (xint a)) g)) o)))) xzero
  if ref ≠ 0 ∧ !m.1.isNaN ∧ !m.1.isZero ∧ (decide (0 < ref) == XR.lt (XR.ofInt 0) m.1) then
    let q := r64 (xdiv (xmul g (xint ref)) m)
    r64 (xadd g (xpow (-(alpha : Int)) (xsub q g)))
  else g

/-- GLO and GHI (R289). -/
def gainLo (gr : Nat) : XR := XR.ofFrac (16 - (gr : Int)) 16
def gainHi (gr : Nat) : XR := XR.ofFrac (16 + (gr : Int)) 16

/-- A column with its new gain and offset, rounded to FP32 and held to the limits (R288, R289). DESIGN CHOICE: a NaN is not
outside them (log 125). -/
def limitColumn (gr omax ec : Nat) (c : Column) (g o : XF) : Column :=
  let g1 := fp32.val false (xbits fp32 g)
  let o1 := fp32.val false (xbits fp32 o)
  let top := XR.ofInt ((omax * 2 ^ ec : Nat) : Int)
  let gBad := XR.lt g1 (gainLo gr) || XR.lt (gainHi gr) g1
  let oBad := XR.lt top o1 || XR.lt o1 top.neg
  let g2 := if XR.lt g1 (gainLo gr) then gainLo gr else if XR.lt (gainHi gr) g1 then gainHi gr else g1
  let o2 := if XR.lt top o1 then top else if XR.lt o1 top.neg then top.neg else o1
  { c with g := (g2.rne fp32).1, o := (o2.rne fp32).1, cflags := c.cflags ||| (boolBit gBad + 2 * boolBit oBad) }

/-- Code sums of a batch are free, a probe's within R284's bound where one is stated and no code of it is clamped. -/
def freeSum (fresh : Nat) (r : Region) (c : Column) (D : Int) : Int :=
  let tr := tileRows r.k
  let lo := -2048 * (tr : Int)
  let hi := 2047 * (tr : Int)
  let any := freeInt fresh lo hi
  if r.iclass ≤ 4 ∧ c.cflags = 0 ∧ Config.freeNat (fresh + 1) % 2 = 0 then
    match codeRange (fp32.val false c.g) (fp32.val false c.o) tr tr (2 ^ r.ec) (5 * tr) D with
    | some b => freeInt fresh (max lo b.1) (min hi b.2)
    | none => any
  else any

/-- Σ c[k]·G[k][j] of a probe (R288). -/
def probeRef (r : Region) (probe : List Int) (j : Nat) : Int :=
  ((List.range r.k).map fun k => probe.getD k 0 * goldenCode r.golden r.n k j).foldl (· + ·) 0

/-- The sum over the probes of one reference column of a tile column. -/
def refSum (fresh : Nat) (r : Region) (np tc col : Nat) : Int :=
  ((List.range np).map fun p =>
    freeInt (fresh + (tc * 4 + col) * np + p) (-2048 * (tileRows r.k : Int)) (2047 * (tileRows r.k : Int))).foldl (· + ·) 0

/-- The columns a batch leaves. -/
def batchColumns (fresh : Nat) (r : Region) (b : Batch) : List Column :=
  let np := b.probes.length
  let base := fresh + 4 * np * tileCols r.n
  (List.range r.n).map fun j =>
    let c := b.cols.getD j { cs := 0, g := 0, o := 0, cflags := 0 }
    let refs := b.probes.map fun p => probeRef r p j
    let as := (refs.zip (List.range np)).map fun p => freeSum (base + 2 * (j * np + p.2)) r c p.1
    let zs := refSum fresh r np (j / 512) 0 + refSum fresh r np (j / 512) 1
    let alpha := pavField b.ctl 27 24
    limitColumn (pavField b.ctl 31 28) (pavField b.ctl 39 32) r.ec c
      (pavaneGain r.ec alpha c (refs.foldl (· + ·) 0) as) (pavaneOffset r.ec alpha c (XR.ofFrac zs (2 * np), 0))

/-- An h outside the limits at some tile column (R288, R289). -/
def refFlag (fresh : Nat) (r : Region) (b : Batch) : Bool :=
  let np := b.probes.length
  let den := (b.probes.map fun p => p.foldl (· + ·) 0).foldl (· + ·) 0
  (den != 0) && (List.range (tileCols r.n)).any fun tc =>
    let d := refSum fresh r np tc 2 - refSum fresh r np tc 3
    let h := (xdiv (xpow r.ec (xint d)) (xint (128 * den))).1
    let gr := pavField b.ctl 31 28
    XR.lt h (gainLo gr) || XR.lt (gainHi gr) h

/-- PAVANE_BATCH_COMPLETE: every column's gain and offset, the limits, the flags (R288 to R290); a batch whose region has
left VALID changes nothing. -/
def execPavaneBatchComplete (region : Nat) (s : State) : Out :=
  let r := s.region region
  match r.batch with
  | none => .next s
  | some b =>
    if r.state ≠ .valid then .next (s.setRegion region { r with batch := none })
    else
      let cols := batchColumns s.fresh r b
      let r1 : Region := { r with cols := cols, batch := none, batches := (r.batches + 1) % 2 ^ 32, winOver := false }
      let np := b.probes.length
      let s1 := { s with fresh := s.fresh + 4 * np * tileCols r.n + 2 * np * r.n }.setRegion region r1
      let bits := (if cols.any fun c => c.cflags != 0 then [0] else []) ++ (if r.winOver then [1] else [])
        ++ (if refFlag s.fresh r b then [2] else [])
      .next (s1.setFlags region bits)

/-! ### Reprogramming (R292) -/

/-- A valid handle of some world names the region (R282). -/
def State.handled (s : State) (region : Nat) : Bool :=
  s.worlds.any fun p => p.2.handles.any fun h => decide (h.1 < p.2.hcount) && handleV h.2 && handleRegion h.2 == region

/-- An outstanding layer operation holds the region (R261). -/
def State.regionHeld (s : State) (region : Nat) : Bool :=
  s.ops.any fun o => match o.kind with
    | .tensor x => (match x.layer with
      | some h => h.region == region
      | none => false)
    | _ => false

/-- The new generation of a pending change. -/
def Region.nextGen (r : Region) : Nat := (r.gen + 1) % 65536

/-- The next AD of the new placement that has not written the record of the step under way. -/
def Region.nextAd (r : Region) : Option Nat := (placementAds r.newPlacement).find? fun a => !r.stage.contains a

/-- The staged image of a number leaves an AD's pool for its golden extents. -/
def State.takeImage (s : State) (a id : Nat) : State :=
  let x := s.ad a
  s.setAd a { x with images := KMap.erase x.images id }

/-- A freed region: its tiles and golden extents are given up; the rest of its descriptor stays, its flags among it, which only a
commit clears (R289, R291). -/
def Region.freed (r : Region) : Region :=
  { r with state := .empty, next := .none, placement := [], golden := [], newGolden := [], newPlacement := [], stage := [],
           batch := none }

/-- REVOKE_COMPLETE: a freed region becomes EMPTY; for a change, the next AD writes INTENT, and once every one has,
PROGRAMMING begins. -/
def execRevokeComplete (region : Nat) (s : State) : Out :=
  let r := s.region region
  if r.state ≠ .revoking ∨ s.handled region ∨ s.regionHeld region then .next s
  else
    match r.next with
    | .none => .next s
    | .free => .next (s.setRegion region r.freed)
    | .program id _ =>
      match r.nextAd with
      | none => .next s
      | some a =>
        let s1 := (s.takeImage a id).journal a 1 region r.nextGen (tilesOn r.newPlacement a) 0 (sha3 r.newGolden)
        let r1 : Region := { r with stage := r.stage ++ [a] }
        .next (s1.setRegion region (if r1.nextAd.isSome then r1 else
          { r1 with state := .programming, stage := [], progress := [], verified := [] }))

/-- Tiles an AD has programmed. -/
def Region.tilesDone (r : Region) (a : Nat) : Nat := (KMap.find r.progress a).getD 0

/-- TILE_PROGRAMMED: PROGRESS for the AD's next tile; after every AD's last, VERIFYING. -/
def execTileProgrammed (region ad : Nat) (s : State) : Out :=
  let r := s.region region
  if r.state ≠ .programming ∨ tilesOn r.newPlacement ad ≤ r.tilesDone ad then .next s
  else
    let s1 := s.journal ad 2 region r.nextGen (r.tilesDone ad) 0 zeroHash
    let r1 : Region := { r with progress := KMap.put r.progress ad (r.tilesDone ad + 1) }
    let all := (placementAds r.newPlacement).all fun a => decide (tilesOn r.newPlacement a ≤ r1.tilesDone a)
    .next (s1.setRegion region (if all then { r1 with state := .verifying, stage := [], verified := [] } else r1))

/-- A region whose arrays hold the new image at its new placement (R279, R280). -/
def Region.withImage (r : Region) : Region :=
  let b := r.newGolden
  { Region.reset with
    gen := r.gen, digest := r.digest, flags := r.flags, miscnt := r.miscnt, batches := r.batches,
    rotk := blkNat b 10 1, rotn := blkNat b 11 1, seedk := blkNat b 12 4, seedn := blkNat b 16 4, k := imgK b,
    n := imgN b, ec := blkNat b 8 1, ej := blkNat b 9 1,
    pavane := (match r.next with
      | .program _ ctl => ctl
      | _ => r.pavane),
    placement := r.newPlacement, cols := imgCols b, golden := b }

/-- The region as a commit leaves it: the new generation and digest, no flag (R289, R292). -/
def Region.committed (r : Region) : Region :=
  { r.withImage with state := .valid, gen := r.nextGen, digest := sha3 r.newGolden, flags := 0, miscnt := 0, batches := 0 }

/-- The region committed in the hub's table: the layout generation moves (R319). -/
def State.commitRegion (s : State) (region : Nat) : State :=
  ({ s with layoutGen := s.layoutGen + 1 }.setRegion region (s.region region).committed).settleHealth

/-- A region whose verify pass failed: with no commit its flags, gains and offsets stay, and the old and new golden extents both
stand (R289, R291, R292). -/
def State.failRegion (s : State) (region : Nat) : State :=
  (s.setRegion region { s.region region with state := .failed, next := .none, stage := [], verified := [] }).setFlags region [3]

/-- The error of a code in ADC steps, rounded up: how far it lies from its ideal, an exact sum in units of 2^e (R292). -/
def stepError (code sum : Int) (e : Nat) : Nat := ceilDiv (code * (2 ^ e : Nat) - sum).natAbs (2 ^ e)

/-- The verify pass of some tiles: each is evaluated with the 16 built-in probes of the new generation and batch 0; the worst error
of any data, reference or checksum code, each of which is free (R285, R292). -/
def verifyWorst (fresh : Nat) (img : List Byte) (gen : Nat) (tiles : List Nat) : Nat :=
  let probes := (List.range 16).map fun p => builtinProbe gen 0 p (imgK img)
  let ec := blkNat img 8 1
  let tc := tileCols (imgN img)
  ((tiles.zip (List.range tiles.length)).flatMap fun t => (probes.zip (List.range 16)).flatMap fun p =>
    (List.range 520).map fun col =>
      let e := stepExp ec col
      stepError (freeInt (fresh + (t.2 * 16 + p.2) * 520 + col) (-2048) 2047)
        (senseSum img (imgK img) (imgN img) p.1 (t.1 / tc) (t.1 % tc) col) e).foldl max 0

/-- The ordinals in a placement of the tiles on an AD. -/
def tilesAt (p : List Nat) (ad : Nat) : List Nat := (List.range p.length).filter fun i => entryAd (p.getD i 0) == ad

/-- RESULT of a VERIFY record (R292, R293). -/
def verifyResult (worst : Nat) : Nat := (if worst ≤ 3 then 2 ^ 31 else 0) + min worst 4095

/-- REGION_VERIFY_COMPLETE: the next AD's VERIFY; with all of them, FAILED, or the next AD's COMMIT and, after the last,
VALID with the new generation. -/
def execRegionVerifyComplete (region : Nat) (s : State) : Out :=
  let r := s.region region
  if r.state ≠ .verifying then .next s
  else
    let ads := placementAds r.newPlacement
    match ads.find? fun a => (KMap.find r.verified a).isNone with
    | some a =>
      let tiles := tilesAt r.newPlacement a
      let w := verifyWorst s.fresh r.newGolden r.nextGen tiles
      let s1 := { s with fresh := s.fresh + 8320 * tiles.length }.journal a 3 region r.nextGen 0 (verifyResult w) zeroHash
      .next (s1.setRegion region { r with verified := KMap.put r.verified a (decide (w ≤ 3)) })
    | none =>
      if r.verified.any fun p => !p.2 then .next (s.failRegion region)
      else
        match r.nextAd with
        | none => .next (s.commitRegion region)
        | some a =>
          let s1 := s.journal a 4 region r.nextGen 0 0 (sha3 r.newGolden)
          let r1 : Region := { r with stage := r.stage ++ [a] }
          let s2 := s1.setRegion region r1
          .next (if r1.nextAd.isSome then s2 else s2.commitRegion region)

/-! ### Power-fail replay (R294) -/

/-- The records that count: up to the first whose CRC fails or whose SEQ does not follow its predecessor's. -/
def soundRecords : Option Nat → List JRecord → List JRecord
  | _, [] => []
  | prev, j :: r =>
    let follows := match prev with
      | some n => j.seq == (n + 1) % 2 ^ 64
      | none => true
    if j.torn || !follows then [] else j :: soundRecords (some j.seq) r

/-- A journal as replay takes it: the other records were never written. -/
def Ad.recover (x : Ad) : Ad :=
  let j := soundRecords none x.journal
  { x with journal := j, seq := match j.getLast? with
      | some r => (r.seq + 1) % 2 ^ 64
      | none => x.seq }

/-- The last record of a region's pending change on an AD: one written since the change was accepted, and no ABORT. -/
def Ad.lastOf (x : Ad) (region since : Nat) : Option JRecord :=
  match (x.journal.filter fun j => j.region == region && decide (since ≤ j.seq)).getLast? with
  | some j => if j.ty ≠ 5 then some j else none
  | none => none

/-- A region as it boots in its old state and generation. -/
def Region.old (r : Region) : Region :=
  { r with state := r.prev, next := .none, newGolden := [], newPlacement := [], stage := [], progress := [],
           verified := [], batch := none }

/-- What an AD's last record says has been done: tiles programmed, VERIFY's outcome (R294). -/
def replayProgress (n : Nat) (j : JRecord) : Nat :=
  match j.ty with
  | 1 => 0
  | 2 => j.tile + 1
  | _ => n
def replayVerified (j : JRecord) : Option Bool :=
  match j.ty with
  | 3 => some (bitOf j.result 31)
  | 4 => some true
  | _ => none

/-- A pending change continued from the journals (R294). -/
def State.continueChange (s : State) (region : Nat) (r : Region) (js : KMap JRecord) : State :=
  let prog : KMap Nat := js.map fun p => (p.1, replayProgress (tilesOn r.newPlacement p.1) p.2)
  let ver : KMap Bool := js.filterMap fun p => (replayVerified p.2).map fun b => (p.1, b)
  let done := js.all fun p => decide (tilesOn r.newPlacement p.1 ≤ (KMap.find prog p.1).getD 0)
  let r1 : Region := { r with progress := prog, verified := ver, batch := none,
                              stage := (js.filter fun p => p.2.ty == 4).map (·.1),
                              state := if done then .verifying else .programming }
  if ver.any fun p => !p.2 then (s.setRegion region r1).failRegion region
  else if ver.length = js.length then
    let late := js.filter fun p => p.2.ty != 4
    let s1 := late.foldl (fun x p => x.journal p.1 4 region r.nextGen 0 0 (sha3 r.newGolden)) s
    (s1.setRegion region r1).commitRegion region
  else s.setRegion region r1

/-- JOURNAL_REPLAY for one region: a change that some ADs never began is aborted, one that all began continues. -/
def State.replayRegion (s : State) (p : Nat × Region) : State :=
  let r := p.2
  match r.next with
  | .program _ _ =>
    let ads := placementAds r.newPlacement
    let js : KMap JRecord := ads.filterMap fun a => ((s.ad a).lastOf p.1 ((KMap.find r.since a).getD 0)).map fun j => (a, j)
    if js.length < ads.length then
      let s1 := js.foldl (fun x q => x.journal q.1 5 p.1 r.nextGen 0 0 zeroHash) s
      s1.setRegion p.1 r.old
    else s.continueChange p.1 r js
  | .free => s.setRegion p.1 { r with state := r.prev, next := .none, batch := none }
  | .none => s.setRegion p.1 { r with batch := none }

/-- Every AD replays its journal, and calibration is as it was saved: g, o and the flags (R290, R374 step 5). PAVANE_CTL is at its
reset value (R6). -/
def State.replay (s : State) : State :=
  let s1 := { s with ads := s.ads.map fun (x : Nat × Ad) => (x.1, x.2.recover) }
  let s2 := s1.regions.foldl State.replayRegion s1
  { s2 with regions := s2.regions.map fun (r : Nat × Region) => (r.1, { r.2 with pavane := pavaneReset }) }

end Sys2Proof.Machine
end

