-- ==== Sys2Proof/Machine/Fences.lean ====
section
/-! DEFINITION. Fences, cache control, prefetch and waiting on memory (R91, R192 to R196, R217, R223, R224). -/

namespace Sys2Proof.Machine

/-! ### Fences (R192) -/

/-- The rules of R91 for a fence. -/
def fenceOk (ord : Order) (pro : Bool) : Bool := ord != .rlx && !(pro && !(ord == .acq || ord == .acqrel))

def scopeWide (x : Scope) : Bool :=
  match x with
  | .dev | .sys => true
  | .team | .clu => false

/-- A ticket taken from the hub's sequencer (R224). -/
def State.takeTicket (s : State) : State := { s with ticket := s.ticket + 1 }

/-- The scope a releasing operation acts at: `.sc` acts at device scope at least (R224). -/
def releaseScope (scope : Scope) (ord : Order) : Scope := if ord = .sc ∧ scopeWide scope = false then .dev else scope

/-- A warp after a fence: the atomic writes that follow a release fence release at its scope (R220). -/
def Warp.fence (w : Warp) (scope : Scope) (ord : Order) : Warp :=
  if orderReleases ord then { w with fenced := some (releaseScope scope ord) } else w

/-- The work of a fence once its waits are met: a release at device or system scope drains the cluster's gathered
stores (R217), an acquire wider than team drops the core's L1 lines of the world (R215), `.sc` acts at device scope
at least and takes a ticket (R224), and so does a promoted acquire (R223). DESIGN CHOICE (R218 names no pairs): the fence
covers the accesses before it that its counters wait for; an acquire fence waits for no load still outstanding (log 91). -/
def fenceWork (s : State) (t : Team) (scope : Scope) (ord : Order) (pro : Bool) : State :=
  let sc := ord == .sc
  let s1 := if orderReleases ord && (scopeWide scope || sc) then s.drainWorld (t.core / 8) t.world else s
  let s2 := if orderAcquires ord && (scope != .team || sc || pro) then s1.dropL1 t.core t.world else s1
  if sc then s2.takeTicket else s2

/-- The drain requests a promoted fence sends, one to every cluster (R223). -/
def fenceDrains (t : Team) (j no : Nat) : List DrainMsg :=
  (List.range 16).map fun c =>
    { no := no, world := t.world, cluster := c, line := none, who := some (t.uid, j), op := none, acked := false }

/-- An `.sc` atomic that has taken its ticket is outstanding: a later ticket's operation comes after it (R224). -/
def State.ticketsOut (s : State) : Bool := s.ops.any fun o => o.ticket.isSome

/-- `fence` (R192, R223, R224). -/
def execFence (scope : Scope) (ord : Order) (pro : Bool) (s : State) : Out :=
  onWarp s fun t j w =>
    require (fenceOk ord pro) s w <| releasing w (orderReleases ord) <|
      if ord == .sc && s.ticketsOut then .hold
      else if !pro then .done (fenceWork s t scope ord pro) (w.fence scope ord)
      else
        let mine := s.drains.filter fun m => m.who == some (t.uid, j)
        if mine = [] then .goto { s with drains := s.drains ++ fenceDrains t j s.nextUid, nextUid := s.nextUid + 1 } w
        else if mine.all fun m => m.acked then
          .done (fenceWork { s with drains := s.drains.filter fun m => m.who != some (t.uid, j) } t scope ord pro)
            (w.fence scope ord)
        else .hold

/-! ### Cache control (R193) -/

inductive CctlOp where
  | inv | wb | wbinv
  deriving DecidableEq, Repr, Inhabited

/-- The data of an L2's copy sent to the line's home, or lost on the way (R333). -/
def State.sendBack (s : State) (x : L2Line) : State :=
  if s.packetFails x.line then s.loseLine x.world x.cluster x.line else s.homeTrip x.cluster x.world x.line true

/-- An L2's copy written back and kept clean: M becomes E, O becomes S and the home no longer names an owner; its
gathered bytes go with it (R193, R216). -/
def State.cleanL2 (s : State) (x : L2Line) : State :=
  let s1 := s.mergeLine x.cluster x.line
  let kept := fun (y : State) (st : Moesi) => { y with l2 := y.l2.map fun z => if z = x then { z with state := st } else z }
  match x.state with
  | .m => kept (s1.sendBack x) .e
  | .o =>
    let s2 := s1.sendBack x
    (kept s2 .s).setDir x.line { s2.dirEntry x.line with state := .s }
  | _ => s1

/-- The LLC's copies of a world's line. -/
def LlcLine.is (x : LlcLine) (world line : Nat) : Bool := x.world == world && x.line == line

/-- The LLC's dirty copy of a line written to memory and kept (R193). -/
def State.cleanLlc (s : State) (world line : Nat) : State :=
  { (s.llc.filter (·.is world line)).foldl State.writeBackLlc s with
    llc := s.llc.map fun x => if x.is world line then { x with dirty := false } else x }

/-- One line under one op at the clusters and cores of a scope (R193). Under `.clu` the level below an L2 is the LLC, under
`.dev` it is memory. -/
def cctlLine (s : State) (op : CctlOp) (all : Bool) (core world line : Nat) : State :=
  let inClu := fun c => all || c == core / 8
  let inCore := fun c => all || c == core
  let copies := fun (x : State) => x.l2.filter fun y => inClu y.cluster && y.world == world && y.line == line
  let clean := fun (x : State) =>
    let held := (copies x).any fun y => y.state == .m || y.state == .o
    let y := (copies x).foldl State.cleanL2 x
    let dirty := y.llc.any fun z => z.is world line && z.dirty
    if all then (if held && !dirty then y.writeBackLine world line else y).cleanLlc world line
    else if held then y.useLlc world line .default true else y
  let dropClean := fun (x : State) =>
    let y := (copies x).foldl (fun z y => if y.state = .e ∨ y.state = .s then z.evictL2 y else z)
      { x with l1 := x.l1.filter fun y => !(inCore y.core && y.world == world && y.line == line) }
    if all then { y with llc := y.llc.filter fun z => !(z.is world line && !z.dirty) } else y
  let s0 := if all then s.mergeWhere fun g => g.world == world && lineOf g.addr == line else s
  match op with
  | .inv => dropClean s0
  | .wb => clean s0
  | .wbinv => dropClean (clean s0)

/-- `cctl` (R193): on the line of each active lane. DESIGN CHOICE (R193 names no access size): the checks of R180 are made
with size 1 (log 92). -/
def cctl (op : CctlOp) (a : Nat) (scope : Scope) (s : State) : Out :=
  onWarp s fun t _ w =>
    require ((scope == .clu || scope == .dev) && t.okV2 a) s w <|
      reading s w [a, a + 1] w.active <|
        withGlobal s t w .read 1 (globalInt w a 0) fun s1 ls =>
          .done (ls.foldl (fun x p => cctlLine x op (scope == .dev) t.core t.world (lineOf p.2.2)) s1) w

/-- `cctl.inv` (R193). -/
def execCctlInv (a : Nat) (scope : Scope) (s : State) : Out := cctl .inv a scope s
/-- `cctl.wb` (R193). -/
def execCctlWb (a : Nat) (scope : Scope) (s : State) : Out := cctl .wb a scope s
/-- `cctl.wbinv` (R193). -/
def execCctlWbinv (a : Nat) (scope : Scope) (s : State) : Out := cctl .wbinv a scope s

/-- A line, with an address in it, prefetched into the cluster's L2 or into the LLC (R194); one that delivers a fault is left. -/
def State.prefetchLine (s : State) (core world : Nat) (scope : Scope) (line va : Nat) : State :=
  let noted := s.noteMem core world (logAgent 0 core) logRead va (128 * line) 1
  if scope = .clu then
    if (s.l2Find (core / 8) world line).isSome || s.requested (core / 8) line then s
    else (noted.fetchLine (core / 8) world line false .default).2
  else
    let r := noted.readLine world line
    if r.1.isSome then r.2 else r.2.useLlc world line (s.hintOf world .default) false

/-- `prefetch` (R194): a lane whose address fails a check is skipped. -/
def execPrefetch (a : Nat) (scope : Scope) (s : State) : Out :=
  onWarp s fun t _ w =>
    require ((scope == .clu || scope == .dev) && t.okV2 a) s w <|
      reading s w [a, a + 1] w.active <|
        let vas := (lanesOf w.active).map (w.globalAddr a 0)
        let lines := vas.filterMap fun va =>
          match checkGlobal s t .read 1 va with
          | .ok pa => some (lineOf pa, va)
          | .error _ => none
        .done (lines.foldl (fun x p => x.prefetchLine t.core t.world scope p.1 p.2) (s.walked t.core t.world vas)) w

/-! ### Waiting on memory (R195, R196) -/

/-- Monitors in use on a core. -/
def State.monitorsUsed (s : State) (core : Nat) : Nat :=
  ((s.teams.filter fun t => t.core == core && t.place == .resident).map fun t =>
    (t.warps.map fun w => w.monitors.length).foldl (· + ·) 0).foldl (· + ·) 0

/-- The distinct lines of addresses. -/
def distinctLines (ls : List Nat) : List Nat := ls.foldl (fun acc n => if n ∈ acc then acc else acc ++ [n]) []

/-- `waitmon` (R195): wakes at once when monitors run short or when a line that the warp performed a device- or
system-scope atomic on has been written by another agent since. -/
def execWaitmon (a : Nat) (s : State) : Out :=
  onWarp s fun t _ w =>
    require (t.okV2 a) s w <|
      reading s w [a, a + 1] w.active <|
        withGlobal s t w .read 1 (globalInt w a 0) fun s1 ls =>
          let lines := distinctLines (ls.map fun p => lineOf p.2.2)
          let short := decide (64 < s.monitorsUsed t.core + lines.length)
          let missed := lines.any fun n => KMap.find w.watched n == some true
          if short || missed || t.preempting then .done s1 w
          else .goto s1 { w.block .waitmon with monitors := lines }

/-- Lines, each with an address in it, read for a warp that waits on their words, which it compares whatever they deliver: DESIGN
CHOICE (R196 names no fault of the data; log 93). -/
def State.readWaited (s : State) (core world : Nat) (ls : List (Nat × Nat)) : State :=
  ls.foldl (fun x p => ((x.noteMem core world (logAgent 0 core) logRead p.2 (128 * p.1) 1).loadLine (core / 8) world p.1).2) s

/-- The threshold of `waitge` reached in every active lane, and the state after its reads. -/
def reached (s : State) (t : Team) (w : Warp) (d : Nat) (sp : Bool) (ls : List (Nat × Int × Nat)) : Bool × State :=
  let s1 := if sp then s else
    s.readWaited t.core t.world (ls.foldl (fun acc p =>
      if acc.any fun q => q.1 == lineOf p.2.2 then acc else acc ++ [(lineOf p.2.2, p.2.1.toNat)]) [])
  (ls.all fun p =>
    let v := if sp then leVal (t.scratchRead p.2.2 8) else leVal (s1.clusterRead (t.core / 8) t.world p.2.2 8)
    decide ((w.vget64 d p.1).toNat ≤ v), s1)

/-- `waitge` on checked lanes: the read that finds the condition met is an acquire, at device scope for a global word, and a
global one waits for its team's marks (R196, R230). -/
def waitOn (s : State) (t : Team) (w : Warp) (d a : Nat) (sp : Bool) (ls : List (Nat × Int × Nat)) : Issue :=
  if !sp && s.markPending t.uid then .goto s (w.block (.waitge d a sp))
  else
    let r := reached s t w d sp ls
    if r.1 then .done (if sp then r.2 else r.2.dropL1 t.core t.world) w else .goto r.2 (w.block (.waitge d a sp))

/-- `waitge` (R196). -/
def execWaitge (d a : Nat) (sp : Bool) (s : State) : Out :=
  onWarp s fun t _ w =>
    require (t.okV2 d && (if sp then t.okV a else t.okV2 a)) s w <|
      reading s w ([d, d + 1] ++ (if sp then [a] else [a, a + 1])) w.active <|
        if sp then withLanes s w (w.scratchAddr a 0) (checkScratch t 8) fun ls => waitOn s t w d a true ls
        else withGlobal s t w .read 8 (globalInt w a 0) fun s1 ls => waitOn s1 t w d a false ls

end Sys2Proof.Machine
end

