-- ==== Sys2Proof/Machine/CopyEvents.lean ====
section
/-! DEFINITION. The progress of `tmld` and of copies: beats, allotments, multicast targets, parking and completion (R200,
R205 to R211, R225, R353). -/

namespace Sys2Proof.Machine

/-! ### tmld (R200) -/

/-- TMLD_COMPLETE: the slot holds the map read, or carries a data fault with the PC of the `tmld`. -/
def execTmldComplete (op team : Nat) (s : State) : Out :=
  onOp s op fun o =>
    match o.kind with
    | .tmld slot va pa =>
      if o.team != team || !s.mayRun o then s
      else
        let r := State.loadLine (o.core / 8) o.world (s.noteMem o.core o.world (logAgent 0 o.core) logRead va pa 128) (lineOf pa)
        let bs := r.2.clusterRead (o.core / 8) o.world pa 128
        match r.1 with
        | none =>
          (r.2.updTeam o.team fun t =>
            { t.clearOld slot (fun _ => true) with slots := Sparse.setN 0 t.slots (slot * 128) bs, slotFaults := KMap.erase t.slotFaults slot }).retire o
        | some f =>
          (r.2.updTeam o.team fun t =>
            { t with slotFaults := KMap.put t.slotFaults slot { hdr := o.hdr, idx := o.idx, addr := va, fault := f } }).retire o
    | _ => s

/-! ### Elements of a copy (R206, R209) -/

/-- Elements moved together: one, or the 16,384 of an NQ4 record. -/
def Copy.unit (c : Copy) : Nat := if c.src.fmt = .nq4 then 16384 else 1
/-- Bytes of a unit. -/
def Copy.unitBytes (c : Copy) : Nat := if c.src.fmt = .nq4 then 8512 else c.src.esize
/-- Elements of the box. -/
def Copy.total (c : Copy) : Nat := volume c.box c.src.rank

/-- The address of the unit at coordinates of a map. -/
def unitAddr (m : TMap) (cs : List Nat) : Nat := if m.fmt = .nq4 then (m.base + 8512 * (cs.getD 0 0 / 16384)) % 2 ^ 64 else m.addr cs

/-- What moving a unit meets: nothing to do, the bytes, a fault that parks the copy, or a data fault that stops it. -/
inductive UnitRead where
  | skip
  | bytes (bs : List Byte)
  | parks (code : FaultCode) (addr : Nat)
  | stops (code : FaultCode) (addr : Nat)

/-- The zero of a copy's format (R206). DEDUCED: an NQ4 record of zeros has S = 0, every q = 0 and every code 8, as R121 and
R123 store zeros (log 95). -/
def Copy.zero (c : Copy) : List Byte :=
  if c.src.fmt = .nq4 then List.replicate 8192 0x88 ++ List.replicate 320 0 else List.replicate c.unitBytes 0

/-- Bytes of a unit that the device reads: it never reads the padding of an NQ4 record, and writes zero there (R121). -/
def Copy.readBytes (c : Copy) : Nat := if c.src.fmt = .nq4 then 8452 else c.src.esize
def Copy.padded (c : Copy) (bs : List Byte) : List Byte := bs ++ List.replicate (c.unitBytes - c.readBytes) 0

/-- The coordinates of element `e` in the source and in the destination (R206). -/
def Copy.srcAt (c : Copy) (e : Nat) : List Nat := addCoords c.sorg (coordsOf c.box c.src.rank e)
def Copy.dstAt (c : Copy) (e : Nat) : List Nat := addCoords c.dorg (coordsOf c.box c.src.rank e)

/-- The source unit of element `e`, with the checks on both ends (R206, R209, R335), and the state after the read, which the world's
log notes (R341). -/
def State.readUnit (s : State) (o : Op) (c : Copy) (e : Nat) : UnitRead × State :=
  let sc := c.srcAt e
  let dc := c.dstAt e
  if !c.dst.inside dc then (.skip, s)
  else
    let bad := if c.dst.scratch then none
      else match s.checkRange o.core o.world (unitAddr c.dst dc) c.unitBytes .write with
        | .error e => some e
        | .ok _ => none
    let s1 := if c.dst.scratch then s else s.walked o.core o.world (pageStarts (unitAddr c.dst dc) c.unitBytes)
    let a := unitAddr c.src sc
    if !c.src.inside sc then
      match bad with
      | some e => (.parks e.1 e.2, s1)
      | none => (.bytes c.zero, s1)
    else if c.src.scratch then
      match bad, s.findTeam o.team with
      | some e, _ => (.parks e.1 e.2, s1)
      | none, some t => (.bytes (c.padded (t.scratchRead a c.readBytes)), s1)
      | none, none => (.skip, s)
    else
      match s.checkRange o.core o.world a c.readBytes .read, bad with
      | .error e, _ => (.parks e.1 e.2, s1.walked o.core o.world (pageStarts a c.readBytes))
      | .ok _, some e => (.parks e.1 e.2, s1.walked o.core o.world (pageStarts a c.readBytes))
      | .ok _, none =>
        match s1.readVirt o.core o.world (some (logAgent 1 o.core)) a c.readBytes with
        | (.error e, s2) => (.stops e.1 e.2, s2)
        | (.ok bs, s2) => (.bytes (c.padded bs), s2)

/-- A unit of a `cpy` written at its destination, with the accesses noted in the world's log (R341): the state and the bytes
performed, or the fault of the destination. A unit whose packet fails is not written, and a record is posted (R333). -/
def State.writeUnit (s : State) (o : Op) (c : Copy) (e : Nat) (bs : List Byte) : Except (FaultCode × Nat) (State × Nat) :=
  let a := unitAddr c.dst (c.dstAt e)
  if c.dst.scratch then .ok (s.updTeam o.team fun t => t.scratchWrite a bs, bs.length)
  else
    match s.checkRange o.core o.world a bs.length .write with
    | .error e => .error e
    | .ok _ =>
      let ls := s.rangeLines o.core o.world .write a bs.length
      match (s.walked o.core o.world (pageStarts a bs.length)).losePacket (ls.map (·.1)) with
      | some s1 => .ok (s1.postOpFault o hubSource .integrity fun f => { f with addr := a }, 0)
      | none =>
        let s1 := (s.writeVirt o.core o.world a bs none).2
        .ok (ls.foldl (fun x p => x.noteMem o.core o.world (logAgent 1 o.core) logWrite p.2 (128 * p.1) 1) s1, bs.length)

/-! ### Parking (R353, R355) -/

/-- RIDs that name operations of a world: each until its operation completes or is abandoned (R353). -/
def State.ridsUsed (s : State) (world : Nat) : List Nat := s.ops.filterMap fun o => if o.world = world then o.rid else none

/-- A free RID of a world from 1 to 65,535: which one is unspecified. -/
def State.freeRid (s : State) (world : Nat) : Option Nat :=
  let used := s.ridsUsed world
  let k := Config.freeNat s.fresh
  ((List.range (min 65535 (used.length + 1))).map fun i => (k + i) % 65535 + 1).find? fun r => !used.contains r

/-- The RID of a parking operation: its own if it has one, else a free one. -/
def State.giveRid (s : State) (o : Op) : Option (Nat × State) :=
  match o.rid with
  | some r => some (r, s)
  | none => (s.freeRid o.world).map fun r => (r, { s with fresh := s.fresh + 1 })

/-- TPROG of a parked copy (R355). -/
def Copy.tprog (c : Copy) (kn : Nat) : Nat := 2 ^ 63 + (if c.multi then 2 else 1) * 2 ^ 60 + kn * 2 ^ 57 + c.next % 2 ^ 48

/-- The record of a parked copy posted with its RID; while none is free the record waits (R353). -/
def State.postPark (s : State) (o : Op) (c : Copy) (code : FaultCode) (addr : Nat) : State :=
  match s.giveRid o with
  | none => s.putOp { o with parked := some 0, trouble := some (code, addr) }
  | some r =>
    (r.2.putOp { o with parked := some r.1, rid := some r.1, trouble := none }).postOpFault o (copySource o.core) code fun f =>
      { f with parked := true, status := false, addr := addr, prog := c.tprog (o.kn.getD 0), rid := r.1 }

/-- A copy parks at its next element: TPROG, a RID, and a record. -/
def State.parkCopy (s : State) (o : Op) (c : Copy) (code : FaultCode) (addr : Nat) : State :=
  let s0 := s.updWarp o.team o.warp fun w => { w with tprog := BitVec.ofNat 64 (c.tprog (o.kn.getD 0)) }
  let s1 := { s0 with ops := s0.ops.map fun (x : Op) =>
    if x.team = o.team ∧ x.warp = o.warp then { x with inTprog := false } else x }
  s1.postPark { o with kind := .copy c, inTprog := true, readDone := false } c code addr

/-- A target that takes nothing more: its SMASK bit, and STATUS at least `status` (R208). -/
def Copy.dropTarget (c : Copy) (i status : Nat) : Copy :=
  { c with targets := c.targets.modify i (fun g => { g with state := .dropped }),
           smask := c.smask ||| 2 ^ i, status := max c.status status }

/-- Targets that have not finished and have not been dropped, by number. -/
def Copy.openTargets (c : Copy) : List Nat :=
  ((c.targets.zip (List.range c.targets.length)).filter fun p => p.1.state == .waiting || p.1.state == .registered).map (·.2)

/-- A copy stopped by a data fault: STATUS becomes FAULT, and nothing more moves (R242, R335). -/
def State.stopCopy (s : State) (o : Op) (c : Copy) (code : FaultCode) (addr : Nat) : State :=
  let c1 : Copy := { c.openTargets.foldl (fun y i => y.dropTarget i 2) c with
    next := c.total, flight := [], status := max c.status 2 }
  (s.putOp { o with kind := .copy c1 }).postOpFault o (copySource o.core) code fun f => { f with addr := addr }

/-! ### Moving elements -/

/-- Units of a beat moved from the copy's next element on. What a `cpym` reads stands in flight for its targets, and what a `cpy`
reads before its write phase may start for its destination (R225). A copy that meets a fault parks or stops once nothing is in
flight: every earlier element has then been performed (R209).

DESIGN CHOICE (R206 leaves each open): elements become visible in ascending order, and where source and destination overlap
within one copy an element is read as it stands at its turn (log 96). -/
def State.moveUnits (o : Op) (hold : Bool) : Nat → State → Copy → State
  | 0, s, c => s.putOp { o with kind := .copy c, readDone := decide (c.total ≤ c.next) }
  | n + 1, s, c =>
    if c.total ≤ c.next then s.putOp { o with kind := .copy c, readDone := true }
    else
      let c1 := { c with next := c.next + c.unit }
      match s.readUnit o c c.next with
      | (.parks code a, s1) => if c.flight = [] then s1.parkCopy o c code a else s.putOp { o with kind := .copy c }
      | (.stops code a, s1) => if c.flight = [] then s1.stopCopy o c code a else s.putOp { o with kind := .copy c }
      | (.skip, s1) => State.moveUnits o hold n s1 c1
      | (.bytes bs, s1) =>
        if hold then State.moveUnits o hold n s1 { c1 with flight := KMap.put c.flight c.next bs }
        else
          match s1.writeUnit o c c.next bs with
          | .ok r => State.moveUnits o hold n r.1 { c1 with bytes := c.bytes + r.2 }
          | .error f => s1.parkCopy o c f.1 f.2

/-- What a `cpy` has in flight written at its destination; a fault there parks the copy at that element. -/
def State.landFlight (o : Op) (s : State) (c : Copy) : List (Nat × List Byte) → State
  | [] => s.putOp { o with kind := .copy { c with flight := [] } }
  | p :: r =>
    match s.writeUnit o c p.1 p.2 with
    | .ok x => State.landFlight o x.1 { c with bytes := c.bytes + x.2 } r
    | .error f => s.parkCopy o { c with next := p.1, flight := [] } f.1 f.2

/-- One granted beat: 64 bytes of elements; an NQ4 record moves whole with its last of 133 beats. -/
def State.moveBeat (s : State) (o : Op) (c : Copy) : State :=
  let hold := c.multi || !s.mayWrite o
  if c.src.fmt = .nq4 then
    if c.part + 1 < 133 then s.putOp { o with kind := .copy { c with part := c.part + 1 } }
    else State.moveUnits o hold 1 s { c with part := 0 }
  else State.moveUnits o hold (64 / c.src.esize) s c

/-- The next unit's bytes would move with the next beat, and it meets a fault: the beat does not move (R209). -/
def State.beatFaults (s : State) (o : Op) (c : Copy) : Bool :=
  decide (c.src.fmt ≠ .nq4 ∨ c.part + 1 = 133) && (match (s.readUnit o c c.next).1 with
    | .parks _ _ | .stops _ _ => true
    | _ => false)

/-- A beat that meets a fault: the copy parks or stops once nothing is in flight; the beats of a record granted so far stay
granted (R209, R210). -/
def State.faultBeat (s : State) (o : Op) (c : Copy) : State :=
  if c.flight ≠ [] then s
  else
    match s.readUnit o c c.next with
    | (.parks code a, s1) => s1.parkCopy o c code a
    | (.stops code a, s1) => s1.stopCopy o c code a
    | (_, s1) => s1

/-! ### The copy path of a cluster (R210, R211) -/

def World.cpyExpert (x : World) : Bool := bitOf x.cpybw.toNat 63
def World.cpyShare (x : World) : Nat := field x.cpybw.toNat 55 48
def World.cpyRate (x : World) : Nat := field x.cpybw.toNat 47 38
def World.cpyDepth (x : World) : Nat := field x.cpybw.toNat 37 24
def World.cpyBorrow (x : World) : Nat := field x.cpybw.toNat 23 10

/-- The key of a world's account on a cluster. -/
def accountKey (world cluster : Nat) : Nat := world * 16 + cluster

def State.account (s : State) (world cluster : Nat) : CopyAccount :=
  (KMap.find s.accounts (accountKey world cluster)).getD { bucket := 0, debt := 0, deficit := 0 }

def State.setAccount (s : State) (world cluster : Nat) (a : CopyAccount) : State :=
  { s with accounts := KMap.put s.accounts (accountKey world cluster) a }

/-- A copy has a beat waiting: its read phase may go, and an element is left that a target can still take. -/
def State.beatWaits (s : State) (o : Op) : Bool :=
  match o.kind with
  | .copy c => s.mayRead o && decide (c.next < c.total)
      && (!c.multi || c.targets.any fun g => g.state == .waiting || g.state == .registered)
  | _ => false

/-- The worlds with beats waiting on a cluster, ascending. -/
def State.beatWorlds (s : State) (cluster : Nat) : List Nat :=
  (((s.ops.filter fun o => o.core / 8 == cluster && s.beatWaits o).map fun o => o.world).eraseDups).mergeSort
    fun a b => decide (a ≤ b)

/-- Whether a world waits with the right to a beat now: basic, or expert with credit. -/
def State.hasCredit (s : State) (cluster world : Nat) : Bool :=
  !(s.world world).cpyExpert || decide (64 ≤ (s.account world cluster).bucket)

/-- A world that a cluster's round serves: in basic mode with a share, or in expert mode with credit (R211). -/
def State.inRound (s : State) (cluster world : Nat) : Bool :=
  if (s.world world).cpyExpert then s.hasCredit cluster world else (s.world world).cpyShare != 0

/-- The world a cluster's deficit round-robin serves now, of the waiting ones `ws`, and whether this is a new visit (R211): a
basic-mode world while its deficit lasts, an expert one for one beat. DESIGN CHOICE (R211 is silent on each): an expert world takes
one beat a visit, and a deficit left is kept while its world has no beats waiting (log 47). -/
def State.basicTurn (s : State) (cluster : Nat) (ws : List Nat) : Option (Nat × Bool) :=
  let bs := ws.filter (s.inRound cluster)
  let cur := (KMap.find s.copyTurn cluster).getD 32
  if bs.contains cur && !(s.world cur).cpyExpert && decide (0 < (s.account cur cluster).deficit) then some (cur, false)
  else
    match bs.find? fun w => decide (cur < w) with
    | some w => some (w, true)
    | none => bs.head?.map fun w => (w, true)

/-- A beat granted to a world on a cluster and charged to it; none when the path does not grant it (R210, R211). A deficit does not
fall below 0. -/
def State.grantBeat (s : State) (cluster world : Nat) : Option State :=
  let ws := s.beatWorlds cluster
  let x := s.world world
  let a := s.account world cluster
  if s.inRound cluster world then
    match s.basicTurn cluster ws with
    | none => none
    | some (w, visit) =>
      if w ≠ world then none
      else
        some ({ s with copyTurn := KMap.put s.copyTurn cluster world }.setAccount world cluster
          (if x.cpyExpert then { a with bucket := a.bucket - 64 }
           else { a with deficit := (if visit then a.deficit + x.cpyShare else a.deficit) - 1 }))
  else if x.cpyExpert then
    if (ws.any fun w => w != world && s.hasCredit cluster w) || decide (x.cpyBorrow * 64 < a.debt + 64) then none
    else some (s.setAccount world cluster { a with debt := a.debt + 64 })
  else if ws.any fun w => w != world then none
  else some (s.setAccount world cluster { a with deficit := a.deficit - 1 })

/-- COPY_BEAT: what a `cpy` has in flight is written once its write phase may go, and otherwise a beat moves, when the
cluster's path grants one; each beat that moves is charged once (R210). A parked copy without a RID tries again for one (R353). -/
def execCopyBeat (op : Nat) (s : State) : Out :=
  onOp s op fun o =>
    match o.kind with
    | .copy c =>
      if o.parked = some 0 then
        match o.trouble with
        | some f => s.postPark o c f.1 f.2
        | none => s
      else if !c.multi && c.flight ≠ [] && s.mayWrite o then State.landFlight o s c c.flight
      else if !s.beatWaits o then s
      else if s.beatFaults o c then s.faultBeat o c
      else
        match s.grantBeat (o.core / 8) o.world with
        | none => s
        | some s1 => s1.moveBeat o c
    | _ => s

/-- COPY_BUCKET_TICK: one hub cycle: buckets and debts of expert-mode worlds on every cluster (R211), and hub time. -/
def execCopyBucketTick (s : State) : Out :=
  let s1 := { s with hubTime := s.hubTime + 1 }
  .next ((s1.worlds.filter fun p => p.2.cpyExpert && p.2.state == .active).foldl (fun x p =>
    (List.range 16).foldl (fun y c =>
      let a := y.account p.1 c
      let pay := min a.debt (p.2.cpyRate / 2)
      y.setAccount p.1 c
        { a with debt := a.debt - pay, bucket := min (p.2.cpyDepth * 64) (a.bucket + p.2.cpyRate - pay) }) x) s1)

/-! ### Completion (R207, R208) -/

/-- STATUS and SMASK written. -/
def State.copyStatus (s : State) (o : Op) (status smask : Nat) : State :=
  s.devWrite o.core (o.blkpa + 5) [BitVec.ofNat 8 status, BitVec.ofNat 8 smask]

/-- CPY_COMPLETE: arrival word, STATUS and SMASK, barrier, entry, token and counter, in that order. -/
def execCpyComplete (op : Nat) (s : State) : Out :=
  onOp s op fun o =>
    match o.kind with
    | .copy c =>
      if c.multi || o.parked.isSome || o.paused || decide (c.next < c.total) || c.flight ≠ [] then s
      else
        let s1 := (s.addArrival o c o.team c.bytes).copyStatus o c.status 0
        let s2 := if c.baren then s1.updTeam o.team fun t => t.arrive c.bar 1 none else s1
        (s2.clearTprog o).retire o
    | _ => s

/-- Units in flight that some target still lacks. -/
def Copy.trimFlight (c : Copy) : Copy :=
  let need := fun (e : Nat) => c.targets.any fun g => (g.state == .waiting || g.state == .registered) && decide (g.got ≤ e)
  { c with flight := c.flight.filter fun p => need p.1 }

/-- A unit written into a target's scratchpad. -/
def State.writeTarget (s : State) (c : Copy) (uid e : Nat) (bs : List Byte) : State :=
  s.updTeam uid fun t => t.scratchWrite (unitAddr c.dst (c.dstAt e)) bs

/-- The target's completion once it has every beat: arrival word, barrier, entry (R208). -/
def State.finishTarget (s : State) (o : Op) (c : Copy) (i : Nat) (g : CopyTgt) : State :=
  let s1 := s.addArrival o c g.team g.bytes
  let s2 := if c.baren then s1.updTeam g.team fun t => t.arrive c.bar 1 none else s1
  s2.putOp { o with kind := .copy ({ c with targets := c.targets.set i { g with state := .done } }.trimFlight) }

/-- CPYM_BEAT_ARRIVAL: the next beat in flight reaches target `target`: the generation is compared, the target registers
with its first beat, and the beat is written (R205, R208, R225, R227). -/
def execCpymBeatArrival (op target : Nat) (s : State) : Out :=
  onOp s op fun o =>
    match o.kind with
    | .copy c =>
      match c.targets[target]? with
      | none => s
      | some g =>
        if !c.multi || o.parked.isSome || o.paused || !(g.state == .waiting || g.state == .registered) || decide (c.next ≤ g.got)
        then s
        else if !s.targetHere o g then s.putOp { o with kind := .copy (c.dropTarget target 1).trimFlight }
        else if g.state = .waiting ∧ g.writes ≠ [] ∧ s.scoreboardFull g.core then s
        else
          let reg := if g.state = .waiting then s.nextUid else g.reg
          let s1 := if g.state = .waiting then { s with nextUid := s.nextUid + 1 } else s
          let g1 : CopyTgt := { g with state := .registered, reg := reg }
          if s1.mustWait g.team reg [] g.writes then
            s1.putOp { o with kind := .copy { c with targets := c.targets.set target g1 } }
          else
            let upto := min c.next (g.got + (if c.src.fmt = .nq4 then 16384 else 64 / c.src.esize))
            let us := c.flight.filter fun p => decide (g.got ≤ p.1) && decide (p.1 < upto)
            let s2 := us.foldl (fun x p => x.writeTarget c g.team p.1 p.2) s1
            let g2 : CopyTgt := { g1 with got := upto, bytes := g.bytes + (us.map fun p => p.2.length).foldl (· + ·) 0 }
            if upto = c.total then s2.finishTarget o c target g2
            else s2.putOp { o with kind := .copy ({ c with targets := c.targets.set target g2 }.trimFlight) }
    | _ => s

/-- CPYM_COMPLETE: every target finished or dropped; STATUS, SMASK, token and counter. -/
def execCpymComplete (op : Nat) (s : State) : Out :=
  onOp s op fun o =>
    match o.kind with
    | .copy c =>
      if !c.multi || o.parked.isSome || o.paused then s
      else
        if c.openTargets = [] then ((s.copyStatus o c.status c.smask).clearTprog o).retire o
        else s
    | _ => s

end Sys2Proof.Machine
end

