-- ==== Sys2Proof/Machine/CrossLane.lean ====
section
/-! DEFINITION. Member masks, rendezvous, lane exchange, polls, peers and reductions (R168 to R173), and predicate
logic and select (R160, R174). -/

namespace Sys2Proof.Machine

/-! ### What each operation computes over its participants -/

/-- `lx` modes: the source lane of lane `l` for operand `c` (R171). -/
inductive LaneMode where
  | at | lo | hi | xor
  deriving DecidableEq, Repr, Inhabited

def laneSource (mode : LaneMode) (l c : Nat) : Int :=
  match mode with
  | .at => c
  | .lo => (l : Int) - c
  | .hi => (l : Int) + c
  | .xor => ((BitVec.ofNat 5 l ^^^ BitVec.ofNat 5 c).toNat : Int)

/-- One lane of `lx` (R171). -/
def lxLane (w : Warp) (mode : LaneMode) (a src : Nat) (imm : Bool) (m : LaneMask) (l : Nat) : Word :=
  let c := if imm then src % 32 else (w.vget src l).toNat % 32
  let i := laneSource mode l c
  if i < 0 ∨ 31 < i ∨ m.getLsbD i.toNat = false then w.vget a l
  else if w.live.getLsbD i.toNat then w.vget a i.toNat
  else 0

/-- The reductions of `comb` (R173). -/
inductive CombOp where
  | addI32 | minI32 | maxI32 | minN32 | maxN32 | andB32 | orB32 | xorB32 | addF32 | minF32 | maxF32
  deriving DecidableEq, Repr, Inhabited

/-- An integer reduction's step. -/
def combStep (op : CombOp) (x y : Word) : Word :=
  match op with
  | .addI32 => x + y
  | .minI32 => if x.slt y then x else y
  | .maxI32 => if x.slt y then y else x
  | .minN32 => if x.ult y then x else y
  | .maxN32 => if x.ult y then y else x
  | .andB32 => x &&& y
  | .orB32 => x ||| y
  | .xorB32 => x ^^^ y
  | _ => x

/-- An integer reduction's identity (R173). -/
def combIdentity : CombOp → Word
  | .minI32 => 0x7FFF_FFFF#32
  | .maxI32 => 0x8000_0000#32
  | .minN32 | .andB32 => 0xFFFF_FFFF#32
  | _ => 0

/-- One level of the tree of `comb.add.f32`: neighbours summed under FPMODE (R173). -/
def treeLevel (mode : Mode) (ftz : Bool) : List Nat → List Nat × Flags
  | a :: b :: r =>
    let x := fadd fp32 mode ftz a b
    let y := treeLevel mode ftz r
    (x.1 :: y.1, x.2 ||| y.2)
  | l => (l, 0)

/-- `n` levels of the tree. -/
def treeSum (mode : Mode) (ftz : Bool) : Nat → List Nat → Nat × Flags
  | 0, l => (l.headD 0, 0)
  | n + 1, l =>
    let x := treeLevel mode ftz l
    let y := treeSum mode ftz n x.1
    (y.1, x.2 ||| y.2)

/-- minimumNumber or maximumNumber over the participants. -/
def foldMinMax (ftz max : Bool) : List Nat → Nat × Flags
  | [] => (fp32.qnan, 0)
  | a :: r =>
    r.foldl (fun acc b => let x := fminmax fp32 ftz max acc.1 b; (x.1, acc.2 ||| x.2))
      (if fp32.isNaN a then fp32.qnan else flushIn fp32 ftz a, snanFlag fp32 [a])

/-- The reduction of register `a` over the participants (R173). -/
def combValue (w : Warp) (op : CombOp) (a : Nat) (parts : LaneMask) : Word × Flags :=
  match op with
  | .addF32 =>
    let r := treeSum w.mode w.ftz 5
      ((List.range 32).map fun l => if parts.getLsbD l then (w.vget a l).toNat else fp32.sign)
    (BitVec.ofNat 32 r.1, r.2)
  | .minF32 => let r := foldMinMax w.ftz false ((lanesOf parts).map fun l => (w.vget a l).toNat); (BitVec.ofNat 32 r.1, r.2)
  | .maxF32 => let r := foldMinMax w.ftz true ((lanesOf parts).map fun l => (w.vget a l).toNat); (BitVec.ofNat 32 r.1, r.2)
  | op => ((lanesOf parts).foldl (fun x l => combStep op x (w.vget a l)) (combIdentity op), 0)

/-- The mask of participants whose value equals lane `l`'s (R172). -/
def peersMask (w : Warp) (wide : Bool) (a : Nat) (parts : LaneMask) (l : Nat) : Word :=
  maskWhere fun i => parts.getLsbD i && (w.vget a i == w.vget a l) && (!wide || w.vget (a + 1) i == w.vget (a + 1) l)

/-- `comb` over participants. -/
def performComb (op : CombOp) (d a : Nat) (parts : LaneMask) (w : Warp) : Warp :=
  let r := combValue w op a parts
  (w.writeLanes w.active fun _ => [(d, r.1)]).addFlags r.2

/-- A cross-lane instruction performed over `parts` (live(M)), results in ACTIVE (R168): other instructions change
nothing. -/
def performXlane (i : Instr) (m parts : LaneMask) (w : Warp) : Warp :=
  match i with
  | .lxAt d a src imm _ => w.writeLanes w.active fun l => [(d, lxLane w .at a src imm m l)]
  | .lxLo d a src imm _ => w.writeLanes w.active fun l => [(d, lxLane w .lo a src imm m l)]
  | .lxHi d a src imm _ => w.writeLanes w.active fun l => [(d, lxLane w .hi a src imm m l)]
  | .lxXor d a src imm _ => w.writeLanes w.active fun l => [(d, lxLane w .xor a src imm m l)]
  | .pollEvery d a _ => w.psetLanes d w.active (if parts &&& ~~~(w.pget a) = 0 then allLanes else 0)
  | .pollSome d a _ => w.psetLanes d w.active (if parts &&& w.pget a = 0 then 0 else allLanes)
  | .pollBits d a _ => w.sset d (parts &&& w.pget a)
  | .peersB32 d a _ => w.writeLanes w.active fun l => [(d, peersMask w false a parts l)]
  | .peersB64 d a _ => w.writeLanes w.active fun l => [(d, peersMask w true a parts l)]
  | .combAddI32 d a _ => performComb .addI32 d a parts w
  | .combMinI32 d a _ => performComb .minI32 d a parts w
  | .combMaxI32 d a _ => performComb .maxI32 d a parts w
  | .combMinN32 d a _ => performComb .minN32 d a parts w
  | .combMaxN32 d a _ => performComb .maxN32 d a parts w
  | .combAndB32 d a _ => performComb .andB32 d a parts w
  | .combOrB32 d a _ => performComb .orB32 d a parts w
  | .combXorB32 d a _ => performComb .xorB32 d a parts w
  | .combAddF32 d a _ => performComb .addF32 d a parts w
  | .combMinF32 d a _ => performComb .minF32 d a parts w
  | .combMaxF32 d a _ => performComb .maxF32 d a parts w
  | _ => w

/-! ### The rendezvous (R168, R169) -/

/-- The warp parks its active lanes at its word, and the check of R51 finds what runs next. -/
def parkLanes (s : State) (w : Warp) (h : Header) (i : Instr) (lanes m : LaneMask) : Issue :=
  let p : Park := { hdr := w.hdr, idx := w.idx, clause := h, instr := i, lanes := lanes, mask := m }
  let w1 := { w with park := some p, active := 0 }
  match Warp.reconverge w1.reconvergeFuel w1 w1.hdr with
  | .at w2 => .goto s { w2.goto w2.hdr with yielded := w.yielded || w.lastYields }
  | .exited w2 => .goto s { w2 with status := .exited }
  | .maskFault w2 => .trap s w2 { code := .mask }

/-- xlane(a, M) of R168 for instruction `i` reading mask register `mreg` and the registers `srcs`. -/
def xlane (s : State) (i : Instr) (mreg : Nat) (srcs : List Nat) (ok : Team → Bool) : Out :=
  onWarp s fun t _ w =>
    require (ok t) s w <|
      let m := w.sget mreg
      let here := match w.park with
        | some p => p.addr == w.wordAddr
        | none => true
      let parked := match w.park with
        | some p => if p.addr = w.wordAddr then p.lanes else 0
        | none => 0
      let have_ := w.active ||| parked
      if have_ &&& ~~~m ≠ 0 then .trap s w { code := .mask }
      else if !here then .trap s w { code := .mask }
      else
        let parts := m &&& w.live
        if parts &&& ~~~have_ = 0 then
          reading s w srcs parts <| .done s (performXlane i m parts { w with park := none, active := have_ })
        else parkLanes s w (w.clause.getD default) i have_ m

/-- A source operand field of `lx`: a register below t', or an immediate with src[6:5] zero (R88). -/
def lxOk (d a src : Nat) (imm : Bool) (t : Team) : Bool :=
  t.okV d && t.okV a && (if imm then decide (src < 32) else t.okV src)

def lxSrcs (a src : Nat) (imm : Bool) : List Nat := if imm then [a] else [a, src]

/-- `lx.at` (R171). -/
def execLxAt (d a src : Nat) (imm : Bool) (sm : Nat) (s : State) : Out :=
  xlane s (.lxAt d a src imm sm) sm (lxSrcs a src imm) (lxOk d a src imm)
/-- `lx.lo` (R171). -/
def execLxLo (d a src : Nat) (imm : Bool) (sm : Nat) (s : State) : Out :=
  xlane s (.lxLo d a src imm sm) sm (lxSrcs a src imm) (lxOk d a src imm)
/-- `lx.hi` (R171). -/
def execLxHi (d a src : Nat) (imm : Bool) (sm : Nat) (s : State) : Out :=
  xlane s (.lxHi d a src imm sm) sm (lxSrcs a src imm) (lxOk d a src imm)
/-- `lx.xor` (R171). -/
def execLxXor (d a src : Nat) (imm : Bool) (sm : Nat) (s : State) : Out :=
  xlane s (.lxXor d a src imm sm) sm (lxSrcs a src imm) (lxOk d a src imm)

/-- `poll.every` (R172). -/
def execPollEvery (d a sm : Nat) (s : State) : Out := xlane s (.pollEvery d a sm) sm [] fun _ => true
/-- `poll.some` (R172). -/
def execPollSome (d a sm : Nat) (s : State) : Out := xlane s (.pollSome d a sm) sm [] fun _ => true
/-- `poll.bits` (R172). -/
def execPollBits (d a sm : Nat) (s : State) : Out := xlane s (.pollBits d a sm) sm [] fun _ => true
/-- `peers.b32` (R172). -/
def execPeersB32 (d a sm : Nat) (s : State) : Out := xlane s (.peersB32 d a sm) sm [a] fun t => t.okV d && t.okV a
/-- `peers.b64` (R172). -/
def execPeersB64 (d a sm : Nat) (s : State) : Out :=
  xlane s (.peersB64 d a sm) sm [a, a + 1] fun t => t.okV d && t.okV2 a

def combOk (d a : Nat) (t : Team) : Bool := t.okV d && t.okV a

/-- `comb.add.i32` (R173). -/
def execCombAddI32 (d a sm : Nat) (s : State) : Out := xlane s (.combAddI32 d a sm) sm [a] (combOk d a)
/-- `comb.min.i32` (R173). -/
def execCombMinI32 (d a sm : Nat) (s : State) : Out := xlane s (.combMinI32 d a sm) sm [a] (combOk d a)
/-- `comb.max.i32` (R173). -/
def execCombMaxI32 (d a sm : Nat) (s : State) : Out := xlane s (.combMaxI32 d a sm) sm [a] (combOk d a)
/-- `comb.min.n32` (R173). -/
def execCombMinN32 (d a sm : Nat) (s : State) : Out := xlane s (.combMinN32 d a sm) sm [a] (combOk d a)
/-- `comb.max.n32` (R173). -/
def execCombMaxN32 (d a sm : Nat) (s : State) : Out := xlane s (.combMaxN32 d a sm) sm [a] (combOk d a)
/-- `comb.and.b32` (R173). -/
def execCombAndB32 (d a sm : Nat) (s : State) : Out := xlane s (.combAndB32 d a sm) sm [a] (combOk d a)
/-- `comb.or.b32` (R173). -/
def execCombOrB32 (d a sm : Nat) (s : State) : Out := xlane s (.combOrB32 d a sm) sm [a] (combOk d a)
/-- `comb.xor.b32` (R173). -/
def execCombXorB32 (d a sm : Nat) (s : State) : Out := xlane s (.combXorB32 d a sm) sm [a] (combOk d a)
/-- `comb.add.f32` (R173). -/
def execCombAddF32 (d a sm : Nat) (s : State) : Out := xlane s (.combAddF32 d a sm) sm [a] (combOk d a)
/-- `comb.min.f32` (R173). -/
def execCombMinF32 (d a sm : Nat) (s : State) : Out := xlane s (.combMinF32 d a sm) sm [a] (combOk d a)
/-- `comb.max.f32` (R173). -/
def execCombMaxF32 (d a sm : Nat) (s : State) : Out := xlane s (.combMaxF32 d a sm) sm [a] (combOk d a)

/-! ### Select and predicate logic -/

/-- `sel` (R160). -/
def execSel (d a b p : Nat) (s : State) : Out :=
  laneOp s (fun t => t.okV d && t.okV a && t.okV b) [a, b] fun w l =>
    [(d, if (w.pget p).getLsbD l then w.vget a l else w.vget b l)]

/-- A predicate instruction in each active lane (R174). -/
def predLogic (s : State) (d : Nat) (f : Warp → LaneMask) : Out :=
  onWarp s fun _ _ w => .done s (w.psetLanes d w.active (f w))

/-- `pand` (R174). -/
def execPand (d a b : Nat) (s : State) : Out := predLogic s d fun w => w.pget a &&& w.pget b
/-- `por` (R174). -/
def execPor (d a b : Nat) (s : State) : Out := predLogic s d fun w => w.pget a ||| w.pget b
/-- `pxor` (R174). -/
def execPxor (d a b : Nat) (s : State) : Out := predLogic s d fun w => w.pget a ^^^ w.pget b
/-- `pandn` (R174). -/
def execPandn (d a b : Nat) (s : State) : Out := predLogic s d fun w => w.pget a &&& ~~~(w.pget b)
/-- `pnot` (R174). -/
def execPnot (d a : Nat) (s : State) : Out := predLogic s d fun w => ~~~(w.pget a)
/-- `pmov` (R174). -/
def execPmov (d a : Nat) (s : State) : Out := predLogic s d fun w => w.pget a
/-- `pfrom` (R174). -/
def execPfrom (d sr : Nat) (s : State) : Out := predLogic s d fun w => w.sget sr
/-- `pto` (R174): bit l of the scalar is pa of lane l if the lane is active, else 0. -/
def execPto (a sr : Nat) (s : State) : Out := onWarp s fun _ _ w => .done s (w.sset sr (w.pget a &&& w.active))

end Sys2Proof.Machine
end

