-- ==== Sys2Proof/Machine/Fetch.lean ====
section
/-! DEFINITION. Fetching code words and the checks of R79 on them, and placing an instruction where the next step
fetches it. -/

namespace Sys2Proof.Machine

/-- A core's code line in its instruction cache, if it is held (R73). -/
def State.codeHeld (s : State) (t : Team) (line : Nat) : Option (List Byte) := KMap.find (s.coreSt t.core).icache line

/-- What lines held before writes that the team's launch may still fetch (R74). -/
def State.olderCode (s : State) (t : Team) (line : Nat) : List (List Byte) :=
  (s.oldCode.filter fun x => x.line == line && (match s.findLaunch t.launch with
    | some l => x.seenBy l
    | none => false)).map OldCode.bytes

/-- The words that a fetch at a physical address may find: the newest first, then others that a store has replaced since the
launch's dispatch (R74). -/
def State.fetchWords (s : State) (t : Team) (pa : Nat) : List Nat :=
  let word := fun (bs : List Byte) => leVal ((bs.drop (pa % 128)).take 4)
  let now := leVal (s.clusterRead (t.core / 8) t.world pa 4)
  let older := ((s.codeHeld t (lineOf pa)).toList ++ s.olderCode t (lineOf pa) ++ [s.readMem (128 * lineOf pa) 128]).map word
  now :: (older.filter fun x => x != now).eraseDups

/-- The 32-bit word at an address of a team's code, through the instruction cache and its translation (R73, R145): where stores have
changed it since the launch's dispatch, an unspecified one of its words (R74). A line that is not held is read, and may deliver a
data fault (R335). -/
def State.fetchWord (s : State) (t : Team) (va : Nat) : Except (FaultCode × Nat) Nat :=
  match s.translate t.core t.world va .fetch with
  | .error c => .error (c, va)
  | .ok pa =>
    match (if (s.codeHeld t (lineOf pa)).isSome then none else (s.loadLine (t.core / 8) t.world (lineOf pa)).1) with
    | some f => .error (dataCode f, va)
    | none =>
      match s.fetchWords t pa with
      | [] => .ok 0
      | [v] => .ok v
      | v :: vs => .ok ((v :: vs).getD (Config.freeNat (s.fresh + va) % (vs.length + 1)) v)

/-- Lines of a core's instruction cache, 128 KiB (R14). -/
def icacheLines : Nat := 1024

/-- A line put into an instruction cache; a full one loses a line, which the manual leaves open. -/
def CoreSt.cacheCode (c : CoreSt) (pick line : Nat) (bs : List Byte) : CoreSt :=
  let room := if c.icache.length < icacheLines then c.icache else c.icache.eraseIdx (pick % c.icache.length)
  { c with icache := KMap.put room line bs }

/-- A fetch by a core: its walk, and a code line that is not held read, noted in its world's log and held from now on (R73,
R326, R335, R341). -/
def State.fetched (s : State) (t : Team) (va : Nat) : State :=
  let s1 := s.walked t.core t.world [va]
  match s.translate t.core t.world va .fetch with
  | .error _ => s1
  | .ok pa =>
    if (s1.codeHeld t (lineOf pa)).isSome then s1
    else
      let r := (s1.noteMem t.core t.world (logAgent 0 t.core) logRead va pa 1).loadLine (t.core / 8) t.world (lineOf pa)
      if r.1.isSome then r.2
      else
        r.2.setCore t.core ((r.2.coreSt t.core).cacheCode (Config.freeNat r.2.fresh) (lineOf pa)
          (r.2.clusterRead (t.core / 8) t.world (lineOf pa * 128) 128))

/-- Steps 1 to 3 of R79 for a word at index `idx` of a clause (R68, R69). -/
def wordCheck (h : Header) (idx w : Nat) : Option FaultCode :=
  let op := field w 31 26
  if op = 0x3F then some .illegal
  else if !classAdmits h.cls op then some .clause
  else if isTransferWord w && decide (idx + 1 < h.count) then some .clause
  else if op == 0x0C && decide (h.count ≤ idx + 1) then some .clause
  else none

/-- The instruction at a warp's PC, or the first fault of its fetch and of R79. -/
noncomputable def State.issueWord (s : State) (t : Team) (w : Warp) (h : Header) : Except (FaultCode × Nat) Instr :=
  match s.fetchWord t w.wordAddr.toNat with
  | .error e => .error e
  | .ok v =>
    match wordCheck h w.idx v with
    | some c => .error (c, 0)
    | none =>
      match decodeWord v with
      | .ok i => .ok i
      | .error _ => .error (.illegal, 0)

/-- The PC is at index 0 of a clause, and not inside a `rep` that stands there (R152, R361). -/
def Warp.atStart (w : Warp) : Bool := w.idx == 0 && !w.inRep

/-- Whether a pre-emption stops the warp: one has been requested and the PC is at index 0 of a clause (R361). -/
def Team.stops (t : Team) (w : Warp) : Bool := t.preempting && w.atStart

/-- Whether a warp can be considered by its scheduler: running, resident, not stopped (R48). -/
def Team.candidate (t : Team) (w : Warp) : Bool :=
  (t.place == .resident) && (w.status == .running) && !t.stops w

/-- The warps of a scheduler of a core, as team and warp index (R46). -/
def State.schedulerWarps (s : State) (core sched : Nat) : List (Nat × Nat) :=
  s.teams.flatMap fun t =>
    if t.core = core then
      (List.range t.warps.length).filterMap fun j =>
        match t.warp j with
        | some w => if w.slot % 4 = sched ∧ t.candidate w then some (t.uid, j) else none
        | none => none
    else []

/-- Every warp of a scheduler of a core, issuing or not. -/
def State.schedulerSlots (s : State) (core sched : Nat) : List (Nat × Nat) :=
  s.teams.flatMap fun t =>
    if t.core = core ∧ t.place = .resident then
      (List.range t.warps.length).filterMap fun j =>
        match t.warp j with
        | some w => if w.slot % 4 = sched then some (t.uid, j) else none
        | none => none
    else []

/-- The yield marks of a scheduler's warps end with the opportunity (R67, R149). -/
def State.clearYields (s : State) (core sched : Nat) : State :=
  (s.schedulerSlots core sched).foldl (fun x who => x.updWarp who.1 who.2 fun w => { w with yielded := false }) s

/-- Which of two candidates the picker prefers (R48): a skip count of 17 or more first, the largest, ties to the
oldest; otherwise the oldest. Each is given as skip count, age and name. -/
def pickFirst (a b : Nat × Nat × (Nat × Nat)) : Nat × Nat × (Nat × Nat) :=
  let hot := fun (x : Nat) => if 17 ≤ x then x else 0
  if hot a.1 < hot b.1 then b
  else if hot b.1 < hot a.1 then a
  else if b.2.1 < a.2.1 then b else a

/-- The warp the picker chooses among the ready ones. -/
def pickWarp : List (Nat × Nat × (Nat × Nat)) → Option (Nat × Nat)
  | [] => none
  | x :: r => some (r.foldl pickFirst x).2.2

/-- A started clause's class for an instruction word (R65, R68). -/
def classOfWord (w : Nat) : ClauseClass := (opcodeClass (field w 31 26)).getD .sys

/-- A world ACTIVE for the placed instruction: world 0 with its allotments at reset, its stage-2 root at page 1 and its
event queue at page 3. -/
def State.placeWorld (s : State) : State :=
  s.setWorld 0
    { World.reset with
      state := .active, pimok := true, s2root := 0x4000, evq := 0xC000, ctxBase := 0x10_0000, ctxLen := 0x100_0000 }

/-- Memory with the placed words at address 0, and the placed world's stage-2 tables: one leaf of 64 GiB from page 0. -/
def placedMem (h : Header) (v : Nat) : Sparse Byte :=
  let m1 := Sparse.setN memDefault [] 0 (leBytes 4 (encodeHeader h) ++ leBytes 4 v ++ leBytes 4 0)
  let m2 := Sparse.setN memDefault m1 0x4000 (leBytes 8 0x8003)
  Sparse.setN memDefault m2 0x8000 (leBytes 8 0xD)

/-- Ownership of the placed pages. -/
def placedPot : Sparse (BitVec 16) := [(0, potEntry 0 1 false 0), (3, potEntry 0 1 false 0)]

/-- The team that runs a placed instruction: world 0, core 0, one warp of 32 lanes at the word of a started clause,
128 vector registers, 4 tiles, 65,536 bytes of scratchpad. -/
def placedTeam (h : Header) : Team :=
  { uid := 1, world := 0, launch := 1, teamId := 0, core := 0, entry := 0, nregs := 128, acc := 4,
    scratchSize := 65536, barsMax := 15, divd := 31, prio := 0, coop := true, order := 0, place := .resident,
    scratch := [], gen := 0, bars := [], slots := [], slotFaults := [], tiles := [], reel := [], asbase := 0,
    aslimit := 0, astop := 0, old := [], uprog := none, ctxBase := 0x10_0000, ctxLen := 0x100_0000, ctxDigest := [],
    savedBanks := none, preempting := false, capFailed := false, deferred := [],
    warps := [{ Warp.zero with active := allLanes, live := allLanes, clause := some h }] }

/-- The launch of the placed team: a cooperative grid of one team. -/
def placedLaunch : Launch :=
  { uid := 1, world := 0, queue := 0, record := 0, entry := 0, gx := 1, gy := 1, gz := 1, tx := 32, ty := 1, tz := 1,
    regs := 128, acc := 4, ndep := 0, evt := false, coop := true, prio := 0, scratch := 65536, args := 0, cword := 0,
    done := 0, deps := [], state := .dispatched, met := [], sent := 1, ended := 0, aborted := false, start := 0,
    bargOrder := [] }

/-- The translation of VA page 0 to physical page 0, executable, readable and writable, in core 0's TLB. -/
def placedTlb : TlbEntry :=
  { cluster := false, unit := 0, world := 0, vpage := 0, gpage := 0, ppage := 0, r := true, w := true, x := true,
    r2 := true, w2 := true }

end Sys2Proof.Machine
end

