-- ==== Sys2Proof/Machine/Control.lean ====
section
/-! DEFINITION. Clauses, literal loads, branches, calls, exit, scalar-vector moves, barriers and waits (R50 to R56,
R66 to R74, R145 to R155). -/

namespace Sys2Proof.Machine

/-! ### Starting a clause (R51, R66, R67, R72) -/

/-- A poisoned register of the warp: the lowest lane's, and of its registers the lowest (R181, R350). -/
def Warp.anyPoison (w : Warp) : Option (Nat × Poison) :=
  (List.range 32).findSome? fun l => (w.poison.find? fun p => p.1 % 32 == l).map fun p => (l, p.2)

/-- The waits of a header are met (R67). -/
def Warp.headerMet (w : Warp) (h : Header) : Bool :=
  w.tokensZero h.kwait && (!h.wl || w.cntL == 0) && (!h.ws || w.cntS == 0)

/-- The code lines of a clause enter the core's instruction cache (R73, R74). -/
def State.fetchLines (s : State) (t : Team) (hdr : DWord) (h : Header) : State :=
  (s.fetched t hdr.toNat).fetched t (hdr.toNat + 4 * h.count)

/-- A warp that stands at a header which the check of R51 has left to run: the header is fetched and checked, and the
clause starts once its waits are met. At an index above 0 the waits are not applied again (R71, R358). -/
def startAt (s : State) (t : Team) (w : Warp) : Issue :=
  let s1 := s.fetched t w.hdr.toNat
  match s.fetchWord t w.hdr.toNat with
  | .error e => .trap s1 w { w.readTrouble e with atHeader := true }
  | .ok v =>
    match decodeHeader v with
    | none => .trap s1 w { code := .clause, atHeader := true }
    | some h =>
      if h.cls = .lit then .goto s1 (w.goto (w.hdr + BitVec.ofNat 64 (4 * (h.count + 1))))
      else if 0 < w.idx then
        if w.idx < h.count then .goto (s.fetchLines t w.hdr h) { w with clause := some h }
        else .trap s1 w { code := .clause, atHeader := true }
      else if h.wl && w.cntL == 0 && w.anyPoison.isSome then
        match w.anyPoison with
        | some (l, p) => .trap s1 w { Trouble.ofPoison l p with atHeader := true }
        | none => .hold
      else if w.headerMet h then .goto (s.fetchLines t w.hdr h) { w with clause := some h }
      else .hold

/-- The warp put back into the state, a change made to the state, and the warp taken up again. -/
def regoto (s : State) (t : Team) (j : Nat) (w : Warp) (f : State → State) : Issue :=
  let s1 := f (s.updWarp t.uid j fun x => { w with watched := x.watched })
  match s1.findWarp t.uid j with
  | some (_, w1) => .goto s1 w1
  | none => .goto s1 w

/-- A warp that has exited keeps its slot; the others of its grid may now complete a `barg` (R56, R148). -/
def exitWarp (s : State) (t : Team) (j : Nat) (w : Warp) : Issue :=
  regoto s t j { w with status := .exited } fun x => x.settleBarg t.launch

/-- CLAUSE_START: the check of R51, then the header (R66, R67). -/
def execClauseStart (s : State) : Out :=
  onWarp s fun t j w =>
    if 0 < w.idx then startAt s t w
    else
      match Warp.reconverge w.reconvergeFuel w w.hdr with
      | .at w1 => startAt s t { w1 with idx := 0, clause := none }
      | .exited w1 => exitWarp s t j w1
      | .maskFault w1 => .trap s w1 { code := .mask }

/-- UNASSIGNED_WORD: the first fault of R79 at the word (or of its fetch); a word with none is left alone. -/
def execUnassignedWord (s : State) : Out :=
  onWarp s fun t _ w =>
    match w.clause with
    | none => .goto s w
    | some h =>
      let s1 := s.fetched t w.wordAddr.toNat
      match s.fetchWord t w.wordAddr.toNat with
      | .error e => .trap s1 w (w.readTrouble e)
      | .ok v =>
        match wordCheck h w.idx v with
        | some c => .trap s1 w { code := c }
        | none => if wordAssigned v then .goto s1 w else illegal s1 w

/-! ### Literal loads (R145) -/

/-- `ldl` (R145). -/
def execLdl (d : Nat) (off : Int) (s : State) : Out :=
  onWarp s fun t _ w =>
    let s1 := s.fetched t (w.target off).toNat
    match s.fetchWord t (w.target off).toNat with
    | .error e => .trap s1 w (w.readTrouble e)
    | .ok v => .done s1 (w.sset d (BitVec.ofNat 32 v))

/-- `ldl.b64` (R145). -/
def execLdlB64 (d : Nat) (off : Int) (s : State) : Out :=
  onWarp s fun t _ w =>
    require (okS2 d) s w <|
      let s1 := s.fetched t (w.target off).toNat
      let s2 := s1.fetched t (w.target (off + 1)).toNat
      match s.fetchWord t (w.target off).toNat with
      | .error e => .trap s1 w (w.readTrouble e)
      | .ok v0 =>
        match s1.fetchWord t (w.target (off + 1)).toNat with
        | .error e => .trap s2 w (w.readTrouble e)
        | .ok v1 => .done s2 ((w.sset d (BitVec.ofNat 32 v0)).sset (d + 1) (BitVec.ofNat 32 v1))

/-! ### Branches (R50, R52, R146) -/

/-- `bra` (R146). -/
def execBra (off : Int) (s : State) : Out := onWarp s fun _ _ w => .goto s (w.leap (w.target off))

/-- `brc`: taken when the scalar meets the condition (R146). -/
def branchIf (s : State) (a : Nat) (off : Int) (c : Word → Bool) : Out :=
  onWarp s fun _ _ w => .goto s (w.leap (if c (w.sget a) then w.target off else w.fallThrough))

/-- `brc.z` (R146). -/
def execBrcZ (a : Nat) (off : Int) (s : State) : Out := branchIf s a off fun x => x == 0
/-- `brc.nz` (R146). -/
def execBrcNz (a : Nat) (off : Int) (s : State) : Out := branchIf s a off fun x => x != 0
/-- `brc.neg` (R146). -/
def execBrcNeg (a : Nat) (off : Int) (s : State) : Out := branchIf s a off fun x => x.slt 0
/-- `brc.nneg` (R146). -/
def execBrcNneg (a : Nat) (off : Int) (s : State) : Out := branchIf s a off fun x => !x.slt 0
/-- `brc.pos` (R146). -/
def execBrcPos (a : Nat) (off : Int) (s : State) : Out := branchIf s a off fun x => (0 : Word).slt x
/-- `brc.npos` (R146). -/
def execBrcNpos (a : Nat) (off : Int) (s : State) : Out := branchIf s a off fun x => !(0 : Word).slt x

/-- The divergent branch of R50 on predicate `p`, with target and join given as addresses. -/
def diverge (s : State) (t : Team) (w : Warp) (p : Nat) (tgt join : DWord) : Issue :=
  let tk := w.active &&& w.pget p
  let nt := w.active &&& ~~~(w.pget p)
  let ft := w.fallThrough
  if tk = 0 then .goto s (w.leap ft)
  else if nt = 0 then .goto s (w.leap tgt)
  else
    let shrink := match w.stack with
      | e :: _ => e.phase && e.join == join && join == ft
      | [] => false
    if shrink then .goto s { w.leap tgt with active := tk }
    else if w.stack.length = t.divd + 1 then .trap s w { code := .divStack }
    else
      let e : Reconv := { join := join, mask := w.active, pend := tk, tgt := tgt, phase := false }
      .goto s { w.leap ft with stack := e :: w.stack, active := nt }

/-- `brv` (R50). -/
def execBrv (p : Nat) (tgt join : Int) (s : State) : Out :=
  onWarp s fun t _ w => diverge s t w p (w.target tgt) (w.target join)

/-- `br.rg` (R52). -/
def execBrRg (p : Nat) (tgt : Int) (s : State) : Out :=
  onWarp s fun t _ w =>
    if w.stack ≠ [] ∨ w.park.isSome ∨ w.intrap then diverge s t w p (w.target tgt) w.fallThrough
    else .goto s (w.block (.regroup p (w.target tgt) w.fallThrough))

/-! ### Calls and exit (R147, R148) -/

/-- Return-stack depth. -/
def Warp.rdepth (w : Warp) : Nat := w.rstack.length + w.rspill

/-- The address of entry `i` (oldest 0) of a warp's spill area (R147, R360). -/
def Team.spillAddr (t : Team) (j i : Nat) : Nat := t.ctxBase + 35072 + 448 * j + 8 * i

/-- An entry pushed on the core's part of the stack; with 8 there the oldest goes to the spill area. A check that
fails there ends the team (R147, R360). -/
def pushReturn (s : State) (t : Team) (j : Nat) (w : Warp) (a : DWord) :
    Except ((FaultCode × Nat) × State) (State × Warp) :=
  if w.rstack.length < 8 then .ok (s, { w with rstack := a :: w.rstack })
  else
    let old := w.rstack.getLastD 0
    match s.storeVirt (w.origin t j) t.world (t.spillAddr j w.rspill) (leBytes 8 old.toNat) with
    | (some e, s1) => .error (e, s1)
    | (none, s1) => .ok (s1, { w with rstack := a :: w.rstack.dropLast, rspill := w.rspill + 1 })

/-- The newest entry taken off; from the spill area when the core holds none. -/
def popReturn (s : State) (t : Team) (j : Nat) (w : Warp) : Except ((FaultCode × Nat) × State) (DWord × State × Warp) :=
  match w.rstack with
  | a :: r => .ok (a, s, { w with rstack := r })
  | [] =>
    match s.readVirt t.core t.world (some (logAgent 0 t.core)) (t.spillAddr j (w.rspill - 1)) 8 with
    | (.error e, s1) => .error (e, s1)
    | (.ok bs, s1) => .ok (BitVec.ofNat 64 (leVal bs), s1, { w with rspill := w.rspill - 1 })

/-- The team of the warp ends because the device could not reach its context area: a check failed there, or a line of it delivered a
data fault (R360, R363). -/
def contextLost (s : State) (t : Team) (j : Nat) (w : Warp) (e : FaultCode × Nat) : Issue :=
  regoto s t j w fun x => x.abortTeam t.uid .abort e.2

/-- `call` (R147). -/
def execCall (off : Int) (s : State) : Out :=
  onWarp s fun t j w =>
    if w.rdepth = 64 then .trap s w { code := .callStack }
    else
      match pushReturn s t j w w.fallThrough with
      | .error e => contextLost e.2 t j w e.1
      | .ok (s1, w1) => .goto s1 (w1.leap (w.target off))

/-- `ret` (R147). -/
def execRet (s : State) : Out :=
  onWarp s fun t j w =>
    if w.rdepth = 0 then .trap s w { code := .callStack }
    else
      match popReturn s t j w with
      | .error e => contextLost e.2 t j w e.1
      | .ok (a, s1, w1) => .goto s1 (w1.leap a)

/-- The lanes of a mask removed from a reconvergence entry (R148). -/
def Reconv.without (e : Reconv) (m : LaneMask) : Reconv := { e with mask := e.mask &&& ~~~m, pend := e.pend &&& ~~~m }

/-- The active lanes end (R148). -/
def Warp.dropActive (w : Warp) : Warp :=
  { w with live := w.live &&& ~~~w.active, active := 0, stack := w.stack.map fun e => e.without w.active,
           park := w.park.map fun p => { p with lanes := p.lanes &&& ~~~w.active } }

/-- What runs after lanes have exited: a rendezvous that needs no more lanes completes (R170), otherwise the check of
R51 runs with ACTIVE empty. The clause that ends with the `exit` yields (R67). -/
def afterExit (s : State) (t : Team) (j : Nat) (w : Warp) : Issue :=
  let rest := match Warp.reconverge w.reconvergeFuel w w.hdr with
    | .at w1 => Issue.goto s (w1.leap w1.hdr)
    | .exited w1 => exitWarp s t j w1
    | .maskFault w1 => .trap s w1 { code := .mask }
  let pass := fun (x : Warp) => Issue.goto s { x.proceed with yielded := w.yielded || w.lastYields }
  match w.park with
  | none => rest
  | some p =>
    let parts := p.mask &&& w.live
    if parts &&& ~~~p.lanes ≠ 0 then rest
    else
      let w1 := w.unpark p
      match p.instr with
      | .lxAt _ a src imm _ | .lxLo _ a src imm _ | .lxHi _ a src imm _ | .lxXor _ a src imm _ =>
        reading s w1 (lxSrcs a src imm) parts <| pass (performXlane p.instr p.mask parts w1)
      | .peersB32 _ a _ | .combAddI32 _ a _ | .combMinI32 _ a _ | .combMaxI32 _ a _ | .combMinN32 _ a _
      | .combMaxN32 _ a _ | .combAndB32 _ a _ | .combOrB32 _ a _ | .combXorB32 _ a _ | .combAddF32 _ a _
      | .combMinF32 _ a _ | .combMaxF32 _ a _ =>
        reading s w1 [a] parts <| pass (performXlane p.instr p.mask parts w1)
      | .peersB64 _ a _ => reading s w1 [a, a + 1] parts <| pass (performXlane p.instr p.mask parts w1)
      | i => pass (performXlane i p.mask parts w1)

/-- `exit` (R148). -/
def execExit (s : State) : Out := onWarp s fun t j w => afterExit s t j w.dropActive

/-- `nop` (R149). -/
def execNop (s : State) : Out := onWarp s fun _ _ w => .done s w

/-- `yield` (R149). -/
def execYield (s : State) : Out := onWarp s fun _ _ w => .done s { w with yielded := true }

/-! ### Scalar-vector moves (R155) -/

/-- `gets` (R155). -/
def execGets (d v l : Nat) (s : State) : Out :=
  onWarp s fun t _ w =>
    require (t.okV v) s w <|
      if w.live.getLsbD l then reading s w [v] (1#32 <<< l) <| .done s (w.sset d (w.vget v l))
      else .done s (w.sset d 0)

/-- `gets.first` (R155). -/
def execGetsFirst (d v : Nat) (s : State) : Out :=
  onWarp s fun t _ w =>
    require (t.okV v) s w <|
      let l := (lanesOf w.active).headD 0
      reading s w [v] (1#32 <<< l) <| .done s (w.sset d (w.vget v l))

/-- `sets` (R155). -/
def execSets (d v : Nat) (s : State) : Out :=
  laneOp s (fun t => t.okV v) [] fun w _ => [(v, w.sget d)]

/-! ### Barriers (R54 to R56, R153, R154, R217) -/

/-- `bpost`: not performed until L and S are zero (R153, R217). -/
def execBpost (n c : Nat) (s : State) : Out :=
  onWarp s fun t j w =>
    require (decide (n ≤ t.barsMax) && decide (0 < c)) s w <|
      if w.cntL ≠ 0 ∨ w.cntS ≠ 0 then .hold
      else
        let k := popcount (w.liveOf w.active)
        regoto s t j (Warp.advance { w with arrivals := KMap.put w.arrivals n false }) fun x =>
          x.updTeam t.uid fun y => (y.arriveOld j n).arrive n k (some c)

/-- `bhold` (R55). -/
def execBhold (n : Nat) (s : State) : Out :=
  onWarp s fun t j w =>
    require (decide (n ≤ t.barsMax)) s w <|
      if KMap.find w.arrivals n = some true then .done (s.updTeam t.uid fun x => x.passOld n j) w else .goto s (w.block (.bhold n))

/-- A cluster named last in an order of arrival. -/
def arriveLast (order : List Nat) (c : Nat) : List Nat := (order.filter fun x => x != c) ++ [c]

/-- `barg`: a release at device scope, so L and S drain and the world's gathered stores reach memory first (R56,
R217). -/
def execBarg (s : State) : Out :=
  onWarp s fun t j w =>
    require t.coop s w <|
      if w.cntL ≠ 0 ∨ w.cntS ≠ 0 then .hold
      else
        let s1 := (s.drainWorld (t.core / 8) t.world).updLaunch t.launch fun l =>
          { l with bargOrder := arriveLast l.bargOrder (t.core / 8) }
        regoto s1 t j (w.block .barg) fun x => x.settleBarg t.launch

/-! ### Waiting (R150) -/

/-- `wait` (R81, R150). -/
def execWait (kmask : Nat) (ctr : Ctr) (cen : Bool) (n : Nat) (s : State) : Out :=
  onWarp s fun _ _ w =>
    if w.tokensZero kmask && (!cen || decide (w.ctr ctr ≤ n)) then
      if cen && ctr == .l && n == 0 then
        match w.anyPoison with
        | some (l, p) => .trap s w (Trouble.ofPoison l p)
        | none => .done s w
      else .done s w
    else .hold

end Sys2Proof.Machine
end

