-- ==== Sys2Proof/Machine/System.lean ====
section
/-! DEFINITION. System instructions: traps, system registers, host calls, sleep (R93, R175 to R178, R357, R358). -/

namespace Sys2Proof.Machine

/-! ### System registers (R93, R112, R113, R175, R176, R331, R355) -/

/-- WAYMASK of a world (R331). -/
def State.waymask (s : State) (world : Nat) : Word :=
  let m := s.wayMasks world
  BitVec.ofNat 32 (m.1 * 65536 + m.2)

/-- A 32-bit system register read for a warp. -/
def readSr (s : State) (t : Team) (j : Nat) (w : Warp) (r : Nat) : Option Word :=
  match r with
  | 0x000 => some w.fpmode
  | 0x001 => some (w.fpstat.zeroExtend 32)
  | 0x003 => some (BitVec.ofNat 32 j)
  | 0x004 => some (BitVec.ofNat 32 t.teamId)
  | 0x005 => some (BitVec.ofNat 32 t.world)
  | 0x006 => some w.repcnt
  | 0x00C => some s.healthWord
  | 0x00D => some (s.waymask t.world)
  | _ => none

/-- A 64-bit system register read for a warp. -/
def readSr64 (s : State) (t : Team) (w : Warp) (r : Nat) : Option DWord :=
  match r with
  | 0x007 => some w.tprog
  | 0x008 => some t.asbase
  | 0x009 => some t.aslimit
  | 0x00A => some t.astop
  | 0x00B => some (s.world t.world).trapvec
  | _ => none

/-- `getsr` (R175). -/
def execGetsr (d r : Nat) (s : State) : Out :=
  onWarp s fun t j w =>
    if r = 0x002 then
      require (t.okV d) s w <| .done s (w.writeLanes w.active fun l => [(d, BitVec.ofNat 32 l)])
    else
      match readSr s t j w r, readSr64 s t w r with
      | some v, _ => require (decide (d < 64)) s w <| .done s (w.sset d v)
      | none, some v => require (decide (d < 64) && okS2 d) s w <| .done s (w.sset64 d v)
      | none, none => illegal s w

/-- TRAPVEC accepts zero or a VA that can name a header (R175). -/
def trapvecOk (v : DWord) : Bool := field v.toNat 1 0 == 0 && field v.toNat 63 58 == 0

/-- `setsr` (R175, R176). -/
def execSetsr (a r : Nat) (s : State) : Out :=
  onWarp s fun t j w =>
    let v := w.sget a
    let p := w.sget64 a
    let stack := fun (k : Nat) => require (okS2 a) s w <| .done (s.updTeam t.uid fun x => x.setAs j k p) w
    match r with
    | 0x000 => .done s { w with fpmode := v &&& 7#32 }
    | 0x001 => .done s { w with fpstat := v.extractLsb' 0 5 }
    | 0x006 => .done s { w with repcnt := v }
    | 0x008 => stack 0
    | 0x009 => stack 1
    | 0x00A => stack 2
    | 0x00B =>
      require (okS2 a && trapvecOk p) s w <|
        .done (s.setWorld t.world { s.world t.world with trapvec := p }) w
    | _ => illegal s w

/-! ### Traps (R357, R358) -/

/-- The word after the one at the PC, as header and index. -/
def Warp.resumePoint (w : Warp) : DWord × Nat :=
  let x := w.advance
  (x.hdr, x.idx)

/-- `trap` (R357): the handler is entered, or the warp is suspended with F_TRAP. -/
def execTrap (n : Nat) (s : State) : Out :=
  onWarp s fun t j w =>
    let vec := (s.world t.world).trapvec
    if vec = 0 ∨ w.intrap then .trap s w { code := .trap, detail := n }
    else
      let f := t.frameAddr j
      let r := w.resumePoint
      match s.storeVirt (w.origin t j) t.world f (trapFrame w n r.1 r.2) with
      | (some e, s1) => contextLost s1 t j w e
      | (none, s1) => .goto s1 (w.enterTrap f n vec)

/-- The frame passes the checks of R358; its reserved bytes are zero, as R7 asks of every record (log 97). -/
def frameOk (w : Warp) (b : List Byte) : Bool :=
  blkNat b 16 4 == w.stack.length && decide (blkNat b 8 1 ≤ 14) && BitVec.ofNat 32 (blkNat b 12 4) &&& ~~~w.live == 0
    && blkNat b 20 4 == 0 && blkNat b 48 16 == 0

/-- `eret` (R358): reads the frame as a load of the warp, checks it, and returns. -/
def execEret (s : State) : Out :=
  onWarp s fun t j w =>
    require w.intrap s w <| afterMarks s t <|
      match s.readVirt t.core t.world (some (logAgent 0 t.core)) (t.frameAddr j) 64 with
      | (.error e, s1) => .trap s1 w (w.readTrouble e)
      | (.ok b, s1) => require (frameOk w b) s1 w <| .goto s1 (w.leaveTrap b)

/-! ### hostcall and sleep (R177, R178) -/

/-- `hostcall` (R177): not ready until its record can enter the world's queue. -/
def execHostcall (a c : Nat) (s : State) : Out :=
  onWarp s fun t j w =>
    require (okS2 a) s w <|
      let src := warpSource t.core w.slot
      let key := sourceKey t.world src
      let waiting := match KMap.find s.sources key with
        | some x => !x.pending.isEmpty
        | none => false
      if waiting then .hold
      else
        let s1 := (s.post evHostcall t.world src (hostcallBody c j t.teamId (w.sget64 a).toNat)).enterNext key
        let entered := match KMap.find s1.sources key with
          | some x => x.pending.isEmpty
          | none => true
        if entered then .done s1 w else .hold

/-- `sleep` (R178): the warp is blocked until its time runs out, or a pre-emption is requested. -/
def execSleep (_n : Nat) (s : State) : Out :=
  onWarp s fun t _ w => if t.preempting then .done s w else .goto s (w.block .sleeping)

end Sys2Proof.Machine
end

