-- ==== Sys2Proof/Machine/Dispatcher.lean ====
section
/-! DEFINITION. Launch queues, launch records, dependences, placement and dispatch, the end of teams and launches (R33 to
R47, R58 to R63, R337 to R339, R359, R360, R382). -/

namespace Sys2Proof.Machine

/-! ### What the hub reads and writes by virtual address -/

/-- The hub's own place as an accessor of virtual memory: no core's TLB and no cluster's gathered stores. -/
def hubCore : Nat := 1024

/-- A read through both stages at the homes: the bytes, or the fault of a check or of a line (R335), with the state that its
reads leave (R37, R40). R342 names no AGENT for the hub. -/
def State.hubRead (s : State) (world va n : Nat) : Except ((FaultCode × Nat) × State) (List Byte × State) :=
  match s.readVirt hubCore world none va n with
  | (.error e, s1) => .error (e, s1)
  | (.ok bs, s1) => .ok (bs, s1)

/-- A write through both stages at the homes, not performed where the packet of a line fails (R333); the error is the state
then. -/
def State.hubWrite (s : State) (world va : Nat) (bs : List Byte) : Except State State :=
  let s0 := s.walked hubCore world (pageStarts va bs.length)
  match s.checkRange hubCore world va bs.length .write with
  | .error _ => .error s0
  | .ok _ =>
    match s0.losePacket ((s.rangeLines hubCore world .write va bs.length).map (·.1)) with
    | some s1 => .error s1
    | none => .ok (s.writeVirt hubCore world va bs none).2

/-- The world's gathered stores of every cluster reach their lines: a release at system scope (R217). -/
def State.drainAll (s : State) (world : Nat) : State := (List.range 16).foldl (fun x c => x.drainWorld c world) s

/-! ### Receipts (R337, R339) -/

/-- A scrub of `count` units of a class recorded in a world's receipt chain. -/
def State.receipt (s : State) (world cls count loc : Nat) : State :=
  let x := s.world world
  let r := leBytes 1 cls ++ leBytes 3 0 ++ leBytes 4 count ++ leBytes 8 loc ++ leBytes 8 s.hubTime ++ leBytes 8 x.receiptN
  s.setWorld world
    { x with receiptH := sha3 (x.receiptH ++ r), receiptN := x.receiptN + 1,
             receiptCounts := (List.range 6).map fun i => x.receiptCounts.getD i 0 + if i = cls then count else 0 }

/-- The receipts of a team's resources: classes 2 to 5 (R339). -/
def State.teamReceipts (s : State) (t : Team) : State :=
  let loc := t.core + 128 * t.entry
  (((s.receipt t.world 2 (t.scratchSize / 64) loc).receipt t.world 3 (t.warps.length * 32 * t.nregs) loc).receipt t.world 4
    t.acc loc).receipt t.world 5 (256 * t.acc) loc

/-! ### Allotments (R59 to R63) -/

def World.qmask (x : World) : Nat := field x.xallot.toNat 42 35
def World.spq (x : World) : Nat := field x.xallot.toNat 34 26
def World.bars (x : World) : Nat := field x.xallot.toNat 25 22
def World.divd (x : World) : Nat := field x.xallot.toNat 21 17
def World.resv (x : World) : Nat := field x.xallot.toNat 16 10
def World.weight (x : World) : Nat := field x.xallot.toNat 7 0

/-- A world's scratchpad quota on a core in bytes (R62). -/
def World.quota (x : World) : Nat := x.spq * 16384

/-- The dispatcher's mode: whether it is the expert one (R42). -/
def State.expert (s : State) : Bool := bitOf s.dispctl.toNat 0

/-! ### The resources of a core (R41, R44) -/

/-- Warp slots, register bytes, team entries, scratchpad bytes, accumulator tiles of a core. -/
def coreCapacity : List Nat := [64, 524288, 16, 4194304, 16]

/-- A world's share of a core in expert mode (R44). -/
def World.shareOf (x : World) : List Nat := [x.resv, x.resv * 8192, x.resv / 4, x.resv * 65536, x.resv / 4]

def addLists (a b : List Nat) : List Nat := (a.zip b).map fun p => p.1 + p.2
def subLists (a b : List Nat) : List Nat := (a.zip b).map fun p => p.1 - p.2
def minLists (a b : List Nat) : List Nat := (a.zip b).map fun p => min p.1 p.2

/-- What `w` warps of `regs` registers, a scratchpad and tiles take. -/
def needOf (w regs scratch acc : Nat) : List Nat := [w, w * 32 * regs * 4, 1, scratch, acc]

def Team.need (t : Team) : List Nat := needOf t.warps.length t.nregs t.scratchSize t.acc

/-- What the teams of a list use on a core. -/
def usedOn (teams : List Team) (core : Nat) : List Nat :=
  (teams.filter fun t => t.core == core && t.place == .resident).foldl (fun a t => addLists a t.need) [0, 0, 0, 0, 0]

/-- What a world may still use on a core where `teams` stand: everything free in basic mode; in expert mode the free
part of its share, and with it, unless `own`, what is left unreserved (R44). DESIGN CHOICE (R44 does not say whose share teams
that use more than their own stand in): no world's share in particular; of what is free each world may use its own free part, whichever
comes first (log 115). -/
def State.available (s : State) (teams : List Team) (core world : Nat) (own : Bool) : List Nat :=
  let free := subLists coreCapacity (usedOn teams core)
  if !s.expert then free
  else
    let usedBy := fun v => usedOn (teams.filter fun t => t.world == v) core
    let mine := subLists (s.world world).shareOf (usedBy world)
    if own then minLists free mine
    else
      let shares := s.worlds.foldl (fun a p => addLists a p.2.shareOf) [0, 0, 0, 0, 0]
      let owed := s.worlds.foldl (fun a p => addLists a (subLists (usedBy p.1) p.2.shareOf)) [0, 0, 0, 0, 0]
      minLists free (addLists mine (subLists (subLists coreCapacity shares) owed))

/-! ### Launch records (R38, R39) -/

def Launch.threads (l : Launch) : Nat := l.tx * l.ty * l.tz
def Launch.nwarps (l : Launch) : Nat := ceilDiv l.threads 32
def Launch.teams (l : Launch) : Nat := l.gx * l.gy * l.gz
/-- t′ of R39. -/
def Launch.tregs (l : Launch) : Nat := ceilDiv l.regs 8 * 8
def Launch.need (l : Launch) : List Nat := needOf l.nwarps l.tregs l.scratch l.acc

/-- Bytes of a context area of W warps, t′ registers, ACC tiles and a scratchpad (R360). -/
def areaSize (w regs acc scratch : Nat) : Nat :=
  ceilDiv (319232 + 4096 * acc + 32768 * acc + 128 * w * regs + 4 * w * regs + scratch) 16384 * 16384

def Launch.area (l : Launch) : Nat := areaSize l.nwarps l.tregs l.acc l.scratch

/-- A record as taken from entry `record` of a queue. -/
def launchOf (uid world queue record : Nat) (b : List Byte) : Launch :=
  let ctl := blkNat b 22 2
  { uid := uid, world := world, queue := queue, record := record, entry := blkNat b 0 8, gx := blkNat b 8 4,
    gy := blkNat b 12 2, gz := blkNat b 14 2, tx := blkNat b 16 2, ty := blkNat b 18 1, tz := blkNat b 19 1,
    regs := blkNat b 20 1, acc := blkNat b 21 1, ndep := field ctl 6 4, evt := bitOf ctl 3, coop := bitOf ctl 2,
    prio := field ctl 1 0, scratch := blkNat b 24 4, args := blkNat b 32 8, cword := blkNat b 40 8,
    done := blkNat b 48 8, deps := (List.range 4).map fun i => (blkNat b (64 + 16 * i) 8, blkNat b (72 + 16 * i) 8),
    state := .waiting, met := [], sent := 0, ended := 0, aborted := false, start := 0, bargOrder := [] }

/-- An address of a word of 8 bytes: aligned, bits [63:58] zero. -/
def wordAddrOk (a : Nat) : Bool := a % 8 == 0 && decide (a < 2 ^ 58)

/-- The checks of R39 that lead to BAD_RECORD. -/
def recordOk (b : List Byte) (l : Launch) : Bool :=
  field (blkNat b 22 2) 15 7 == 0 && blkNat b 28 4 == 0 && blkNat b 56 8 == 0
    && l.teams != 0 && l.threads != 0 && decide (l.threads ≤ 1024) && decide (l.teams ≤ 0xFFFFFFFF)
    && l.regs != 0 && decide (l.regs ≤ 128) && decide (l.acc ≤ 16)
    && l.scratch % 64 == 0 && decide (l.scratch ≤ 4194304) && decide (l.ndep ≤ 4)
    && l.entry % 4 == 0 && decide (l.entry < 2 ^ 58) && decide (l.done < 2 ^ 63)
    && (l.cword == 0 || wordAddrOk l.cword) && (l.deps.take l.ndep).all fun d => wordAddrOk d.1

/-! ### The end of a launch (R40) -/

/-- Launch status codes. -/
def statusBadRecord : Nat := 1
def statusNoFit : Nat := 2
def statusDepFailed : Nat := 3
def statusAllotment : Nat := 4
def statusAborted : Nat := 5

/-- The completion word written; whether it could not be. -/
def State.writeCword (s : State) (l : Launch) (v : Nat) : State × Bool :=
  if l.cword = 0 then (s, false)
  else if l.cword % 8 ≠ 0 then (s, true)
  else
    match s.hubWrite l.world l.cword (leBytes 8 v) with
    | .ok s1 => (s1, false)
    | .error s1 => (s1, true)

/-- A launch over with a status, 0 for success: CWORD, then the event record. -/
def State.finishLaunch (s : State) (l : Launch) (status : Nat) : State :=
  let v := if status = 0 then l.done else 2 ^ 63 + status
  let r := (s.drainAll l.world).writeCword l v
  let s1 := { r.1 with launches := r.1.launches.filter fun x => x.uid != l.uid }
  if status ≠ 0 ∨ l.evt ∨ r.2 then s1.post evLaunch l.world dispatcherSource (launchBody l.queue r.2 status l.record v)
  else s1

/-! ### Taking a record (R34 to R36, R39) -/

def World.queue (x : World) (q : Nat) : Queue := (KMap.find x.queues q).getD { stopped := false }

/-- A launch of the queue that has not been dispatched whole. -/
def State.queueBusy (s : State) (world q : Nat) : Bool :=
  s.launches.any fun l => l.world == world && l.queue == q
    && (l.state == .waiting || l.state == .ready || l.state == .dispatching)

/-- A queue stopped with its QUEUE_ERROR record (R35). -/
def State.stopQueue (s : State) (world q : Nat) : State :=
  let x := s.world world
  (s.setWorld world { x with queues := KMap.put x.queues q { stopped := true } }).post evQueueError world dispatcherSource
    (queueErrorBody q)

/-- The record of a valid, non-empty queue taken: HEAD advances and the checks of R39 and R62 are made. -/
def State.takeRecord (s : State) (world q : Nat) (d : List Byte) : State :=
  let x := s.world world
  let base := blkNat d 0 8
  let head := blkNat d 16 8
  match s.hubRead world (base + 128 * (head % 2 ^ (blkNat d 8 1))) 128 with
  | .error e => e.2.stopQueue world q
  | .ok (b, s0) =>
    match s0.gpaWrite world (x.qtable + 32 * q + 16) (leBytes 8 ((head + 1) % 2 ^ 64)) with
    | .error e => e.2.stopQueue world q
    | .ok s1 =>
      let l := launchOf s1.nextUid world q head b
      let s2 := { s1 with launches := s1.launches ++ [l], nextUid := s1.nextUid + 1 }
      if !recordOk b l then s2.finishLaunch l statusBadRecord
      else if x.quota < l.scratch then s2.finishLaunch l statusAllotment
      else s2

/-- LAUNCH_RECORD_TAKE. -/
def execLaunchRecordTake (world queue : Nat) (s : State) : Out :=
  let x := s.world world
  if queue ≥ 8 ∨ x.state ≠ .active ∨ !bitOf x.qmask queue ∨ (x.queue queue).stopped ∨ s.queueBusy world queue then .next s
  else
    match s.gpaRead world (x.qtable + 32 * queue) 32 with
    | .error e => .next (e.2.stopQueue world queue)
    | .ok (d, s1) =>
      let base := blkNat d 0 8
      let logn := blkNat d 8 1
      let n := (blkNat d 24 8 + 2 ^ 64 - blkNat d 16 8) % 2 ^ 64
      if base % 128 ≠ 0 ∨ 2 ^ 58 ≤ base ∨ blkNat d 9 7 ≠ 0 ∨ logn < 4 ∨ 16 < logn ∨ 2 ^ logn < n then
        .next (s1.stopQueue world queue)
      else if n = 0 then .next s1
      else .next (s1.takeRecord world queue d)

/-! ### Room for a launch (R41, R45, R47, R338, R360) -/

/-- A `cpym` that has captured a core's next scratchpad generation is outstanding (R338). -/
def State.genHeld (s : State) (core : Nat) : Bool :=
  let g := ((s.coreSt core).gen + 1) % 65536
  s.ops.any fun o => match o.kind with
    | .copy c => c.targets.any fun x => x.core == core && x.gen == g && (x.state == .waiting || x.state == .registered)
    | _ => false

/-- Teams of a launch that fit into `avail`, within what is left of the world's quota on the core; none where its teams exceed the
quota already (R41, R62). -/
def slotsIn (l : Launch) (avail : List Nat) (quotaLeft : Option Nat) : Nat :=
  let fits := (avail.zip l.need).filterMap fun p => if p.2 = 0 then none else some (p.1 / p.2)
  match quotaLeft with
  | none => 0
  | some q => (if l.scratch = 0 then fits else (q / l.scratch) :: fits).foldl min 64

/-- The world's quota not yet used on a core by teams of a list; none where they exceed it. -/
def State.quotaLeft (s : State) (teams : List Team) (world core : Nat) : Option Nat :=
  let used := (usedOn (teams.filter fun t => t.world == world) core).getD 3 0
  if (s.world world).quota < used then none else some ((s.world world).quota - used)

/-- A core's free-slot count for a launch. -/
def State.slotsOn (s : State) (l : Launch) (own : Bool) (core : Nat) : Nat :=
  if s.genHeld core then 0
  else slotsIn l (s.available s.teams core l.world own) (s.quotaLeft s.teams l.world core)

/-- The cores of a cluster. -/
def coresOf (cluster : Nat) : List Nat := (List.range 8).map fun i => 8 * cluster + i

def State.clusterSlots (s : State) (l : Launch) (own : Bool) (cluster : Nat) : Nat :=
  ((coresOf cluster).map (s.slotsOn l own)).foldl (· + ·) 0

/-- Slots for the launch on a module idle of all other work. -/
def State.idleSlots (s : State) (l : Launch) : Nat :=
  128 * slotsIn l (s.available [] 0 l.world false) (some (s.world l.world).quota)

/-- Areas reserved in a world's context pool, ascending. -/
def State.areasUsed (s : State) (world : Nat) : List (Nat × Nat) :=
  ((s.teams.filter fun t => t.world == world && t.ctxLen != 0).map fun t => (t.ctxBase, t.ctxLen)).mergeSort
    fun a b => decide (a.1 ≤ b.1)

/-- The first gap of `size` bytes from `a`, before `top`. -/
def firstFit (size top : Nat) : Nat → List (Nat × Nat) → Option Nat
  | a, [] => if a + size ≤ top then some a else none
  | a, u :: r => if a + size ≤ min u.1 top then some a else firstFit size top (max a (u.1 + u.2)) r

/-- Where a context area of `size` bytes is reserved (R360). -/
def State.reserve (s : State) (world size : Nat) : Option Nat :=
  let x := s.world world
  firstFit size (x.ctxBase + x.ctxLen) x.ctxBase (s.areasUsed world)

/-- How many areas of `size` bytes the gaps before `top` hold. -/
def countFit (size top : Nat) : Nat → List (Nat × Nat) → Nat
  | a, [] => (top - a) / size
  | a, u :: r => (min u.1 top - a) / size + countFit size top (max a (u.1 + u.2)) r

def State.areasFree (s : State) (world size : Nat) : Nat :=
  let x := s.world world
  countFit size (x.ctxBase + x.ctxLen) x.ctxBase (s.areasUsed world)

/-- The launch could never be placed under the allotments, mode and pool in force (R47, R360). -/
def State.noFit (s : State) (l : Launch) : Bool :=
  let n := if l.coop then l.teams else 1
  decide (s.idleSlots l < n) || decide ((s.world l.world).ctxLen / l.area < n)

/-- All teams of a cooperative grid, or one of another launch, can be placed now. -/
def State.placeable (s : State) (l : Launch) (own : Bool) : Bool :=
  let n := if l.coop then l.teams - l.sent else 1
  decide (n ≤ ((List.range 16).map (s.clusterSlots l own)).foldl (· + ·) 0) && decide (n ≤ s.areasFree l.world l.area)

/-! ### Placing a team (R33, R39, R45, R46, R337, R338) -/

/-- Warp slots in use on a core. -/
def State.slotsTaken (s : State) (core : Nat) : List Nat :=
  (s.teams.filter fun t => t.core == core && t.place == .resident).flatMap fun t => t.warps.map Warp.slot

/-- The scheduler with the fewest resident warps that has a free slot, ties to the lowest. -/
def pickScheduler (taken : List Nat) : Nat :=
  let load := fun q => (taken.filter fun x => x % 4 == q).length
  (List.range 4).foldl (fun b q => if load q < load b then q else b) 0

/-- The slots of `n` warps in ascending j (R46). -/
def giveSlots : Nat → List Nat → List Nat
  | 0, _ => []
  | n + 1, taken =>
    let q := pickScheduler taken
    let slot := (((List.range 16).map fun i => 4 * i + q).find? fun x => !taken.contains x).getD 0
    slot :: giveSlots n (slot :: taken)

/-- Warp j of a new team of `threads` threads (R33). -/
def newWarp (l : Launch) (teamId slot j age : Nat) : Warp :=
  let mask := maskWhere fun i => decide (32 * j + i < l.threads)
  let w : Warp := { Warp.zero with slot := slot, active := mask, live := mask, hdr := BitVec.ofNat 64 l.entry, age := age }
  let w1 := (lanesOf mask).foldl (fun (x : Warp) i => x.vset 0 i (BitVec.ofNat 32 (32 * j + i))) w
  (w1.sset 0 (BitVec.ofNat 32 teamId)).sset64 2 (BitVec.ofNat 64 l.args)

/-- The lowest free team entry of a core. -/
def State.freeEntry (s : State) (core : Nat) : Nat :=
  ((List.range 16).find? fun e =>
    !(s.teams.any fun t => t.core == core && t.place == .resident && t.entry == e)).getD 0

/-- A core with the next scratchpad generation taken by an allocation (R338). Which ended allocations' places it takes, so that
their generations stand no more, the manual leaves open (R208). -/
def State.takeGen (s : State) (core : Nat) : Nat × State :=
  let c := s.coreSt core
  let gen := (c.gen + 1) % 65536
  let r := s.pick (2 ^ c.freed.length)
  let kept := ((c.freed.zip (List.range c.freed.length)).filter fun p => bitOf r.1 p.2 && p.1 != gen).map (·.1)
  (gen, r.2.setCore core { c with gen := gen, freed := kept })

/-- A core as an acquire at system scope by a new or restored team leaves it: none of its world's lines in the L1, and no code in
the instruction cache (R74, R215, R219). -/
def State.freshCore (s : State) (core world : Nat) : State :=
  let s1 := s.dropL1 core world
  s1.setCore core { s1.coreSt core with icache := [] }

/-- Values of seeds that a new team's warps may still see: those before writes of warps whose teams have not ended (R138, log 90). -/
def State.oldSeeds (s : State) (world : Nat) : List OldValue :=
  ((s.teams.filter fun t => t.world == world).flatMap fun t =>
    (t.old.filter fun e => (match e.what with
      | .seed _ => true
      | _ => false) && s.teams.any fun u => u.uid == e.writer.1).map fun e =>
        { e with known := [], signal := [], due := [] }).eraseDups

/-- A team of a launch placed on a core with its context area: resources scrubbed, a new scratchpad generation, warps at
ENTRY; its start is an acquire at system scope (R219). -/
def State.startTeam (s : State) (l : Launch) (core area : Nat) : State :=
  let x := s.world l.world
  let g := s.takeGen core
  let slots := giveSlots l.nwarps (s.slotsTaken core)
  let t : Team :=
    { uid := s.nextUid, world := l.world, launch := l.uid, teamId := l.sent, core := core, entry := s.freeEntry core,
      nregs := l.tregs, acc := l.acc, scratchSize := l.scratch, barsMax := x.bars, divd := x.divd, prio := l.prio,
      coop := l.coop, order := s.nextUid, place := .resident, scratch := [], gen := g.1, bars := [], slots := [],
      slotFaults := [], tiles := [], reel := [], asbase := 0, aslimit := 0, astop := 0, old := s.oldSeeds l.world, uprog := none, ctxBase := area,
      ctxLen := l.area, ctxDigest := [], savedBanks := none, preempting := false, capFailed := false, deferred := [],
      warps := (slots.zip (List.range slots.length)).map fun p => newWarp l l.sent p.1 p.2 (64 * s.nextUid + p.2) }
  let s1 := g.2.freshCore core l.world
  let s2 := { s1 with teams := s1.teams ++ [t], nextUid := s1.nextUid + 1 }
  let s3 := s2.updLaunch l.uid fun y =>
    { y with sent := y.sent + 1, start := if y.sent = 0 then s1.nextUid else y.start, state := if y.sent + 1 = y.teams then .dispatched else .dispatching }
  s3.teamReceipts t

/-- The core of a cluster a team goes to: most free warp slots among those that can hold it, ties to the lowest. -/
def State.pickCore (s : State) (l : Launch) (own : Bool) (cluster : Nat) : Option Nat :=
  let free := fun c => 64 - (usedOn s.teams c).getD 0 0
  ((coresOf cluster).filter fun c => decide (0 < s.slotsOn l own c)).foldl (fun (b : Option Nat) c =>
    match b with
    | none => some c
    | some d => if free d < free c then some c else b) none

/-- Up to `n` teams of a launch placed on a cluster, and how many were. -/
def State.placeOn (own : Bool) (cluster : Nat) : Nat → State → Nat → State × Nat
  | 0, s, _ => (s, 0)
  | n + 1, s, uid =>
    match s.findLaunch uid with
    | none => (s, 0)
    | some l =>
      match s.pickCore l own cluster, s.reserve l.world l.area with
      | some core, some area =>
        let r := State.placeOn own cluster n (s.startTeam l core area) uid
        (r.1, r.2 + 1)
      | _, _ => (s, 0)

/-- The cluster with the most free slots for the launch, ties to the lowest (R45). -/
def State.pickCluster (s : State) (l : Launch) (own : Bool) : Nat :=
  (List.range 16).foldl (fun b c => if s.clusterSlots l own b < s.clusterSlots l own c then c else b) 0

/-- One batch of a launch (R45). -/
def State.placeBatch (s : State) (l : Launch) (own : Bool) : State × Nat :=
  let c := s.pickCluster l own
  State.placeOn own c (min (min 64 (s.clusterSlots l own c)) (l.teams - l.sent)) s l.uid

/-- All teams of a cooperative grid placed, batch by batch; `fuel` bounds the batches. -/
def State.placeGrid (own : Bool) : Nat → State → Nat → Nat → State × Nat
  | 0, s, _, n => (s, n)
  | f + 1, s, uid, n =>
    match s.findLaunch uid with
    | none => (s, n)
    | some l =>
      if l.sent = l.teams then (s, n)
      else
        let r := s.placeBatch l own
        if r.2 = 0 then (r.1, n) else State.placeGrid own f r.1 uid (n + r.2)

/-! ### Decisions (R42 to R44, R47) -/

/-- A launch whose teams may be dispatched now: ready in an enabled queue, or begun. -/
def State.canDispatch (s : State) (l : Launch) : Bool :=
  !l.aborted && ((l.state == .ready && bitOf (s.world l.world).qmask l.queue) || l.state == .dispatching)

/-- A cooperative grid of the world that waits at this priority or a higher one (R47). -/
def State.gridWaits (s : State) (world prio uid : Nat) : Bool :=
  s.launches.any fun l => l.world == world && l.uid != uid && l.coop && l.state == .ready
    && bitOf (s.world world).qmask l.queue && decide (l.prio ≤ prio) && !s.placeable l false

/-- The launch a world offers at a priority that can be placed: its queues in round-robin order. -/
def State.offered (s : State) (world prio : Nat) (own : Bool) : Option Launch :=
  (List.range 8).findSome? fun i =>
    let q := ((s.world world).nextQueue + i) % 8
    s.launches.find? fun l => l.world == world && l.queue == q && l.prio == prio && s.canDispatch l
      && s.placeable l own && !s.gridWaits world prio l.uid

/-- One batch, or one cooperative grid, of a world at a priority; how many teams were sent. -/
def State.sendBatch (s : State) (world prio : Nat) (own : Bool) : State × Nat :=
  match s.offered world prio own with
  | none => (s, 0)
  | some l =>
    let r := if l.coop then State.placeGrid own 2048 s l.uid 0 else s.placeBatch l own
    (r.1.setWorld world { r.1.world world with nextQueue := (l.queue + 1) % 8 }, r.2)

/-- Batches sent while the world's deficit is positive and one can be placed (R43); `fuel` bounds them. -/
def State.spend (world prio : Nat) : Nat → State → Nat → State × Nat
  | 0, s, n => (s, n)
  | f + 1, s, n =>
    if (s.world world).deficit ≤ 0 then (s, n)
    else
      let r := s.sendBatch world prio false
      if r.2 = 0 then (s, n)
      else
        State.spend world prio f
          (r.1.setWorld world { r.1.world world with deficit := (r.1.world world).deficit - r.2 }) (n + r.2)

/-- Batches sent into a world's own share (R44). -/
def State.fillShare (world prio : Nat) : Nat → State → Nat → State × Nat
  | 0, s, n => (s, n)
  | f + 1, s, n =>
    let r := s.sendBatch world prio true
    if r.2 = 0 then (s, n) else State.fillShare world prio f r.1 (n + r.2)

/-- A visit to a world at a priority (R43, R44): the teams sent. -/
def State.visit (prio : Nat) (acc : State × Nat) (world : Nat) : State × Nat :=
  let s := acc.1
  let ready := s.launches.filter fun l => l.world == world && s.canDispatch l
  if ready = [] then (s.setWorld world { s.world world with deficit := 0 }, acc.2)
  else if !(ready.any fun l => l.prio == prio) then acc
  else
    let r1 := if s.expert then State.fillShare world prio 2048 s 0 else (s, 0)
    let x := r1.1.world world
    if x.weight = 0 then (r1.1, acc.2 + r1.2)
    else
      let r2 := State.spend world prio 2048 (r1.1.setWorld world { x with deficit := x.deficit + x.weight }) 0
      (r2.1, acc.2 + r1.2 + r2.2)

/-- A launch of a priority could still be placed, so no lower one is served (R42). -/
def State.canServe (s : State) (prio : Nat) : Bool :=
  s.worlds.any fun p => (s.expert && (s.offered p.1 prio true).isSome)
    || (p.2.weight != 0 && (s.offered p.1 prio false).isSome)

/-- The priorities in turn: the first at which teams were sent, or could be, ends the decision. -/
def State.decidePrio : List Nat → State → State
  | [], s => s
  | p :: r, s =>
    let x := (s.worlds.map (·.1)).foldl (State.visit p) (s, 0)
    if x.2 ≠ 0 ∨ x.1.canServe p then x.1 else State.decidePrio r x.1

/-! ### Pre-emption requested (R359, R361) -/

/-- A pre-emption of a team requested: `sleep` and `waitmon` end at the request. -/
def Team.askPreempt (t : Team) : Team :=
  { t with preempting := true, warps := t.warps.map fun w =>
      match w.status with
      | .sleeping => Warp.proceed { w with status := .running }
      | .waitmon => w.wake
      | _ => w }

/-- The teams taken with a team: a cooperative grid whole (R47, R359). -/
def State.takenWith (s : State) (t : Team) : List Nat :=
  if t.coop then (s.teams.filter fun x => x.launch == t.launch).map Team.uid else [t.uid]

def State.requestPreempt (s : State) (uid : Nat) : State :=
  match s.findTeam uid with
  | none => s
  | some t =>
    (s.takenWith t).foldl (fun x u => x.updTeam u fun y => if y.place = .resident ∧ y.released = false then y.askPreempt else y) s

/-- The victim of a priority pre-emption: lowest priority, then most recently dispatched (R359). -/
def State.victim (s : State) (atLeast : Nat) : Option Team :=
  (s.teams.filter fun t => t.place == .resident && !t.released && !t.preempting && decide (atLeast ≤ t.prio)).foldl
    (fun (b : Option Team) t =>
      match b with
      | none => some t
      | some u => if u.prio < t.prio ∨ (u.prio = t.prio ∧ u.order < t.order) then some t else b) none

/-- The priority pre-emption of R359 for the first ready launch that cannot be placed, one victim at a time. -/
def State.askPriority (s : State) : State :=
  let p := s.preemptctl.toNat
  if !bitOf p 0 || s.teams.any (fun t => t.preempting) then s
  else
    let stuck := (s.launches.filter fun l => s.canDispatch l && !s.placeable l false
      && (s.expert || (s.world l.world).weight != 0)).map Launch.prio
    match stuck with
    | [] => s
    | x :: r =>
      match s.victim (r.foldl min x + field p 3 2 + 1) with
      | none => s
      | some t => s.requestPreempt t.uid

/-- Ready launches that could no longer ever be placed fail (R382). -/
def State.failNoFit (s : State) : State :=
  (s.launches.filter fun l => l.state == .ready && s.noFit l).foldl (fun x l => x.finishLaunch l statusNoFit) s

/-- DISPATCH_DECISION. -/
def execDispatchDecision (s : State) : Out := .next (State.decidePrio [0, 1, 2, 3] s.failNoFit).askPriority

/-! ### Dependences (R37, R382) -/

/-- What a reading of a launch's dependences has come to: whether one failed, those met, and the state its reads leave. -/
structure DepRead where
  failed : Bool
  met : List Nat
  state : State

/-- One dependence of a launch read. -/
def DepRead.next (l : Launch) (acc : DepRead) (i : Nat) : DepRead :=
  let d := l.deps.getD i (0, 0)
  match acc.state.hubRead l.world d.1 8 with
  | .error e => { acc with failed := true, state := e.2 }
  | .ok (b, s) =>
    if bitOf (leVal b) 63 then { acc with failed := true, state := s }
    else if d.2 ≤ leVal b then { acc with met := acc.met ++ [i], state := s }
    else { acc with state := s }

/-- The dependences of a launch read that are not met yet. -/
def State.readDeps (s : State) (l : Launch) : DepRead :=
  ((List.range l.ndep).filter fun i => !l.met.contains i).foldl (DepRead.next l) { failed := false, met := l.met, state := s }

/-- DEPENDENCE_CHECK: the launch fails, waits on, or becomes ready and is tested for NO_FIT. -/
def execDependenceCheck (launch : Nat) (s : State) : Out :=
  match s.findLaunch launch with
  | none => .next s
  | some l =>
    if l.state ≠ .waiting then .next s
    else
      let r := s.readDeps l
      if r.failed then .next (r.state.finishLaunch l statusDepFailed)
      else if r.met.length = l.ndep then
        if s.noFit l then .next (r.state.finishLaunch l statusNoFit)
        else .next (r.state.updLaunch launch fun y => { y with met := r.met, state := .ready })
      else .next (r.state.updLaunch launch fun y => { y with met := r.met })

/-! ### The end of a team (R40, R57, R252) -/

/-- Offsets return to zero when no cooperative grid is running: none has a team on a core (R57). -/
def State.settleOffsets (s : State) : State :=
  if s.teams.any fun t => t.coop && t.place == .resident then s else { s with power := { s.power with offsets := [] } }

/-- A team's banks given up (R252). -/
def State.freeBanks (s : State) (uid : Nat) : State :=
  { s with cores := s.cores.map fun p =>
      if p.2.holder = some uid then (p.1, { p.2 with holder := none, banks := Banks.empty }) else p }

/-- The generation of an allocation that ends stands until another takes its place (R208, R338). -/
def State.freeGen (s : State) (t : Team) : State :=
  let c := s.coreSt t.core
  if t.place = .resident then s.setCore t.core { c with freed := c.freed ++ [t.gen] } else s

/-- A launch completes when all its teams have ended; an aborted one, when those it sent have. -/
def State.settleLaunch (s : State) (uid : Nat) : State :=
  match s.findLaunch uid with
  | none => s
  | some l =>
    if l.aborted then (if l.ended = l.sent then s.finishLaunch l statusAborted else s)
    else if l.ended = l.teams then s.finishLaunch l 0
    else s

/-- TEAM_END: all warps exited, every operation complete. -/
def execTeamEnd (team : Nat) (s : State) : Out :=
  match s.findTeam team with
  | none => .next s
  | some t =>
    if !(t.warps.all fun w => w.status == .exited) || s.ops.any (fun o => o.team == team) then .next s
    else
      let s1 := ({ s with teams := s.teams.filter fun x => x.uid != team }.freeBanks team).settleOffsets.freeGen t
      .next ((s1.updLaunch t.launch fun l => { l with ended := l.ended + 1 }).settleLaunch t.launch)

end Sys2Proof.Machine
end

