-- ==== Sys2Proof/Machine/PimEvents.lean ====
section
/-! DEFINITION. The progress of near-bank work: microprograms read, commands translated, rows run by bank processors, blocks
completed, banks shared (R300, R304, R305, R308 to R314). -/

namespace Sys2Proof.Machine

/-! ### pimld and mark (R304, R314) -/

/-- A record of an operation that the hub's near-bank queue posts (R236). -/
def State.postBank (s : State) (o : Op) (code : FaultCode) (addr prog detail : Nat) : State :=
  s.postOpFault o nearBankSource code fun f => { f with addr := addr, prog := prog, detail := detail }

/-- The words of a microprogram read and noted in the world's log (R304, R341): the first word whose read met a data fault, and the
state after. -/
def State.readWords (s : State) (o : Op) (va : Nat) (pas : List Nat) : Option (Nat × FaultCode) × State :=
  let lines := (pas.map lineOf).eraseDups
  let s1 := lines.foldl (fun x l => x.noteMem o.core o.world (logAgent 0 o.core) logRead
    (va + 4 * ((List.range pas.length).find? fun i => lineOf (pas.getD i 0) == l).getD 0) (128 * l) 1) s
  let r := State.readAll (State.loadLine (o.core / 8) o.world) s1 lines
  (r.1.bind fun f => ((List.range pas.length).find? fun i => lineOf (pas.getD i 0) == f.1).map fun i => (i, dataCode f.2), r.2)

/-- PIMLD_COMPLETE: the words read and validated, in the order of the team's `pimld`s. -/
def execPimldComplete (op team : Nat) (s : State) : Out :=
  onOp s op fun o =>
    match o.kind with
    | .pimld va _ pas =>
      if o.team != team || s.markBlocked o || s.ops.any fun x => x.team == o.team && x.kind.isPimld && decide (x.id < o.id) then s
      else
        let r := s.readWords o va pas
        let words := pas.map fun pa => BitVec.ofNat 32 (leVal (r.2.clusterRead (o.core / 8) o.world pa 4))
        match r.1.orElse fun _ => (offending words).map fun i => (i, FaultCode.illegal) with
        | none => (r.2.updTeam o.team fun t => { t with uprog := some { valid := true, words := words } }).retire o
        | some (i, code) =>
          ((r.2.updTeam o.team fun t => { t with uprog := some { valid := false, words := [] } }).postBank o code
            (va + 4 * i) i 0).retire o
    | _ => s

/-- MARK_COMPLETE: what was issued before the `mark` has been performed. -/
def execMarkComplete (op : Nat) (s : State) : Out :=
  onOp s op fun o =>
    match o.kind with
    | .mark before => if s.ops.any fun x => before.contains x.id then s else s.retire o
    | _ => s

/-! ### Commands (R308) -/

/-- The command a block has reached. -/
def PimBlock.command (b : PimBlock) : Option PimCmd := b.cmds[b.cmd]?

/-- Pages a command covers. -/
def PimCmd.npages (c : PimCmd) : Nat := ceilDiv (c.gpa % 16384 + 2048 * c.nrows) 16384

/-- The first covered guest-physical address of a command's page `i`. -/
def PimCmd.pageGpa (c : PimCmd) (i : Nat) : Nat := max c.gpa ((c.gpa / 16384 + i) * 16384)

/-- One page of a command translated and checked (R308). -/
def State.pimPage (s : State) (world gpa : Nat) : Except FaultCode Nat :=
  match s.stage2 world gpa with
  | none => .error .pimXlate
  | some l =>
    if !l.w then .error .pimXlate
    else if !(decide (l.page < usablePages) && s.potWorld l.page == world && s.potState l.page == 1) then .error .owner
    else if !s.potPim l.page then .error .pimXlate
    else .ok l.page

/-- The pages of a command, or the first failing address and its code. -/
def State.pimPages (s : State) (world : Nat) (c : PimCmd) : Nat → Except (FaultCode × Nat) (List Nat)
  | 0 => .ok []
  | n + 1 =>
    match s.pimPages world c n with
    | .error e => .error e
    | .ok ps =>
      match s.pimPage world (c.pageGpa n) with
      | .error e => .error (e, c.pageGpa n)
      | .ok p => .ok (ps ++ [p])

/-- The block of an operation replaced. -/
def State.putBlock (s : State) (o : Op) (b : PimBlock) : State := s.putOp { o with kind := .pimx b }

/-- PIM_COMMAND_START: the current command's pages are translated and checked, and their LLC lines, whichever world's,
leave the LLC; a page that fails stops the block. -/
def execPimCommandStart (op : Nat) (s : State) : Out :=
  onOp s op fun o =>
    match o.kind with
    | .pimx b =>
      match b.command with
      | none => s
      | some c =>
        if o.paused || b.stopped || b.pages.isSome || s.markBlocked o then s
        else
          let s1 := s.walkedGpa o.world ((List.range c.npages).map c.pageGpa)
          match s.pimPages o.world c c.npages with
          | .error e => (s1.putBlock o { b with stopped := true, status := 2 }).postBank o e.1 e.2 b.cmd 0
          | .ok ps =>
            let out := s1.llc.filter fun x => ps.contains (x.line / 128)
            ({ out.foldl State.writeBackLlc s1 with llc := s1.llc.filter fun x => !ps.contains (x.line / 128) }).putBlock o
              { b with pages := some ps }
    | _ => s

/-! ### Rows (R296, R300, R305, R308, R309, R312) -/

/-- The BP of the bank that a physical page lies in (R16, R296). -/
def bankOf (page : Nat) : Nat := bpNumber (pageChannel page) (pageBank page)

/-- The physical page and address of a row of the current command. -/
def PimBlock.rowPage (b : PimBlock) (c : PimCmd) (row : Nat) : Nat :=
  (b.pages.getD []).getD ((c.gpa % 16384 + 2048 * row) / 16384) 0
def PimBlock.rowPa (b : PimBlock) (c : PimCmd) (row : Nat) : Nat :=
  b.rowPage c row * 16384 + (c.gpa + 2048 * row) % 16384

/-- The 256 fields of a row in memory (R298). -/
def State.readRow (s : State) (pa : Nat) : List DWord :=
  (List.range 256).map fun f => BitVec.ofNat 64 (s.readNat (pa + 8 * f) 8)
def rowBytes (row : List DWord) : List Byte := row.flatMap fun f => leBytes 8 f.toNat

/-- Rows dispatched to a bank and not yet run to their ends, of every block, by their places in the dispatch order. -/
def State.bankQueue (s : State) (bank : Nat) : List Nat :=
  s.ops.flatMap fun o => match o.kind with
    | .pimx b => (match b.command with
      | some c => (b.pend.filter fun p => bankOf (b.rowPage c p.2) == bank).map (·.1)
      | none => [])
    | _ => []

/-- A BP as a log's agent (R342). -/
def bpAgent (bp : Nat) : Nat := logAgent 3 bp

/-- A bank's BP has been told to yield and has not resumed (R311). -/
def State.yields (s : State) (bank : Nat) : Bool :=
  match KMap.find s.banks bank with
  | some x => x.yielding
  | none => false

/-- A BP's set of accumulators added into the block's sums (R300). -/
def PimBlock.addSet (b : PimBlock) (set : List Word) : PimBlock :=
  { b with acc := (b.acc.zip set).map fun p => p.1 + p.2 }

/-- Every BP's set added. -/
def PimBlock.addSets (b : PimBlock) : PimBlock := { b.bpAcc.foldl (fun x p => x.addSet p.2) b with bpAcc := [] }

/-- One dispatched row run to its end on its BP. -/
def State.runOneRow (s : State) (o : Op) (b : PimBlock) (c : PimCmd) (p : Nat × Nat) : State × PimBlock :=
  let pa := b.rowPa c p.2
  let bank := bankOf (b.rowPage c p.2)
  let b1 : PimBlock := { b with pend := b.pend.erase p }
  let s1 := s.noteLog o.world 0 (bpAgent bank) logNearBank ((c.gpa + 2048 * p.2) / 64) 32 2048
  let s2 := match KMap.find s1.banks bank with
    | some x => { s1 with banks := KMap.put s1.banks bank { x with yielding := decide (0 < x.queued) } }
    | none => s1
  if c.fill then
    (s2.writeMem none pa (rowBytes (List.replicate 256 (BitVec.ofNat 64 (c.pat + 2 ^ 32 * c.pat)))), b1)
  else
    let words := match b.prog with
      | some m => m.words
      | none => []
    let r := runRow words ((KMap.find b.bpAcc bank).getD [0, 0, 0, 0]) (s2.readRow pa)
    let b2 : PimBlock := { b1 with bpAcc := KMap.put b1.bpAcc bank r.acc }
    (s2.writeMem none pa (rowBytes r.row),
      match r.stop with
      | none => b2
      | some x => { b2 with stopped := true, status := 5, faults := KMap.put b2.faults p.2 x })

/-- Rows that the hub can dispatch now, from `row` on: it dispatches a command's rows in ascending order, each to a BP that runs
no row and does not yield (R308, R309, R311, R312). `used`, the BPs of the rows before. -/
def State.startable (s : State) (b : PimBlock) (c : PimCmd) : Nat → Nat → List Nat → Nat
  | 0, _, _ => 0
  | f + 1, row, used =>
    let bank := bankOf (b.rowPage c row)
    if c.nrows ≤ row ∨ used.contains bank ∨ s.bankQueue bank ≠ [] ∨ s.yields bank then 0
    else 1 + s.startable b c f (row + 1) (bank :: used)

/-- Rows dispatched: the next `n`, each with its place in the order. -/
def PimBlock.dispatch (b : PimBlock) (uid n : Nat) : PimBlock :=
  { b with row := b.row + n, pend := b.pend ++ (List.range n).map fun i => (uid + i, b.row + i) }

/-- The lowest faulting row's record, once every dispatched row has finished (R309). -/
def State.postResidue (s : State) (o : Op) (b : PimBlock) (c : PimCmd) : State :=
  match b.faults with
  | [] => s
  | (row, f, e) :: _ =>
    let bank := bankOf (b.rowPage c row)
    s.postBank o .residue (c.gpa + 2048 * row) b.cmd (f + 256 * e + 1024 * (bank / 32) + 65536 * (bank % 32))

/-- What follows once no dispatched row is left: a stopped block has its record posted, a command whose rows have all
closed gives way to the next. -/
def State.settleRows (s : State) (o : Op) (b : PimBlock) (c : PimCmd) : State :=
  if b.pend ≠ [] then s.putBlock o b
  else if b.stopped then (s.putBlock o { b with pages := none, faults := [] }).postResidue o b c
  else if b.row = c.nrows then s.putBlock o { b with cmd := b.cmd + 1, row := 0, pages := none }
  else s.putBlock o b

/-- A bank whose BP yields may have had its queue emptied by now: the BP goes on (R311). -/
def State.emptyQueue (s : State) (bank : Nat) : State :=
  match KMap.find s.banks bank with
  | some x =>
    let r := s.pick 2
    if x.yielding ∧ r.1 = 1 then { r.2 with banks := KMap.erase r.2.banks bank } else r.2
  | none => s

/-- One row of a block's current command: any number of rows that can be are dispatched, and one of those that run comes to its
end; which and how many, the manual leaves open. -/
def runRowOf (fill : Bool) (op : Nat) (s : State) : Out :=
  onOp s op fun o =>
    match o.kind with
    | .pimx b =>
      match b.command with
      | none => s
      | some c =>
        if c.fill != fill || o.paused || b.pages.isNone then s
        else
          let s0 := s.emptyQueue (bankOf (b.rowPage c b.row))
          let m := if b.stopped then 0 else s0.startable b c (c.nrows - b.row) b.row []
          let r := s0.pick (m + 1)
          let n := if b.pend = [] then max (min 1 m) r.1 else r.1
          let b1 := b.dispatch r.2.nextUid n
          let s1 := ({ r.2 with nextUid := r.2.nextUid + n }).putBlock o b1
          let q := s1.pick b1.pend.length
          match b1.pend[q.1]? with
          | none => s1
          | some p =>
            let x := q.2.runOneRow o b1 c p
            x.1.settleRows o x.2 c
    | _ => s

/-- BP_ROW (R305). -/
def execBpRow (op : Nat) (s : State) : Out := runRowOf false op s

/-- BP_FILL_ROW (R308). -/
def execBpFillRow (op : Nat) (s : State) : Out := runRowOf true op s

/-- The dispatched rows of a block, each the only one on its bank, run to their ends, as at a pause (R312, R316). -/
def State.finishRows (s : State) (o : Op) (b : PimBlock) : State :=
  match b.command with
  | none => s
  | some c =>
    let r := b.pend.foldl (fun (x : State × PimBlock) p => x.1.runOneRow o x.2 c p) (s, b)
    r.1.settleRows o r.2 c

/-! ### The end of a block (R310) -/

/-- PIM_BLOCK_COMPLETE: accumulators, FIRST, ROWDONE and STATUS, the barrier, the token and counter. -/
def execPimBlockComplete (op : Nat) (s : State) : Out :=
  onOp s op fun o =>
    match o.kind with
    | .pimx b =>
      if o.paused || b.pend ≠ [] || !(b.stopped || decide (b.cmds.length ≤ b.cmd)) then s
      else
        let sums := b.addSets.acc
        let s1 := s.devWrite o.core (o.blkpa + 16) (sums.flatMap fun x => leBytes 4 x.toNat)
        let s2 := s1.devWrite o.core (o.blkpa + 8) (leBytes 4 b.cmd ++ leBytes 4 b.row)
        let s3 := s2.devWrite o.core (o.blkpa + 4) [BitVec.ofNat 8 b.status]
        let s4 := if b.baren then s3.updTeam o.team fun t => t.arrive b.bar 1 none else s3
        s4.retire o
    | _ => s

/-! ### Sharing the bank (R311) -/

/-- ORDINARY_BANK_REQUEST: a request that reaches a bank whose BP runs a row is queued. -/
def execOrdinaryBankRequest (bank : Nat) (s : State) : Out :=
  if 2048 ≤ bank ∨ s.bankQueue bank = [] then .next s
  else
    let x := (KMap.find s.banks bank).getD { queued := 0, yielding := false }
    .next { s with banks := KMap.put s.banks bank { x with queued := x.queued + 1 } }

/-- BP_YIELD_WINDOW_EXPIRE: the BP goes on; how many requests have been served, the manual leaves open. -/
def execBpYieldWindowExpire (bank : Nat) (s : State) : Out :=
  match KMap.find s.banks bank with
  | none => .next s
  | some x =>
    if !x.yielding then .next s
    else
      let r := s.pick (x.queued + 1)
      if r.1 = 0 then .next { r.2 with banks := KMap.erase r.2.banks bank }
      else .next { r.2 with banks := KMap.put r.2.banks bank { queued := r.1, yielding := false } }

end Sys2Proof.Machine
end

