-- ==== Sys2Proof/Machine/Preempt.lean ====
section
/-! DEFINITION. Resuming suspended and parked work, pre-emption, restore and the watchdog (R209, R229, R351 to R354, R359 to
R362, R364). -/

namespace Sys2Proof.Machine

/-! ### Leaving suspension (R351, R357) -/

/-- A record of a source has not entered its queue yet (R236, R356). -/
def State.recordWaits (s : State) (world source seq : Nat) : Bool :=
  match KMap.find s.sources (sourceKey world source) with
  | some x => x.pending.any fun r => leVal ((r.drop 4).take 4) == seq
  | none => false

/-- The warp a fault record's SOURCE and SEQ suspended, in a world, once the record has entered the queue: a warp whose record
waits stays suspended (R356). -/
def State.suspendedBy (s : State) (world source seq : Nat) : Option (Team × Nat × Warp) :=
  if s.recordWaits world source seq then none else (s.teams.filter fun t => t.world == world).findSome? fun t =>
    (List.range t.warps.length).findSome? fun j =>
      match t.warp j with
      | some w =>
        match w.status with
        | .suspended a b _ _ => if a = source ∧ b = seq then some (t, j, w) else none
        | _ => none
      | none => none

/-- The clause a suspended warp stands in: the one it runs, or the one its header names now. -/
def State.clauseOf (s : State) (t : Team) (w : Warp) : Option Header :=
  match w.clause with
  | some h => some h
  | none =>
    match s.fetchWord t w.hdr.toNat with
    | .ok v => decodeHeader v
    | .error _ => none

/-- The word at the PC is a `rep` (R151). -/
def State.atRep (s : State) (t : Team) (w : Warp) : Bool :=
  match s.fetchWord t w.wordAddr.toNat with
  | .ok v => field v 31 26 == 0x0C
  | .error _ => false

/-- The warp past its word, and past a `rep`'s repeated word too unless the `rep` was its clause's last (R69, R351). -/
def Warp.skipWord (w : Warp) (rep : Bool) : Warp :=
  if rep then
    let w1 := Warp.advance { w with repcnt := 0 }
    if w.idx + 1 < w.count then w1.advance else w1
  else w.advance

/-- The warp as it goes on: at the instruction again (at index 0, from the header), or past it. -/
def State.resumed (s : State) (t : Team) (w : Warp) (skip : Bool) : Warp :=
  let w1 : Warp := { w with status := .running }
  if skip then
    match s.clauseOf t w with
    | none => w1
    | some h => Warp.skipWord { w1 with clause := some h } (s.atRep t w)
  else if w.idx = 0 then { w1 with clause := none }
  else w1

/-- RESUME performed: a `trap` goes on past it whatever SKIP says (R357). -/
def State.resumeWarp (s : State) (world source seq : Nat) (skip : Bool) : State :=
  match s.suspendedBy world source seq with
  | none => s
  | some (t, j, w) =>
    let trap := match w.status with
      | .suspended _ _ _ b => b
      | _ => false
    s.updWarp t.uid j fun _ => s.resumed t w (skip || trap)

/-! ### Parked operations (R209, R353, R354) -/

/-- The generations a resumed `cpym`'s beats carry: those its open targets resident on the sender's cluster have now (R13,
R209). -/
def State.recapture (s : State) (core : Nat) (c : Copy) (again : Bool) : Copy :=
  { c with targets := c.targets.map fun (g : CopyTgt) =>
      if g.state = .waiting ∨ g.state = .registered then
        let st := if again then TgtState.waiting else g.state
        match s.findTeam g.team with
        | some t => if t.place = .resident ∧ t.core / 8 = core / 8 then { g with gen := t.gen, core := t.core, state := st } else { g with state := st }
        | none => { g with state := st }
      else g }

/-- The parked operation a RID names in a world. -/
def State.parkedAs (s : State) (world rid : Nat) : Option Op :=
  if rid = 0 then none else s.ops.find? fun o => o.world == world && o.parked == some rid

/-- OP_RESUME performed: the operation goes on from its next element. -/
def State.resumeOp (s : State) (world rid : Nat) : State :=
  match s.parkedAs world rid with
  | none => s
  | some o =>
    match o.kind with
    | .copy c => s.putOp { o with parked := none, trouble := none, kind := .copy (s.recapture o.core c false) }
    | _ => s

/-- OP_ABANDON performed (R354). -/
def State.abandonParked (s : State) (world rid : Nat) : State :=
  match s.parkedAs world rid with
  | none => s
  | some o => s.abandon o true

/-- A command that waited for a team's restore (R361). -/
def State.performDeferred (w : Nat) (s : State) (e : Deferred) : State :=
  match e with
  | .resume source seq skip => s.resumeWarp w source seq skip
  | .opResume rid => s.resumeOp w rid
  | .opAbandon rid => s.abandonParked w rid

/-! ### The context area (R360) -/

/-- Bytes of a context image whose layout the manual gives, with their offsets: slots, microprogram, Reel entries, tiles,
vector registers, poison marks and scratchpad; registers stand warp by warp, register by register. -/
def Team.image (t : Team) : List (Nat × List Byte) :=
  let n := t.warps.length
  let words := match t.uprog with
    | some m => m.words
    | none => []
  let regs := t.warps.flatMap fun w => (List.range (32 * t.nregs)).flatMap fun k => leBytes 4 (Sparse.get 0 w.vregs k).toNat
  let marks := t.warps.flatMap fun w => (List.range t.nregs).flatMap fun r =>
    leBytes 4 (maskWhere fun l => (KMap.find w.poison (vkey r l)).isSome).toNat
  let tiles := (List.range t.acc).flatMap fun z => (List.range 4096).flatMap fun e =>
    leBytes 8 (Sparse.get 0 ((KMap.find t.tiles z).getD Tile.zero).elems e).toNat
  let a := 319232 + 36864 * t.acc
  [(256, Sparse.getN 0 t.slots 0 2048),
   (55552, (List.range 256).flatMap fun i => leBytes 4 (words.getD i 0).toNat),
   (319232, (List.range (512 * t.acc)).flatMap fun i => leBytes 8 (Sparse.get 0 t.reel i).toNat),
   (319232 + 4096 * t.acc, tiles),
   (a, regs),
   (a + 128 * n * t.nregs, marks),
   (a + 132 * n * t.nregs, t.scratchRead 0 t.scratchSize)]

/-- The parts whose layout is the device's own: team header, warp records, paused-operation records, banks. -/
def ownParts : List (Nat × Nat) := [(0, 256), (2304, 32768), (51456, 4096), (56576, 262656)]

/-- Bytes put at a place of the context area that has been checked. -/
def State.putArea (s : State) (t : Team) (p : Nat × List Byte) : State :=
  (s.storeVirt { team := t.uid, teamId := t.teamId, warp := 0xFF, core := t.core, hdr := 0, idx := 0, va := 0 } t.world
    (t.ctxBase + p.1) p.2).2

/-- The context written to its area (R360, R361). -/
def State.writeContext (s : State) (t : Team) : State :=
  let parts := ownParts.map fun p => (p.1, (List.range p.2).map fun i => Config.freeByte (s.fresh + p.1 + i))
  (parts ++ t.image).foldl (fun x p => x.putArea t p) { s with fresh := s.fresh + 319232 }

/-- SHA3-256 of the area without the return-stack spill and the trap frames (R360), or the fault that its reading meets, and the
state after. -/
def State.areaDigest (s : State) (t : Team) : Except (FaultCode × Nat) (List Byte) × State :=
  match s.readVirt t.core t.world none t.ctxBase t.ctxLen with
  | (.error e, s1) => (.error e, s1)
  | (.ok b, s1) => (.ok (sha3 (b.take 35072 ++ b.drop 51456)), s1)

/-! ### Saving a team (R229, R238, R316, R361) -/

/-- A warp that has exited or whose PC is at index 0 of a clause. -/
def Warp.takeable (w : Warp) : Bool := w.status == .exited || w.atStart

/-- An operation that a pre-emption need not let drain: a copy, a stack copy, a command block (R361). What a copy has read ahead of
its writes goes on with it. -/
def Op.pausable (o : Op) : Bool :=
  match o.kind with
  | .copy _ | .stackCopy _ | .pimx _ => true
  | _ => false

/-- A team that can be saved now: asked for and not ended, every warp takeable, its other operations drained. -/
def State.savable (s : State) (t : Team) : Bool :=
  t.place == .resident && !t.released && t.preempting && (t.warps.all Warp.takeable)
    && s.ops.all fun o => o.team != t.uid || o.parked.isSome || o.pausable

/-- An operation paused: a stack copy that may run at a 64-byte boundary no earlier than where it stood, a block once its dispatched
rows have finished and its accumulator sums are whole. -/
def State.pauseOp (s : State) (o : Op) : State :=
  match o.kind with
  | .stackCopy c =>
    if !s.mayRun o then s.putOp { o with paused := true }
    else
      let r := s.pick ((c.bytes - c.next) / 64 + 1)
      let upto := c.next + 64 * r.1
      let q := r.2.readStack o c upto
      match q.1 with
      | none => (q.2.moveStack o c upto).putOp { o with paused := true, kind := .stackCopy { c with next := upto } }
      | some f => q.2.stopStack o c f
  | .pimx b =>
    let s1 := s.finishRows o b
    match (s1.findOp o.id).map Op.kind with
    | some (.pimx b1) => s1.putOp { o with paused := true, kind := .pimx { b1.addSets with pages := none } }
    | _ => s1
  | _ => s.putOp { o with paused := true }

/-- A warp as it is saved: blocked at index 0, it issues its instruction again. -/
def Warp.saved (w : Warp) : Warp :=
  let w1 : Warp := { w with yielded := false, skip := 0, monitors := [] }
  match w.status with
  | .exited | .suspended _ _ _ _ => w1
  | _ => { w1 with status := .running, clause := none }

/-- The entries of multicasts to a team leave its scoreboard with it. -/
def State.dropTargets (s : State) (uid : Nat) : State :=
  { s with ops := s.ops.map fun (o : Op) =>
      match o.kind with
      | .copy c =>
        { o with kind := .copy { c with targets := c.targets.map fun (g : CopyTgt) =>
            if g.team = uid ∧ g.state = .registered then { g with state := .waiting } else g } }
      | _ => o }

/-- One team saved: its operations pause, the context is written as a release at device scope, and its slots, banks and
scratchpad are freed. -/
def State.saveTeam (s : State) (uid : Nat) : State :=
  match s.findTeam uid with
  | none => s
  | some t =>
    if t.released then s
    else match s.checkRange t.core t.world t.ctxBase t.ctxLen .write with
    | .error e => s.abortTeam uid .abort e.2
    | .ok _ =>
      let mine := s.ops.filter fun o => o.team == uid
      let s1 := (mine.foldl State.pauseOp s).dropTargets uid
      match s1.findTeam uid with
      | none => s1
      | some t1 =>
        match ((s1.drainWorld (t.core / 8) t.world).writeContext t1).areaDigest t1 with
        | (.error e, s2) => s2.abortTeam uid .abort e.2
        | (.ok d, s2) =>
          let c := s2.coreSt t.core
          let banks := if c.holder = some uid then some c.banks else none
          (s2.updTeam uid fun x =>
            { x with place := .saved, preempting := false, capFailed := false, ctxDigest := d, savedBanks := banks,
                     warps := x.warps.map Warp.saved }).freeBanks uid |>.settleOffsets

/-- PREEMPT_SAVE: a team, or a cooperative grid whole. -/
def execPreemptSave (team : Nat) (s : State) : Out :=
  match s.findTeam team with
  | none => .next s
  | some t =>
    let us := s.takenWith t
    if us.all fun u => (match s.findTeam u with
        | some x => x.released || s.savable x
        | none => true) && !t.released then .next (us.foldl State.saveTeam s)
    else .next s

/-- PREEMPT_CANCEL: some live warp is not takeable; every stopped warp continues. -/
def execPreemptCancel (team : Nat) (s : State) : Out :=
  match s.findTeam team with
  | none => .next s
  | some t =>
    let us := s.takenWith t
    let late := us.any fun u => match s.findTeam u with
      | some x => x.preempting && x.warps.any fun w => !w.takeable
      | none => false
    if late then .next (us.foldl (fun x u => x.updTeam u fun y => { y with preempting := false }) s) else .next s

/-! ### Restoring a team (R337, R338, R362) -/

/-- What the allotments in force no longer admit of a saved context (R362). -/
def State.overCapacity (s : State) (t : Team) : Bool :=
  let x := s.world t.world
  (t.warps.any fun w => decide (x.divd + 1 < w.stack.length) || w.arrivals.any fun a => decide (x.bars < a.1))
    || (t.bars.any fun b => decide (x.bars < b.1) && (b.2.a != 0 || b.2.e.isSome))
    || decide (x.quota < t.scratchSize)

/-- Scoreboard entries a team's paused operations register again. -/
def State.pausedEntries (s : State) (uid : Nat) : Nat :=
  (s.ops.filter fun o => o.team == uid && (!o.reads.isEmpty || !o.writes.isEmpty)).length

/-- Scoreboard entries in use on a core (R205). -/
def State.entriesOn (s : State) (core : Nat) : Nat :=
  (s.ops.flatMap fun o => o.entries.filter fun e =>
    match s.findTeam e.1 with
    | some t => t.core == core
    | none => false).length

/-- A saved team fits on a core: slots, registers, team entry, scratchpad and its quota, tiles, banks, scoreboard, and no
captured generation stands in the way (R41, R62, R229, R338, R362). -/
def State.fitsOn (s : State) (t : Team) (core : Nat) : Bool :=
  ((s.available s.teams core t.world false).zip t.need).all (fun p => decide (p.2 ≤ p.1))
    && (match s.quotaLeft s.teams t.world core with
      | some q => decide (t.scratchSize ≤ q)
      | none => false) && !s.genHeld core
    && (t.savedBanks.isNone || (s.coreSt core).holder.isNone)
    && decide (s.entriesOn core + s.pausedEntries t.uid ≤ 64)

/-- A saved team of a higher priority could be restored somewhere: it goes first. -/
def State.higherWaits (s : State) (t : Team) : Bool :=
  s.teams.any fun u => u.place == .saved && !u.released && !u.capFailed && decide (u.prio < t.prio) && !s.overCapacity u
    && (List.range 128).any fun c => s.fitsOn u c

/-- The records of a restore that raised F_CAPACITY: to the world, and to world 0. -/
def State.postCapacity (s : State) (t : Team) : State :=
  (s.postTeamFault t .capacity 0).post evCapacity 0 hubSource
    (leBytes 1 t.world ++ leBytes 3 0 ++ leBytes 4 t.teamId ++ leBytes 12 0)

/-- A warp of a restored team in its slot; it has a new place in its scheduler's order (R48). -/
def restoredWarp (age slot : Nat) (w : Warp) : Warp := { w with slot := slot, age := age }

/-- The team's paused operations register again on its core. -/
def State.reregister (s : State) (uid core : Nat) : State :=
  { s with ops := s.ops.map fun (o : Op) =>
      if o.team = uid then
        { o with core := core, paused := false, kind := match o.kind with
            | .copy c => .copy (s.recapture core c true)
            | k => k }
      else o }

/-- One saved team put on a core: scrub and receipts, a new generation, the context, the operations, the commands that
waited; an acquire at device scope. -/
def State.restoreOn (s : State) (uid core : Nat) : State :=
  match s.findTeam uid with
  | none => s
  | some t =>
    match s.areaDigest t with
    | (.error e, s) => s.abortTeam uid .abort e.2
    | (.ok d, s) =>
      if d ≠ t.ctxDigest then s.abortTeam uid .integrity 0
      else
        let x := s.world t.world
        let g := s.takeGen core
        let slots := giveSlots t.warps.length (s.slotsTaken core)
        let ws := ((t.warps.zip slots).zip (List.range slots.length)).map fun p =>
          restoredWarp (64 * s.nextUid + p.2) p.1.2 p.1.1
        let t1 : Team :=
          { t with place := .resident, core := core, entry := s.freeEntry core, gen := g.1, barsMax := x.bars,
                   divd := x.divd, savedBanks := none, ctxDigest := [], deferred := [], warps := ws }
        let s0 := g.2.freshCore core t.world
        let c := s0.coreSt core
        let c1 : CoreSt := match t.savedBanks with
          | some b => { c with holder := some uid, banks := b }
          | none => c
        let s1 := (({ s0 with nextUid := s.nextUid + 1 }.setCore core c1).putTeam t1).teamReceipts t1
        t.deferred.foldl (State.performDeferred t.world) (s1.reregister uid core)

/-- A core for each of a grid's teams, the named team on the named one; which of the fitting cores, the manual leaves
open. -/
def State.placeSaved (team core : Nat) : List Nat → State → Option State
  | [], s => some s
  | u :: r, s =>
    match s.findTeam u with
    | none => State.placeSaved team core r s
    | some t =>
      if t.place ≠ .saved ∨ t.released then State.placeSaved team core r s
      else
        let fits := (List.range 128).filter fun c => s.fitsOn t c
        let p := s.pick fits.length
        let c := if u = team then (if fits.contains core then some core else none) else fits[p.1]?
        match c with
        | none => none
        | some c => State.placeSaved team core r (p.2.restoreOn u c)

/-- TEAM_RESTORE. -/
def execTeamRestore (team core : Nat) (s : State) : Out :=
  match s.findTeam team with
  | none => .next s
  | some t =>
    let us := s.takenWith t
    let ts := us.filterMap fun u => s.findTeam u
    if t.place ≠ .saved ∨ t.released ∨ 128 ≤ core ∨ ts.any (fun u => u.capFailed) ∨ s.higherWaits t then .next s
    else
      match ts.find? fun u => u.place == .saved && !u.released && s.overCapacity u with
      | some u => .next ((us.foldl (fun x i => x.updTeam i fun y => { y with capFailed := true }) s).postCapacity u)
      | none => .next ((State.placeSaved team core us s).getD s)

/-! ### The watchdog (R364) -/

/-- The live warps of a team that are not suspended, by index. -/
def Team.awake (t : Team) : List Nat :=
  (List.range t.warps.length).filter fun j => match t.warp j with
    | some w => (match w.status with
      | .exited | .suspended _ _ _ _ => false
      | _ => true)
    | none => false

/-- A warp suspended with F_WATCHDOG where it stands. -/
def State.watchWarp (uid : Nat) (s : State) (j : Nat) : State :=
  match s.findWarp uid j with
  | none => s
  | some (t, w) => s.suspend t j { w with monitors := [] } { code := .watchdog }

/-- WATCHDOG_EXPIRE: the team has been idle for LIMIT ms; its awake warps are suspended, and SAVE pre-empts it. -/
def execWatchdogExpire (team : Nat) (s : State) : Out :=
  match s.findTeam team with
  | none => .next s
  | some t =>
    let ctl := (s.world t.world).wdctl.toNat
    if t.place ≠ .resident ∨ !bitOf ctl 0 ∨ t.awake = [] then .next s
    else
      let s1 := t.awake.foldl (State.watchWarp team) s
      .next (if bitOf ctl 1 then s1.requestPreempt team else s1)

end Sys2Proof.Machine
end

