-- ==== Sys2Proof/Machine/Host.lean ====
section
/-! DEFINITION. The host port: frames accepted and answered, sessions, attestation and release, WRITE, READ and KICK, Neighbor
Discovery (R317, R341 to R347, R365 to R372, R376, R384). -/

namespace Sys2Proof.Machine

/-! ### Statuses and responses (R366, R368) -/

def stOk : Nat := 0x0000
def stDenied : Nat := 0x0001
def stBusy : Nat := 0x0002
def stBadAddr : Nat := 0x0003
def stBadTag : Nat := 0x0004
def stLayoutStale : Nat := 0x0005
def stNoSpace : Nat := 0x0006
def stBadImage : Nat := 0x0007
def stBadPlace : Nat := 0x0008
def stInUse : Nat := 0x0009
def stNotSuspended : Nat := 0x000A
def stNoOperation : Nat := 0x000B
def stBootFailed : Nat := 0x000C
def stBadRequest : Nat := 0x000D

/-- A response's payload. -/
def response (status : Nat) (results : List Byte) : List Byte := leBytes 2 status ++ leBytes 2 0 ++ results

/-- What a request comes to: it is not complete yet, it is refused with a status and results, it has failed so in being performed,
or it has been performed, with results. -/
inductive Reply where
  | wait (s : State)
  | refused (status : Nat) (results : List Byte)
  | failed (s : State) (status : Nat) (results : List Byte)
  | done (s : State) (results : List Byte)

/-- A refusal whose response carries no results. -/
def Reply.refuse (status : Nat) : Reply := .refused status []

/-- An address refused (R368). -/
def Reply.badAddr (a : Nat) : Reply := .refused stBadAddr (leBytes 8 a)

/-- An access that failed at an address, with the state that its reads and lost packets leave (R333, R335, R371). -/
def Reply.lost (e : Nat × State) : Reply := .failed e.2 stBadAddr (leBytes 8 e.1)

/-- Checks in order: each is a condition and the refusal it leads to (R384). -/
def checks (l : List (Bool × Nat)) (k : Reply) : Reply :=
  match l.find? fun c => c.1 with
  | some c => .refuse c.2
  | none => k

/-! ### HCT frames (R365, R366) -/

/-- The header of a frame. -/
structure FrameHeader where
  ver : Nat
  ty : Nat
  flags : Nat
  session : Nat
  seq : Nat
  rtag : Nat
  len : Nat
  reserved : Nat
  deriving DecidableEq, Repr, Inhabited

/-- The header that a datagram begins with. -/
def frameHeader (b : List Byte) : FrameHeader :=
  { ver := blkNat b 0 1, ty := blkNat b 1 1, flags := blkNat b 2 2, session := blkNat b 4 4, seq := blkNat b 8 8,
    rtag := blkNat b 16 4, len := blkNat b 20 4, reserved := blkNat b 24 8 }

/-- The 32 bytes of a header. -/
def FrameHeader.bytes (h : FrameHeader) : List Byte :=
  leBytes 1 h.ver ++ leBytes 1 h.ty ++ leBytes 2 h.flags ++ leBytes 4 h.session ++ leBytes 8 h.seq ++ leBytes 4 h.rtag
    ++ leBytes 4 h.len ++ leBytes 8 h.reserved

/-- The header's fixed bits are zero and LEN counts the payload, of `n` bytes. -/
def FrameHeader.formOk (h : FrameHeader) (n : Nat) : Bool := field h.flags 15 1 == 0 && h.reserved == 0 && h.len == n

/-- Nonce of a sealed payload: the direction, 1 from the module, and SEQ. -/
def frameNonce (sent : Bool) (seq : Nat) : Nat := boolBit sent * 2 ^ 64 + seq

/-- Bytes of the tag after a sealed payload. -/
def tagBytes : Nat := 16

/-- The payload of a frame that arrives in a session, unsealed; none where its tag fails (R366). -/
def Session.unseal (x : Session) (b : List Byte) : Option (List Byte) :=
  let body := b.drop 32
  let n := body.length - tagBytes
  Config.gcmOpen x.key (leBytes 12 (frameNonce false (frameHeader b).seq)) (b.take 32) (body.take n) (body.drop n)

/-- A frame as the module sends it: header, payload, and, in a session, the payload sealed under its key (R365, R366). -/
def State.frameBytes (s : State) (f : Frame) : List Byte :=
  let h : FrameHeader :=
    { ver := 1, ty := f.ty, flags := boolBit f.resp, session := f.session, seq := f.seq, rtag := f.rtag, len := f.payload.length,
      reserved := 0 }
  match KMap.find s.sessions f.session with
  | none => h.bytes ++ f.payload
  | some x =>
    let c := Config.gcmSeal x.key (frameNonce true f.seq) h.bytes f.payload
    h.bytes ++ c.1 ++ c.2

/-- UDP port of the module, and the largest Ethernet frame it accepts. -/
def hctPort : Nat := 19506
def maxFrame : Nat := 9216

/-- A sessioned frame that its session discards: no such session, a tag that fails, a SEQ that is not later (R366). -/
def State.badSessioned (s : State) (b : List Byte) : Bool :=
  let h := frameHeader b
  match KMap.find s.sessions h.session with
  | none => true
  | some x => (x.unseal b).isNone || decide (h.seq ≤ x.rxSeq)

/-- What the port discards without reply (R365, R366): a frame too large, one that is neither UDP over IPv6 nor Neighbor
Discovery, a router advertisement, another UDP port, no whole header, another VER, and what a session discards. -/
def State.discards (s : State) (f : EthernetFrame) : Bool :=
  decide (maxFrame < f.size) ||
    (match f.body with
      | .other | .routerAdvertisement => true
      | .udp port b =>
        port != hctPort || decide (b.length < 32) || (frameHeader b).ver != 1
          || ((frameHeader b).session != 0 && s.badSessioned b))

/-! ### Frames of a session (R365, R366, R370, R372) -/

/-- A frame is accepted: its SEQ is greater than the last accepted and the session's earlier request is complete, or it is the
very request under way. Whether it is under way, and the session's new state. -/
def Session.accept (x : Session) (seq : Nat) (req : Option LongRequest) : Option (Bool × Session) :=
  match x.underWay with
  | some q => if req = some q then some (true, x) else none
  | none => if x.rxSeq < seq then some (false, { x with rxSeq := seq }) else none

/-- The session of a frame changed, if it still stands. -/
def State.updSession (s : State) (k : Nat) (f : Session → Session) : State :=
  match KMap.find s.sessions k with
  | some v => s.setSession k (f v)
  | none => s

/-- The answer to a request: the response is sent once it is complete, and a performed MGMT request is remembered with its
response. -/
def State.answer (s : State) (h : MsgHead) (ty : Nat) (req : Option LongRequest) (r : Reply) : State :=
  let refuse := fun (x : State) (st : Nat) (res : List Byte) =>
    (x.updSession h.session fun v => { v with underWay := none }).sendFrame h.session ty true h.rtag (response st res)
  match r with
  | .wait s1 => s1.updSession h.session fun v => { v with underWay := req }
  | .refused st res => refuse s st res
  | .failed s1 st res => refuse s1 st res
  | .done s1 res =>
    let p := response stOk res
    (s1.updSession h.session fun v =>
      { v with underWay := none, remembered := if ty = 0x13 then ((h.rtag, p) :: v.remembered).take 64 else v.remembered
      }).sendFrame h.session ty true h.rtag p

/-- A frame of a session: `f` is given the session, whether the request is under way already, and the state with the frame
accepted. A frame that is not accepted is discarded or waits; `req` names a request that may stay under way. -/
def onFrame (h : MsgHead) (ty : Nat) (req : Option LongRequest) (s : State) (f : Session → Bool → State → Reply) : Out :=
  match KMap.find s.sessions h.session with
  | none => .next s
  | some x =>
    match x.accept h.seq req with
    | none => .next s
    | some (again, y) =>
      let s1 := s.setSession h.session y
      .next (s1.answer h ty req (f y again s1))

/-- A request of WRITE, READ, KICK or CLOSE: malformed when `ok` is false. -/
def onRequest (h : MsgHead) (ty : Nat) (ok : Bool) (s : State) (f : Session → State → Reply) : Out :=
  onFrame h ty none s fun x _ s1 => checks [(!h.formOk || !ok, stBadRequest)] (f x s1)

/-- A MGMT request: a remembered one is answered with its stored response; a malformed one is refused; then one the sender's
world may not send (R370, R384). `req` names a request that may stay under way. -/
def onMgmtAs (req : Option LongRequest) (h : MsgHead) (ok : Bool) (allowed : Nat → Bool) (s : State)
    (f : Session → Bool → State → Reply) : Out :=
  match KMap.find s.sessions h.session with
  | none => .next s
  | some x =>
    match x.accept h.seq req, x.remembered.find? fun p => p.1 == h.rtag with
    | some (false, y), some p => .next ((s.setSession h.session y).sendFrame h.session 0x13 true h.rtag p.2)
    | _, _ =>
      onFrame h 0x13 req s fun x again s1 =>
        checks [(!h.formOk || !ok, stBadRequest), (!allowed x.world, stDenied)] (f x again s1)

/-- A MGMT request that is complete at once. -/
def onMgmt (h : MsgHead) (ok : Bool) (allowed : Nat → Bool) (s : State) (f : Session → State → Reply) : Out :=
  onMgmtAs none h ok allowed s fun x _ s1 => f x s1

/-- A request without a session: its response, or BOOT_FAILED (R376). -/
def onPlain (ty rtag : Nat) (s : State) (r : Reply) : Out :=
  let send := fun (x : State) (p : List Byte) => Host.Outcome.next (x.sendPlain ty rtag p)
  match s.boot with
  | .failed step ad => send s (response stBootFailed (leBytes 1 step ++ leBytes 1 ad ++ leBytes 6 0))
  | _ =>
    match r with
    | .wait x => .next x
    | .refused st res => send s (response st res)
    | .failed x st res => send x (response st res)
    | .done x res => send x (response stOk res)

/-! ### OPEN and CLOSE (R366) -/

/-- The credential a world's OPEN is checked against. -/
def State.credentialOf (s : State) (world : Nat) : Option (List Byte) :=
  if world = 0 then some Config.ownerCredential else (s.world world).credential

/-- A session number not in use; which one, the manual leaves open. -/
def State.freeSession (s : State) : Nat :=
  let c := Config.freeNat s.fresh
  ((List.range 129).map fun i => (c + i) % (2 ^ 32 - 1) + 1).find? (fun n => (KMap.find s.sessions n).isNone) |>.getD 0

/-- OPEN. -/
def execOpenSession (rtag : Nat) (formOk : Bool) (world : Nat) (nonce ciphertext signature : List Byte) (s : State) : Out :=
  let ok := formOk && decide (world ≤ 31) && nonce.length == 32 && ciphertext.length == 1088 && signature.length == 2420
  let proven := (s.world world).state == .active && (match s.credentialOf world with
    | some c => Config.verify c (leBytes 2 world ++ nonce ++ ciphertext) signature
    | none => false)
  let held := (s.sessions.filter fun p => p.2.world == world).length
  let n := s.freeSession
  let x : Session :=
    { world := world, rxSeq := 0, txSeq := 1, order := s.nextUid,
      key := sha3 (Config.decapsulate s.boots ciphertext ++ nonce ++ leBytes 2 world), remembered := [], underWay := none }
  onPlain 0x01 rtag s (checks
    [(!ok, stBadRequest), (!proven, stDenied), (decide (4 ≤ held) || decide (128 ≤ s.sessions.length), stBusy)]
    (.done ({ s with nextUid := s.nextUid + 1, fresh := s.fresh + 1 }.setSession n x) (leBytes 4 n)))

/-- CLOSE: answered, and the session ends. -/
def execCloseSession (h : MsgHead) (s : State) : Out :=
  match onRequest h 0x15 true s fun _ s1 => .done s1 [] with
  | .next s1 =>
    let closed := match KMap.find s.sessions h.session with
      | some x => h.formOk && (x.accept h.seq none).isSome
      | none => false
    .next (if closed then { s1 with sessions := KMap.erase s1.sessions h.session } else s1)
  | r => r

/-! ### Host accesses in the access log (R341, R342) -/

/-- A guest-physical access noted line by line where it reaches the memory controller. -/
def State.noteGpa (s : State) (world agent op gpa n : Nat) : State :=
  if (s.world world).log.watch.isEmpty then s
  else (s.gpaLines world gpa n).foldl (fun x p => x.noteLine world agent op (p.2 / 128 * 128) p.1) s

/-! ### WRITE, READ and KICK (R371, R372) -/

/-- Bytes of a session's world written for a request and noted in its log. DESIGN CHOICE (R333 names no answer): one whose packet
fails is BAD_ADDR with the line's address, and nothing is written (log 102). -/
def State.hostWrite (s : State) (world agent gpa : Nat) (data : List Byte) : Reply :=
  match s.gpaWrite world gpa data with
  | .error e => .lost e
  | .ok s1 => .done (s1.noteGpa world agent logWrite gpa data.length) []

/-- WRITE: a release at system scope. -/
def execWrite (h : MsgHead) (gpa : Nat) (data : List Byte) (s : State) : Out :=
  onRequest h 0x10 (data != [] && decide (data.length ≤ 8192)) s fun x s1 =>
    s1.hostWrite x.world (logAgent 4 h.session) gpa data

/-- READ: an acquire at system scope; a line that delivers a fault is BAD_ADDR (R335, R371), and a message longer than its
operands BAD_REQUEST (R384). -/
def execRead (h : MsgHead) (gpa len : Nat) (rest : List Byte) (s : State) : Out :=
  onRequest h 0x11 (decide (1 ≤ len) && decide (len ≤ 8192) && rest == []) s fun x s1 =>
    match s1.gpaRead x.world gpa len with
    | .error e => .lost e
    | .ok (b, s2) => .done (s2.noteGpa x.world (logAgent 4 h.session) logRead gpa len) b

/-- KICK: TAIL stored in the queue's descriptor, a release at system scope. -/
def execKick (h : MsgHead) (queue tail : Nat) (s : State) : Out :=
  onRequest h 0x12 (decide (queue ≤ 7)) s fun x s1 =>
    s1.hostWrite x.world (logAgent 4 h.session) ((s1.world x.world).qtable + 32 * queue + 24) (leBytes 8 tail)

/-! ### Attestation and release (R344 to R347) -/

/-- Pages of a world, ascending, with their entries: those whose STATE is not free. -/
def State.pagesOfWorld (s : State) (world : Nat) : List (Nat × BitVec 16) :=
  s.pot.filter fun p => s.potWorld p.1 == world && s.potState p.1 != 0

/-- POTDIG (R346). -/
def State.potDigest (s : State) (world : Nat) : List Byte :=
  sha3 ((s.pagesOfWorld world).flatMap fun p => leBytes 8 p.1 ++ leBytes 2 p.2.toNat)

/-- The regions that a world's valid handles name, ascending, each once. -/
def State.attestedRegions (s : State) (world : Nat) : List Nat :=
  let x := s.world world
  let hs := x.handles.filter fun h => decide (h.1 < x.hcount) && handleV h.2
  ((hs.map fun h => handleRegion h.2).mergeSort fun a b => decide (a ≤ b)).eraseDups

/-- The evidence of a world, without its signature. -/
def State.evidence (s : State) (world : Nat) (nonce : List Byte) : List Byte :=
  let x := s.world world
  let held := s.pot.filter fun p => s.potWorld p.1 == world && (s.potState p.1 == 1 || s.potState p.1 == 2)
  let regs := s.attestedRegions world
  leBytes 4 1 ++ leBytes 2 world ++ leBytes 2 regs.length ++ leBytes 8 s.layoutGen.toNat ++ nonce ++ sha3 s.measLog
    ++ s.potDigest world ++ leBytes 8 held.length ++ leBytes 8 (held.filter fun p => s.potPim p.1).length
    ++ leBytes 8 x.xallot.toNat ++ leBytes 8 x.cpybw.toNat ++ leBytes 8 x.cacheallot.toNat ++ leBytes 4 x.hcount
    ++ leBytes 4 (boolBit x.pimok) ++ Config.kemPublicKey s.boots
    ++ regs.flatMap fun r =>
      leBytes 2 r ++ leBytes 2 (s.region r).gen ++ leBytes 4 0 ++ (s.region r).digest

/-- ATTEST. -/
def execAttest (rtag : Nat) (formOk : Bool) (world : Nat) (nonce : List Byte) (s : State) : Out :=
  let e := s.evidence world nonce
  onPlain 0x02 rtag s (checks [(!formOk || !decide (world ≤ 31) || nonce.length != 32, stBadRequest)]
    (.done s (e ++ Config.sign e)))

/-- RELEASE. -/
def execReleaseSecret (rtag : Nat) (formOk : Bool) (world layoutGen : Nat) (kem : List Byte) (gpa len : Nat)
    (ciphertext tag : List Byte) (s : State) : Out :=
  let ok := formOk && decide (world ≤ 31) && kem.length == 1088 && decide (1 ≤ len) && decide (len ≤ 4096)
    && ciphertext.length == len && tag.length == 16
  let key := sha3 (Config.decapsulate s.boots kem ++ leBytes 2 world ++ leBytes 8 layoutGen)
  let aad := leBytes 2 world ++ leBytes 8 layoutGen ++ leBytes 8 gpa ++ leBytes 4 len
  onPlain 0x03 rtag s (checks [(!ok, stBadRequest), (decide (layoutGen ≠ s.layoutGen.toNat), stLayoutStale)]
    (match Config.gcmOpen key (List.replicate 12 0) aad ciphertext tag with
      | none => .refuse stBadTag
      | some p => s.hostWrite world (logAgent 5 0) gpa ((List.range len).map fun i => p.getD i 0)))

/-! ### What the port does with other frames (R365, R367, R368) -/

/-- Message types and MGMT command codes the manual gives. -/
def knownTypes : List Nat := [0x01, 0x02, 0x03, 0x10, 0x11, 0x12, 0x13, 0x14, 0x15]
def knownCommands : List Nat :=
  (List.range 11).map (· + 1) ++ (List.range 7).map (· + 0x10) ++ (List.range 6).map (· + 0x20)
    ++ (List.range 10).map (· + 0x30)

/-- TYPE of EVENT, which the module alone sends (R367). -/
def tyEvent : Nat := 0x14

/-- A frame of a TYPE or a MGMT command that the manual does not give: BAD_REQUEST, and nothing is performed. An EVENT, which no
sender's world may send, is refused with DENIED (R367). -/
def answerUnknown (h : MsgHead) (mgmt : Bool) (code : Nat) (s : State) : Out :=
  if mgmt then
    if knownCommands.contains code then .next s else onMgmt h false (fun _ => true) s fun _ s1 => .done s1 []
  else if code = tyEvent then
    let r := checks [(!h.formOk, stBadRequest)] (.refuse stDenied)
    if h.session = 0 then onPlain code h.rtag s r else onRequest h code true s fun _ _ => .refuse stDenied
  else if knownTypes.contains code then .next s
  else if h.session = 0 then onPlain code h.rtag s (.refuse stBadRequest)
  else onRequest h code false s fun _ s1 => .done s1 []

/-- UNKNOWN_TYPE_OR_COMMAND_CODE. -/
def execUnknownTypeOrCommandCode (h : MsgHead) (mgmt : Bool) (code : Nat) (s : State) : Out := answerUnknown h mgmt code s

/-- FRAME_DISCARD: a frame at the port. One that is discarded is not answered and changes nothing; of the others, a TYPE that the
manual gives is performed by its own event. -/
def execFrameDiscard (f : EthernetFrame) (s : State) : Out :=
  if s.discards f then .next s
  else
    match f.body with
    | .udp _ b =>
      let h := frameHeader b
      let n := b.length - 32 - (if h.session = 0 then 0 else tagBytes)
      answerUnknown { session := h.session, seq := h.seq, rtag := h.rtag, formOk := h.formOk n } false h.ty s
    | .other | .routerAdvertisement => .next s

/-! ### Neighbor Discovery (R365) -/

/-- The link-local address: fe80::/64 with the MAC address's modified EUI-64. -/
def linkLocal : Nat :=
  let m := Config.factoryMac % 2 ^ 48
  let eui := (m / 2 ^ 24) * 2 ^ 40 + 0xFFFE * 2 ^ 24 + m % 2 ^ 24
  0xFE80 * 2 ^ 112 + (eui ^^^ 2 ^ 57)

/-- NEIGHBOR_SOLICITATION: answered for an address that detection has left the port. -/
def execNeighborSolicitation (target : Nat) (s : State) : Out :=
  .next (if s.validAddrs.contains target then { s with adverts := s.adverts ++ [target] } else s)

/-- The port's addresses: link-local always, and the global one that has been added. -/
def State.addresses (s : State) : List Nat := linkLocal :: s.address.toList

/-- DUPLICATE_ADDRESS_DETECTION: its end for one of the port's addresses. -/
def execDuplicateAddressDetection (address : Nat) (conflict : Bool) (s : State) : Out :=
  if !s.addresses.contains address then .next s
  else
    let rest := s.validAddrs.filter fun a => a != address
    .next { s with validAddrs := if conflict then rest else rest ++ [address] }

end Sys2Proof.Machine
end

