-- ==== Sys2Proof/Machine/Management.lean ====
section
/-! DEFINITION. The MGMT commands: worlds, pages and their scrubbing, translation controls, access logs, regions, handles and
calibration, fault recovery, receipts, registers and reports (R59 to R61, R210, R279 to R281, R290 to R292, R318 to R323, R327,
R328, R331, R337 to R343, R351 to R354, R359, R360, R363, R366, R369, R375, R377, R378, R384). -/

namespace Sys2Proof.Machine

/-- World 0 alone may send the command. -/
def byOwner (w : Nat) : Bool := w == 0

/-- World 0, or the world that the command names. -/
def bySelfOrOwner (w sender : Nat) : Bool := sender == 0 || sender == w

/-- The layout generation moves (R319). -/
def State.moveLayout (s : State) : State := { s with layoutGen := s.layoutGen + 1 }

/-! ### Pages held and taken (R321, R323) -/

/-- Physical pages that an outstanding operation reaches or will still write. -/
def Op.pagesHeld (o : Op) : List Nat :=
  let lanes := fun (ls : List LaneAcc) => ls.flatMap fun a => [pageOf a.pa, pageOf (a.pa + 15)]
  let blk := [pageOf o.blkpa, pageOf (o.blkpa + 255)]
  match o.kind with
  | .load false _ _ _ ls => lanes ls
  | .store false _ _ ls => lanes ls
  | .atomic false _ _ _ _ _ _ ls => lanes ls
  | .load true _ _ _ _ | .store true _ _ _ | .atomic true _ _ _ _ _ _ _ | .mark _ => []
  | .tmld _ _ pa => [pageOf pa]
  | .copy c => blk ++ (if c.awen && !c.awsp then [pageOf c.awpa] else [])
  | .tensor x => blk ++ x.pages.map (·.2)
  | .stackCopy c => c.pages.map (·.2)
  | .pimld _ _ pas => pas.map pageOf
  | .pimx b => blk ++ b.pages.getD []

/-- No outstanding operation reaches a page of a set. -/
def State.pagesQuiet (s : State) (p : Nat → Bool) : Bool := s.ops.all fun o => o.pagesHeld.all fun g => !p g

/-- Every TLB entry that translates to a page of a set dropped. -/
def State.dropTlb (s : State) (p : Nat → Bool) : State := { s with tlb := s.tlb.filter fun e => !p e.ppage }

/-- Every cached copy and gathered byte of the pages of a set discarded without write-back, with their translations, their
directory entries and the messages about them (R323). -/
def State.discardPages (s : State) (p : Nat → Bool) : State :=
  let on := fun (line : Nat) => p (line / 128)
  { s.dropTlb p with
    gathers := s.gathers.filter fun g => !p (pageOf g.addr),
    l1 := s.l1.filter fun l => !on l.line, l2 := s.l2.filter fun l => !on l.line,
    llc := s.llc.filter fun l => !on l.line, dir := s.dir.filter fun d => !on d.1,
    coh := s.coh.filter fun m => !on m.line,
    cores := s.cores.map fun c => (c.1, { c.2 with icache := c.2.icache.filter fun l => !on l.1 }) }

/-- A page made free; its scrub generation stays. -/
def State.freePage (s : State) (page : Nat) : State := s.setPot page (potEntry 0 0 false (s.potSgen page))

/-- A list of pages within the usable memory. -/
def pagesOk (pages : List Nat) : Bool := pages.all fun p => decide (p < usablePages)

/-- The queues of some worlds tried again. -/
def State.retryWorlds (s : State) (ws : List Nat) : State := ws.eraseDups.foldl State.retryQueue s

/-- The worlds whose entries name pages of a list. -/
def State.ownersOf (s : State) (pages : List Nat) : List Nat := pages.map s.potWorld

/-! ### Worlds (R317, R318, R332) -/

/-- WORLD_CREATE. -/
def execWorldCreate (h : MsgHead) (w : Nat) (pimok : Bool) (qtable evq : Nat) (s : State) : Out :=
  onMgmt h (decide (w ≤ 31) && qtable % 256 == 0) byOwner s fun _ s1 =>
    checks [((s1.world w).state != .free, stBusy)] (
      let x : World :=
        { World.reset with
          state := .active, pimok := pimok, qtable := qtable, evq := evq, evInit := true, keys := some (drawKeys s1.fresh) }
      let s2 := (({ s1 with fresh := s1.fresh + 4 }.setWorld w x).newCounters w).moveLayout
      .done (attempted (s2.initQueue w)) [])

/-- A launch ended ABORTED (R40, R382): at once while none of its teams has been sent, else when those have ended. -/
def State.abortLaunch (s : State) (l : Launch) : State :=
  if l.aborted then s
  else if l.state = .waiting ∨ l.state = .ready then s.finishLaunch l statusAborted
  else
    let s1 := s.updLaunch l.uid fun y => { y with aborted := true }
    let us := (s1.teams.filter fun t => t.launch == l.uid && !t.released).map Team.uid
    (us.foldl (fun x u => x.abortTeam u .abort 0) s1).settleLaunch l.uid

/-- A world starts to be destroyed: its sessions end, its launches end ABORTED, its teams F_ABORT. -/
def State.startDestroy (s : State) (w : Nat) : State :=
  let s1 := (s.setWorld w { s.world w with state := .destroying }).moveLayout
  let s2 := { s1 with sessions := s1.sessions.filter fun p => p.2.world != w, evFrame := KMap.erase s1.evFrame w }
  (s2.launches.filter fun l => l.world == w).foldl State.abortLaunch s2

/-- What a world owned, when nothing of it runs any more. -/
def State.destroyed (s : State) (w : Nat) : Bool :=
  !(s.teams.any fun t => t.world == w) && !(s.launches.any fun l => l.world == w) && !(s.ops.any fun o => o.world == w)
    && s.pagesQuiet fun p => s.potState p != 0 && s.potWorld p == w

/-- The end of a world: lines, gathered stores, translations, pages, queues and keys. -/
def State.finishDestroy (s : State) (w : Nat) : State :=
  let pages := (s.pagesOfWorld w).map (·.1)
  let s1 := s.discardPages fun p => s.potState p != 0 && s.potWorld p == w
  let s2 := pages.foldl State.freePage s1
  { s2 with
    gathers := s2.gathers.filter fun g => g.world != w, l1 := s2.l1.filter fun l => l.world != w,
    l2 := s2.l2.filter fun l => l.world != w, llc := s2.llc.filter fun l => l.world != w,
    tlb := s2.tlb.filter fun e => e.world != w, drains := s2.drains.filter fun d => d.world != w,
    coh := s2.coh.filter fun m => m.world != w,
    sources := s2.sources.filter fun k => k.1 / 2 ^ 32 != w,
    accounts := s2.accounts.filter fun a => a.1 / 16 != w,
    worlds := KMap.put s2.worlds w World.reset }

/-- WORLD_DESTROY: complete once the world's work has ended. -/
def execWorldDestroy (h : MsgHead) (w : Nat) (s : State) : Out :=
  onMgmtAs (some (.worldDestroy h w)) h (decide (w ≤ 31)) byOwner s fun _ again s1 =>
    checks [(w == 0, stDenied), (!again && (s1.world w).state != .active, stBusy)] (
      let s2 := if again then s1 else s1.startDestroy w
      if s2.destroyed w then .done (s2.finishDestroy w) [] else .wait s2)

/-! ### Translation controls (R318, R324, R327, R360) -/

/-- S2ROOT_SET. -/
def execS2rootSet (h : MsgHead) (w pa : Nat) (s : State) : Out :=
  onMgmt h (decide (w ≤ 31) && pa % 16384 == 0 && decide (pa < usableBytes)) byOwner s fun _ s1 =>
    checks [((s1.world w).state != .active, stBusy)]
      (.done ((s1.setWorld w { s1.world w with s2root := pa }).moveLayout.retryQueue w) [])

/-- S1ROOT_SET, for the sender's world. -/
def execS1rootSet (h : MsgHead) (gpa : Nat) (s : State) : Out :=
  onMgmt h (gpa % 16384 == 0 && decide (gpa < 2 ^ 52)) (fun _ => true) s fun x s1 =>
    .done (s1.setWorld x.world { s1.world x.world with s1root := gpa }) []

/-- A TLB entry that a TLB_INV names. -/
def TlbEntry.named (w stage range lo hi : Nat) (e : TlbEntry) : Bool :=
  let page := if stage = 1 then e.vpage else e.gpage
  e.world == w && (range == 0 || (decide (lo / 16384 ≤ page) && decide (page ≤ hi / 16384)))

/-- TLB_INV. -/
def execTlbInv (h : MsgHead) (w stage range lo hi : Nat) (s : State) : Out :=
  onMgmt h (decide (w ≤ 31) && (stage == 1 || stage == 2) && decide (range ≤ 1))
    (fun v => if stage = 1 then v == w else v == 0) s fun _ s1 =>
      .done ({ s1 with tlb := s1.tlb.filter fun e => !e.named w stage range lo hi }.retryQueue w) []

/-- CTX_SET, for the sender's world. -/
def execCtxSet (h : MsgHead) (va len : Nat) (s : State) : Out :=
  onMgmt h (va % 16384 == 0 && len % 16384 == 0 && decide (va + len ≤ 2 ^ 58)) (fun _ => true) s fun x s1 =>
    .done (s1.setWorld x.world { s1.world x.world with ctxBase := va, ctxLen := len }) []

/-! ### Pages (R318, R320, R323, R337) -/

/-- A free page assigned to a world: it is scrubbing, with a new scrub generation, and its receipt is recorded. -/
def State.assignPage (w : Nat) (pim : Bool) (s : State) (page : Nat) : State :=
  (s.setPot page (potEntry w 3 pim (s.potSgen page + 1))).receipt w (boolBit pim) 1 page

/-- PAGE_ASSIGN. -/
def execPageAssign (h : MsgHead) (w : Nat) (pim : Bool) (pages : List Nat) (s : State) : Out :=
  onMgmt h (decide (w ≤ 31) && pages != [] && decide (pages.length ≤ 1000) && pagesOk pages) byOwner s fun _ s1 =>
    checks [(pim && !(s1.world w).pimok, stDenied),
      ((s1.world w).state != .active || pages.any (fun p => s1.potState p != 0) || decide (pages.eraseDups ≠ pages), stBusy)]
      (.done ((pages.foldl (State.assignPage w pim) s1).moveLayout.retryQueue w) [])

/-- A page's bytes zero, no line of it poisoned or with a fault in its cells, and Z on its lines unless it is a PIM page (R335, R337). -/
def State.zeroPage (s : State) (page : Nat) : State :=
  let pim := s.potPim page
  let s1 := { s with mem := s.mem.filter fun b => pageOf b.1 != page }
  (List.range 128).foldl (fun x i => (x.clearLine (128 * page + i)).setLineMeta (128 * page + i) { p := false, z := !pim }) s1

/-- SCRUB_COMPLETE: the page becomes owned. -/
def execScrubComplete (page : Nat) (s : State) : Out :=
  if page < usablePages ∧ s.potState page = 3 then
    .next ((s.zeroPage page).setPot page (potEntry (s.potWorld page) 1 (s.potPim page) (s.potSgen page)))
  else .next s

/-- PAGE_SHARE: complete once no access issued before reaches the pages. -/
def execPageShare (h : MsgHead) (pages : List Nat) (s : State) : Out :=
  onMgmtAs (some (.pageShare h pages)) h (pagesOk pages) byOwner s fun _ _ s1 =>
    checks [(pages.any fun p => s1.potState p != 1 || s1.potPim p, stBusy)] (
      if !(s1.pagesQuiet fun p => pages.contains p) then .wait s1
      else
        let s2 := (s1.dropTlb fun p => pages.contains p).mergeWhere fun g => pages.contains (pageOf g.addr)
        let s3 := pages.foldl (fun x p => x.setPot p (potEntry (x.potWorld p) 2 false (x.potSgen p))) s2
        .done (s3.moveLayout.retryWorlds (s1.ownersOf pages)) [])

/-- PAGE_RELEASE: complete once no access issued before reaches the pages. -/
def execPageRelease (h : MsgHead) (pages : List Nat) (s : State) : Out :=
  onMgmtAs (some (.pageRelease h pages)) h (pagesOk pages) byOwner s fun _ _ s1 =>
    checks [(pages.any fun p => s1.potState p == 3, stBusy)] (
      let held := pages.filter fun p => s1.potState p != 0
      if !(s1.pagesQuiet fun p => held.contains p) then .wait s1
      else
        let s2 := held.foldl State.freePage (s1.discardPages fun p => held.contains p)
        .done (s2.moveLayout.retryWorlds (s1.ownersOf held)) [])

/-! ### Registers (R59, R60, R210, R311, R328, R359, R364, R367, R369, R378) -/

/-- The bits of `v` that a register stores, given as inclusive ranges. -/
def keepBits (v : Nat) (ranges : List (Nat × Nat)) : Nat :=
  ranges.foldl (fun a r => a + field v r.1 r.2 * 2 ^ r.2) 0

/-- CACHEALLOT written (R328). -/
def State.storeCacheallot (s : State) (w v : Nat) : State :=
  let x := s.world w
  let y := BitVec.ofNat 64 (keepBits v [(63, 63), (47, 32), (31, 16), (7, 0)])
  if y = x.cacheallot then s else (s.setWorld w { x with cacheallot := y }).moveLayout

/-- CPYBW written (R210). -/
def State.storeCpybw (s : State) (w v : Nat) : State :=
  let x := s.world w
  let y := BitVec.ofNat 64 (keepBits v [(63, 63), (55, 48), (47, 38), (37, 24), (23, 10)])
  if y = x.cpybw then s else (s.setWorld w { x with cpybw := y }).moveLayout

/-- The sum of RESV over all worlds but one. -/
def State.resvOthers (s : State) (w : Nat) : Nat :=
  (s.worlds.filter fun p => p.1 != w).foldl (fun a p => a + p.2.resv) 0

/-- What a write of XALLOT stores (R59). -/
def xallotValue (v : Nat) : DWord :=
  BitVec.ofNat 64 (keepBits v [(42, 35), (25, 22), (21, 17), (16, 10), (7, 0)] + min 256 (field v 34 26) * 2 ^ 26)

/-- XALLOT written unless R60 ignores the write: a stopped queue whose QMASK bit goes from 0 to 1 is read again (R35), and
restores refused for capacity are tried again (R362). -/
def State.storeXallot (s : State) (w v : Nat) : State :=
  if 64 < field v 16 10 ∨ 64 < s.resvOthers w + field v 16 10 then s
  else
    let x := s.world w
    let y : World := { x with xallot := xallotValue v }
    let queues := x.queues.filter fun q => bitOf x.qmask q.1 || !bitOf y.qmask q.1
    let s1 := s.setWorld w { y with queues := queues }
    let s2 := { s1 with teams := s1.teams.map fun (t : Team) => if t.world = w then { t with capFailed := false } else t }
    if y.xallot = x.xallot then s2 else s2.moveLayout

/-- What a write of WDCTL, PIMCTL and POWERCTL stores. -/
def wdctlValue (v : Nat) : Word :=
  let limit := if field v 31 16 = 0 then 1000 else field v 31 16
  BitVec.ofNat 32 (limit * 2 ^ 16 + field v 1 0)
def pimctlValue (v : Nat) : Word :=
  let win := if field v 15 8 = 0 then 20 else field v 15 8
  let wsel := if field v 1 0 = 3 then 0 else field v 1 0
  BitVec.ofNat 32 (win * 256 + field v 2 2 * 4 + wsel)
def powerctlValue (v : Nat) : Word := BitVec.ofNat 32 (max 900 (min 1800 (field v 31 16)) * 2 ^ 16 + field v 0 0)

/-- A register number and index of R369. -/
def regOk (reg index : Nat) : Bool :=
  if 6 ≤ reg ∧ reg ≤ 9 then decide (index ≤ 31)
  else if reg = 10 then decide (index ≤ 15)
  else decide (1 ≤ reg) && decide (reg ≤ 11) && index == 0

/-- The value of a register. -/
def State.readReg (s : State) (reg index : Nat) : Nat :=
  let x := s.world index
  match reg with
  | 1 => s.dispctl.toNat
  | 2 => s.boostctl.toNat
  | 3 => s.pimctl.toNat
  | 4 => s.preemptctl.toNat
  | 5 => s.powerctl.toNat
  | 6 => x.xallot.toNat
  | 7 => x.cpybw.toNat
  | 8 => x.cacheallot.toNat
  | 9 => x.wdctl.toNat
  | 10 => orientOf index
  | _ => s.healthWord.toNat

/-- A register written. -/
def State.writeReg (s : State) (reg index v : Nat) : State :=
  match reg with
  | 1 => { s with dispctl := BitVec.ofNat 32 (field v 0 0) }
  | 2 => { s with boostctl := BitVec.ofNat 32 (keepBits v [(15, 8), (7, 4), (0, 0)]) }
  | 3 => { s with pimctl := pimctlValue v }
  | 4 => { s with preemptctl := BitVec.ofNat 32 (keepBits v [(3, 2), (0, 0)]) }
  | 5 => { s with powerctl := powerctlValue v }
  | 6 => s.storeXallot index v
  | 7 => s.storeCpybw index v
  | 8 => s.storeCacheallot index v
  | 9 => s.setWorld index { s.world index with wdctl := wdctlValue v }
  | _ => s

/-- REG_READ. -/
def execRegRead (h : MsgHead) (reg index : Nat) (s : State) : Out :=
  onMgmt h (regOk reg index) byOwner s fun _ s1 => .done s1 (leBytes 8 (s1.readReg reg index))

/-- REG_WRITE: ORIENT and HEALTH are read-only. -/
def execRegWrite (h : MsgHead) (reg index value : Nat) (s : State) : Out :=
  onMgmt h (regOk reg index && decide (reg ≤ 9)) byOwner s fun _ s1 => .done (s1.writeReg reg index value) []

/-- A REG_WRITE of XALLOT. -/
def execXallotWrite (h : MsgHead) (w value : Nat) (s : State) : Out :=
  onMgmt h (regOk 6 w) byOwner s fun _ s1 => .done (s1.writeReg 6 w value) []

/-- A REG_WRITE of CPYBW. -/
def execCpybwWrite (h : MsgHead) (w value : Nat) (s : State) : Out :=
  onMgmt h (regOk 7 w) byOwner s fun _ s1 => .done (s1.writeReg 7 w value) []

/-- CACHEALLOT_SET. -/
def execCacheallotSet (h : MsgHead) (w value : Nat) (s : State) : Out :=
  onMgmt h (decide (w ≤ 31)) byOwner s fun _ s1 => .done (s1.storeCacheallot w value) []

/-- POWER_SET. -/
def execPowerSet (h : MsgHead) (value : Nat) (s : State) : Out :=
  onMgmt h true byOwner s fun _ s1 => .done (s1.writeReg 5 0 value) []

/-! ### Range access logs (R341 to R343) -/

/-- LOG_SET. -/
def execLogSet (h : MsgHead) (w logBase logSize : Nat) (watch : List WatchEntry) (s : State) : Out :=
  let ok := decide (w ≤ 31) && logBase % 64 == 0 && decide (8256 ≤ logSize) && (logSize - 64) % 8192 == 0
    && decide (watch.length ≤ 16) && watch.all fun e => decide (e.kind ≤ 1) && decide (e.ops < 128)
  onMgmt h ok byOwner s fun _ s1 =>
    match s1.gpaCheck 0 logBase logSize .write with
    | some a => .badAddr a
    | none =>
      match s1.gpaWrite 0 logBase (leBytes 64 0) with
      | .error e => .lost e
      | .ok s2 =>
        let l : AccessLog := { AccessLog.reset with base := logBase, size := logSize, watch := watch }
        .done (s2.setWorld w { s2.world w with log := l }).moveLayout []

/-- The header of a world's log as it stands now: WRITTEN, LOST and CHAIN; CONSUMED is world 0's. -/
def State.putLogHeader (s : State) (w : Nat) : State :=
  let l := (s.world w).log
  let put := fun (x : State) (off : Nat) (b : List Byte) => match x.gpaWrite 0 (l.base + off) b with
    | .ok y => y
    | .error e => e.2
  put (put (put s 0 (leBytes 8 l.written)) 16 (leBytes 8 l.lost)) 24 l.chain

/-- The 32 bytes of record `n` (R342). -/
def LogPend.record (p : LogPend) (n : Nat) : List Byte :=
  leBytes 8 p.time ++ leBytes 2 p.agent ++ leBytes 1 p.op ++ leBytes 1 (p.entry % 16 + 16 * boolBit p.coal)
    ++ leBytes 4 p.bytes ++ leBytes 8 p.gran ++ leBytes 4 n ++ leBytes 4 0

/-- A record that is lost (R343). -/
def State.loseLog (s : State) (w : Nat) : State :=
  let x := s.world w
  (s.setWorld w { x with log := { x.log with lost := x.log.lost + 1 } }).putLogHeader w

/-- A record written while there is room for it; otherwise it is lost (R343). DESIGN CHOICE: without a readable CONSUMED there is
no room (log 103). -/
def State.writeLog (w : Nat) (s : State) (p : LogPend) : State :=
  let l := (s.world w).log
  let nrec := (l.size - 64) / 32
  let r := p.record l.written
  match s.gpaRead 0 (l.base + 8) 8 with
  | .error e => e.2.loseLog w
  | .ok (b, s0) =>
    if nrec ≤ (l.written + 2 ^ 64 - leVal b) % 2 ^ 64 then s0.loseLog w
    else
      match s0.gpaWrite 0 (l.base + 64 + 32 * (l.written % nrec)) r with
      | .error e => e.2.loseLog w
      | .ok s1 =>
        let recent := l.recent ++ [r]
        let full := (l.written + 1) % 256 == 0
        let m : AccessLog :=
          { l with written := l.written + 1, chain := if full then sha3 (l.chain ++ recent.flatten) else l.chain,
                   recent := if full then [] else recent }
        (s1.setWorld w { s1.world w with log := m }).putLogHeader w

/-- LOG_WINDOW_CLOSE: the records of windows that have ended. -/
def execLogWindowClose (world : Nat) (s : State) : Out :=
  let l := (s.world world).log
  let ended := fun (p : LogPend) => decide (p.time / logWindow < s.hubTime / logWindow)
  let s1 := s.setWorld world { s.world world with log := { l with pend := l.pend.filter fun p => !ended p } }
  if l.pend.any ended then .next ((l.pend.filter ended).foldl (State.writeLog world) s1) else .next s

/-- CHECKPOINT. -/
def execCheckpoint (h : MsgHead) (w : Nat) (nonce : List Byte) (s : State) : Out :=
  onMgmt h (decide (w ≤ 31) && nonce.length == 32) (bySelfOrOwner w) s fun _ s1 =>
    let l := (s1.world w).log
    let b := leBytes 2 w ++ leBytes 6 0 ++ leBytes 8 l.written ++ leBytes 8 l.lost ++ l.chain ++ nonce
    .done s1 (b ++ Config.sign b)

/-! ### Receipts and reports (R331, R340, R365, R366, R375, R377) -/

/-- The 128 bytes of a scrub receipt. -/
def World.receiptBytes (x : World) (w : Nat) (nonce : List Byte) : List Byte :=
  leBytes 2 w ++ leBytes 6 0 ++ leBytes 8 x.receiptN ++ (x.receiptCounts.flatMap fun c => leBytes 8 c) ++ x.receiptH ++ nonce

/-- RECEIPT. -/
def execReceipt (h : MsgHead) (w : Nat) (nonce : List Byte) (s : State) : Out :=
  onMgmt h (decide (w ≤ 31) && nonce.length == 32) (bySelfOrOwner w) s fun _ s1 =>
    let b := (s1.world w).receiptBytes w nonce
    .done s1 (b ++ Config.sign b)

/-- MEASLOG_READ. -/
def execMeaslogRead (h : MsgHead) (s : State) : Out := onMgmt h true (fun _ => true) s fun _ s1 => .done s1 s1.measLog

/-- ADDR_SET: the link-local address stays; the new one is valid once its duplicate address detection ends. -/
def execAddrSet (h : MsgHead) (address : Nat) (s : State) : Out :=
  onMgmt h (decide (address < 2 ^ 128)) byOwner s fun _ s1 =>
    .done { s1 with address := some address,
                    validAddrs := s1.validAddrs.filter fun a => some a != s1.address || a == linkLocal } []

/-- CRED_SET. -/
def execCredSet (h : MsgHead) (w : Nat) (key : List Byte) (s : State) : Out :=
  onMgmt h (decide (w ≤ 31) && key.length == 1312) byOwner s fun _ s1 =>
    checks [(w == 0, stDenied), ((s1.world w).state != .active, stBusy)]
      (.done (s1.setWorld w { s1.world w with credential := some key }) [])

/-- Valid lines of a world in a slice of the L2s (0 to 255) or of the LLC (0 to 63). -/
def State.occupancy (s : State) (w cache slice : Nat) : Nat :=
  if cache = 0 then (s.l2.filter fun l => l.world == w && l.cluster * 16 + l2Slice l.line == slice).length
  else (s.llc.filter fun l => l.world == w && llcSlice l.line == slice).length

/-- OCC_READ. -/
def execOccRead (h : MsgHead) (w cache first n : Nat) (s : State) : Out :=
  onMgmt h (decide (w ≤ 31) && decide (cache ≤ 1) && decide (first + n ≤ (if cache = 0 then 256 else 64))) byOwner s
    fun _ s1 => .done s1 ((List.range n).flatMap fun i => leBytes 2 (s1.occupancy w cache (first + i)))

/-- SOFTERR_READ. -/
def execSofterrRead (h : MsgHead) (s : State) : Out :=
  onMgmt h true byOwner s fun _ s1 => .done s1 (leBytes 8 s1.soft.ecc ++ leBytes 8 s1.soft.matrix ++ leBytes 8 s1.soft.link)

/-! ### Regions (R278 to R281, R290 to R292) -/

/-- Bytes of an AD's golden and staging pool (R291). -/
def poolBytes : Nat := 94 * 2 ^ 30

/-- An AD holds a region's new golden extent: from its INTENT on, and, of a FAILED region that is freed, until it is EMPTY (R291,
R292). -/
def Region.newOn (r : Region) (a : Nat) : Bool :=
  (placementAds r.newPlacement).contains a && (r.state != .revoking || r.next == .free || r.stage.contains a)

/-- Bytes of an AD's pool in use: what is staged, and the old and new golden extents of its regions. -/
def State.poolUsed (s : State) (a : Nat) : Nat :=
  let x := s.ad a
  let staged := (x.images ++ x.probes ++ x.placements).foldl (fun n p => n + p.2.2) 0
  s.regions.foldl (fun n p =>
    n + (if (placementAds p.2.placement).contains a then p.2.golden.length else 0)
      + (if p.2.newOn a then p.2.newGolden.length else 0)) staged

/-- Bytes put into a staged object. -/
def stagePut (m : KMap (Sparse Byte × Nat)) (id offset : Nat) (data : List Byte) : KMap (Sparse Byte × Nat) :=
  let x := (KMap.find m id).getD ([], 0)
  KMap.put m id (Sparse.setN 0 x.1 offset data, max x.2 (offset + data.length))

def Ad.stage (x : Ad) (kind id offset : Nat) (data : List Byte) : Ad :=
  match kind with
  | 0 => { x with images := stagePut x.images id offset data }
  | 1 => { x with probes := stagePut x.probes id offset data }
  | _ => { x with placements := stagePut x.placements id offset data }

/-- Bytes by which staging lengthens an object. -/
def Ad.growth (x : Ad) (kind id offset n : Nat) : Nat :=
  let m := match kind with
    | 0 => x.images
    | 1 => x.probes
    | _ => x.placements
  offset + n - ((KMap.find m id).getD ([], 0)).2

/-- REGION_STAGE: on all the named ADs or on none. -/
def execRegionStage (h : MsgHead) (adMask kind id offset : Nat) (data : List Byte) (s : State) : Out :=
  onMgmt h (decide (kind ≤ 2) && data != [] && decide (data.length ≤ 8192) && (kind == 0 || decide (id < 16384))) byOwner s
    fun _ s1 =>
      let ads := (List.range 16).filter fun a => bitOf adMask a
      checks [(ads.any fun a => decide (poolBytes < s1.poolUsed a + (s1.ad a).growth kind id offset data.length), stNoSpace)]
        (.done (ads.foldl (fun x a => x.setAd a ((x.ad a).stage kind id offset data)) s1) [])

/-- The placement table staged for a region, on the lowest AD that has one. -/
def State.stagedPlacement (s : State) (region : Nat) : List Nat :=
  match (List.range 16).findSome? fun a => KMap.find (s.ad a).placements region with
  | some x => (List.range (x.2 / 4)).map fun i => leVal (Sparse.getN 0 x.1 (4 * i) 4)
  | none => []

/-- An image staged on an AD under a number. -/
def State.stagedImage (s : State) (a id : Nat) : Option (List Byte) :=
  (KMap.find (s.ad a).images id).map fun x => Sparse.getN 0 x.1 0 x.2

/-- The shape and the fields of an image are within R278 to R280. -/
def imgOk (b : List Byte) : Bool :=
  let k := imgK b
  let n := imgN b
  let rk := blkNat b 10 1
  let rn := blkNat b 11 1
  b.length == imgLen b && decide (1 ≤ k) && decide (k ≤ 1048576) && decide (1 ≤ n) && decide (n ≤ 1048576)
    && decide (1 ≤ rk) && decide (rk ≤ 3) && decide (1 ≤ rn) && decide (rn ≤ 3) && k % blkSize rk == 0 && n % blkSize rn == 0
    && decide (tileRows k * tileCols n ≤ 65536) && decide (blkNat b 8 1 ≤ 13) && decide (blkNat b 9 1 ≤ 13)
    && ((b.drop 20).take 44).all fun x => x == 0

/-- A placement entry names a plane that exists (R25, R29, R279). -/
def entryOk (e : Nat) : Bool :=
  let g := planeGrid (adRotation (entryAd e))
  field e 9 0 == 0 && decide (entryPx e < g.1) && decide (entryPy e < g.2)

/-- What a write of PAVANE_CTL stores (R290). -/
def pavaneValue (old : DWord) (v : Nat) : DWord :=
  if 2 ≤ field v 17 16 then old
  else
    let gr := if field v 31 28 = 0 then 4 else field v 31 28
    let p := if field v 23 18 = 0 then 16 else field v 23 18
    BitVec.ofNat 64 (keepBits v [(47, 40), (39, 32), (27, 24), (17, 16), (4, 4), (3, 1), (0, 0)] + gr * 2 ^ 28 + p * 2 ^ 18)

/-- The valid handles that name a region cleared in every world, with a REGION_REVOKED record to each (R292). -/
def State.revokeHandles (s : State) (region : Nat) : State :=
  s.worlds.foldl (fun x p =>
    let named := fun (h : Nat × Word) => decide (h.1 < p.2.hcount) && handleV h.2 && handleRegion h.2 == region
    if p.2.handles.any named then
      let hs := (p.2.handles.filter named).foldl (fun m h => Sparse.set 0 m h.1 (BitVec.ofNat 32 (h.2.toNat % 2 ^ 31)))
        p.2.handles
      (x.setWorld p.1 { x.world p.1 with handles := hs }).post evRevoked p.1 hubSource
        (leBytes 2 region ++ leBytes 2 (s.region region).gen ++ leBytes 16 0)
    else x) s

/-- A region taken out of service for a change (R292). -/
def State.revoke (s : State) (region : Nat) (next : RegionNext) (img : List Byte) (place : List Nat) : State :=
  let r := s.region region
  let r1 : Region :=
    { r with state := .revoking, prev := r.state, next := next, newGolden := img, newPlacement := place, stage := [],
             batch := none, since := (List.range 16).map fun a => (a, (s.ad a).seq) }
  ((s.setRegion region r1).revokeHandles region).moveLayout.settleHealth

/-- A tile of a placement belongs to another region. -/
def State.tileTaken (s : State) (region : Nat) (place : List Nat) : Bool :=
  s.regions.any fun p => p.1 != region && place.any fun e => p.2.placement.contains e || p.2.newPlacement.contains e

def Region.changing (r : Region) : Bool := r.state == .revoking || r.state == .programming || r.state == .verifying

/-- REGION_PROGRAM. -/
def execRegionProgram (h : MsgHead) (region id pavaneCtl : Nat) (digest : List Byte) (s : State) : Out :=
  onMgmt h (decide (region < 16384) && digest.length == 32) byOwner s fun _ s1 =>
    let place := s1.stagedPlacement region
    let ads := placementAds place
    let img := ((ads.head?.bind fun a => s1.stagedImage a id).getD [])
    let staged := place != [] && ads.all (fun a => s1.stagedImage a id == some img) && sha3 img == digest
    checks
      [((s1.region region).changing, stBusy),
       (!staged || !imgOk img || place.length != tileRows (imgK img) * tileCols (imgN img), stBadImage),
       (!(place.all entryOk) || decide (place.eraseDups ≠ place), stBadPlace),
       (s1.tileTaken region place, stInUse)]
      (.done (s1.revoke region (.program id (pavaneValue (s1.region region).pavane pavaneCtl)) img place) [])

/-- REGION_FREE. -/
def execRegionFree (h : MsgHead) (region : Nat) (s : State) : Out :=
  onMgmt h (decide (region < 16384)) byOwner s fun _ s1 =>
    checks [((s1.region region).state != .valid && (s1.region region).state != .failed, stBusy)]
      (.done (s1.revoke region .free (s1.region region).newGolden (s1.region region).newPlacement) [])

/-- HANDLE_SET. -/
def execHandleSet (h : MsgHead) (w hcount first : Nat) (entries : List Nat) (s : State) : Out :=
  let ok := decide (w ≤ 31) && decide (entries.length ≤ 2048) && decide (first + entries.length ≤ 65536)
    && decide (hcount ≤ 65536)
  onMgmt h ok byOwner s fun _ s1 =>
    let x := s1.world w
    let es := entries.map fun e => BitVec.ofNat 32 (keepBits e [(31, 31), (29, 0)])
    .done (s1.setWorld w { x with handles := Sparse.setN 0 x.handles first es, hcount := hcount }).moveLayout []

/-- Columns from `first` on given new gains and offsets. -/
def setColumns (cols : List Column) (first : Nat) (pairs : List (Nat × Nat)) : List Column :=
  (cols.zip (List.range cols.length)).map fun c =>
    if c.2 < first then c.1
    else
      match pairs[c.2 - first]? with
      | some p => { c.1 with g := p.1 % 2 ^ 32, o := p.2 % 2 ^ 32 }
      | none => c.1

/-- COLUMN_SET. -/
def execColumnSet (h : MsgHead) (region first : Nat) (pairs : List (Nat × Nat)) (s : State) : Out :=
  let r := s.region region
  let inside := r.state == .empty || decide (first + pairs.length ≤ r.n)
  onMgmt h (decide (region < 16384) && pairs != [] && decide (pairs.length ≤ 1024) && inside) byOwner s fun _ s1 =>
    checks [((s1.region region).state != .valid, stBusy)]
      (.done (s1.setRegion region { s1.region region with cols := setColumns (s1.region region).cols first pairs }) [])

/-- PAVANE_SET. -/
def execPavaneSet (h : MsgHead) (region value : Nat) (s : State) : Out :=
  onMgmt h (decide (region < 16384)) byOwner s fun _ s1 =>
    let r := s1.region region
    checks [(r.state != .valid, stBusy)] (.done (s1.setRegion region { r with pavane := pavaneValue r.pavane value }) [])

def RegionState.code : RegionState → Nat
  | .empty => 0
  | .valid => 1
  | .revoking => 2
  | .programming => 3
  | .verifying => 4
  | .failed => 5

/-- The 128 bytes of a descriptor (R279). -/
def Region.descriptor (r : Region) (region : Nat) : List Byte :=
  leBytes 2 region ++ leBytes 1 r.state.code ++ leBytes 1 r.flags ++ leBytes 2 r.gen ++ leBytes 1 r.rotk ++ leBytes 1 r.rotn
    ++ leBytes 4 r.seedk ++ leBytes 4 r.seedn ++ leBytes 4 r.k ++ leBytes 4 r.n ++ leBytes 1 r.ec ++ leBytes 1 r.ej
    ++ leBytes 2 0 ++ leBytes 4 r.placement.length ++ r.digest ++ leBytes 8 r.pavane.toNat ++ leBytes 4 r.miscnt
    ++ leBytes 4 r.batches ++ leBytes 48 0

/-- A part that REGION_READ reads. -/
def Region.part (r : Region) (region : Nat) : Nat → List Byte
  | 0 => r.descriptor region
  | 1 => r.placement.flatMap fun e => leBytes 4 e
  | _ => r.cols.flatMap fun c => leBytes 4 c.cs ++ leBytes 4 c.g ++ leBytes 4 c.o ++ leBytes 4 c.cflags

/-- REGION_READ. -/
def execRegionRead (h : MsgHead) (region part len offset : Nat) (s : State) : Out :=
  let b := (s.region region).part region part
  onMgmt h (decide (region < 16384) && decide (part ≤ 2) && decide (1 ≤ len) && decide (len ≤ 8192)
      && decide (offset + len ≤ b.length)) byOwner s fun _ s1 => .done s1 ((b.drop offset).take len)

/-! ### Fault recovery and pre-emption (R351 to R354, R359, R361, R363) -/

/-- A command performed now, or at the team's restore while the team is saved (R361). -/
def State.nowOrLater (s : State) (w : Nat) (t : Option Team) (e : Deferred) : State :=
  match t with
  | some t =>
    if t.place = .saved then s.updTeam t.uid fun x => { x with deferred := x.deferred ++ [e] } else State.performDeferred w s e
  | none => State.performDeferred w s e

/-- RESUME. -/
def execResume (h : MsgHead) (w source seq : Nat) (skip : Bool) (s : State) : Out :=
  onMgmt h (decide (w ≤ 31)) (bySelfOrOwner w) s fun _ s1 =>
    match s1.suspendedBy w source seq with
    | none => .refuse stNotSuspended
    | some (t, _, x) =>
      let atHeader := match x.status with
        | .suspended _ _ b _ => b
        | _ => false
      checks [(skip && atHeader, stBadRequest)] (.done (s1.nowOrLater w (some t) (.resume source seq skip)) [])

/-- OP_RESUME. -/
def execOpResume (h : MsgHead) (w rid : Nat) (s : State) : Out :=
  onMgmt h (decide (w ≤ 31)) (bySelfOrOwner w) s fun _ s1 =>
    match s1.parkedAs w rid with
    | none => .refuse stNoOperation
    | some o => .done (s1.nowOrLater w (s1.findTeam o.team) (.opResume rid)) []

/-- OP_ABANDON. -/
def execOpAbandon (h : MsgHead) (w rid : Nat) (s : State) : Out :=
  onMgmt h (decide (w ≤ 31)) (bySelfOrOwner w) s fun _ s1 =>
    match s1.parkedAs w rid with
    | none => .refuse stNoOperation
    | some o => .done (s1.nowOrLater w (s1.findTeam o.team) (.opAbandon rid)) []

/-- A launch named by its queue and record index, unless it has been aborted. -/
def State.launchNamed (s : State) (w queue record : Nat) : Option Launch :=
  s.launches.find? fun l => l.world == w && l.queue == queue && l.record == record && !l.aborted

/-- A team of a launch that has not ended. -/
def State.teamNamed (s : State) (w queue record teamId : Nat) : Option Team :=
  (s.launchNamed w queue record).bind fun l =>
    s.teams.find? fun t => t.launch == l.uid && t.teamId == teamId && !t.released

/-- TEAM_ABORT. -/
def execTeamAbort (h : MsgHead) (w queue record teamId : Nat) (s : State) : Out :=
  onMgmt h (decide (w ≤ 31) && decide (queue ≤ 7)) (bySelfOrOwner w) s fun _ s1 =>
    match s1.teamNamed w queue record teamId with
    | none => .refuse stBusy
    | some t => .done (s1.abortTeam t.uid .abort 0) []

/-- LAUNCH_ABORT. -/
def execLaunchAbort (h : MsgHead) (w queue record : Nat) (s : State) : Out :=
  onMgmt h (decide (w ≤ 31) && decide (queue ≤ 7)) byOwner s fun _ s1 =>
    match s1.launchNamed w queue record with
    | none => .refuse stBusy
    | some l => .done (s1.abortLaunch l) []

/-- PREEMPT. -/
def execPreempt (h : MsgHead) (w scope queue record teamId : Nat) (s : State) : Out :=
  onMgmt h (decide (w ≤ 31) && decide (scope ≤ 2) && decide (queue ≤ 7)) byOwner s fun _ s1 =>
    let ask := fun (us : List Nat) => Reply.done (us.foldl State.requestPreempt s1) []
    match scope with
    | 0 => ask ((s1.teams.filter fun t => t.world == w).map Team.uid)
    | 1 =>
      match s1.launchNamed w queue record with
      | none => .refuse stBusy
      | some l => ask ((s1.teams.filter fun t => t.launch == l.uid).map Team.uid)
    | _ =>
      match s1.teamNamed w queue record teamId with
      | none => .refuse stBusy
      | some t => ask [t.uid]

end Sys2Proof.Machine
end

