-- ==== Sys2Proof/Machine/Boot.lean ====
section
/-! DEFINITION. Module reset and boot, power and temperature, power loss (R27, R294, R317, R320, R374 to R376, R378 to R381). -/

namespace Sys2Proof.Machine

/-! ### Boot (R374 to R376) -/

/-- The measurement log: 18 entries (R375). -/
def measurements (b : BootInputs) : List Byte :=
  (List.range 18).flatMap fun i =>
    let x := b.images.getD i (0, [])
    leBytes 2 i ++ leBytes 2 0 ++ leBytes 4 x.1 ++ sha3 x.2 ++ leBytes 24 0

/-- The step at which boot stops, with the AD, if it does (R376). -/
def bootFailure (b : BootInputs) : Option (Nat × Nat) :=
  match b.badSignature with
  | some i => some (if i = 0 then 1 else 2, 0xFF)
  | none =>
    if !b.trained then some (3, 0xFF)
    else
      match (List.range 16).find? fun a => b.orient.getD a 0 != orientOf a with
      | some a => some (4, a)
      | none => if b.replayOk then none else some (5, 0xFF)

/-- What survives a loss of power: the arrays with their journals and the lifetime counts of soft errors (R377); and the model's
own counts and what has been sent. -/
def State.lasting (s : State) : State :=
  { State.reset with
    regions := s.regions, ads := s.ads, soft := { s.soft with softWindow := 0, linkWindow := 0 }, boots := s.boots, sent := s.sent, adverts := s.adverts, nextUid := s.nextUid,
    schedule := s.schedule, fresh := s.fresh }

/-- World 0 made ACTIVE with the pages and roots that firmware gives it (R317, R318, R320). -/
def State.startOwner (s : State) (b : BootInputs) : State :=
  let s1 := b.world0Pages.foldl (fun x p => x.setPot p (potEntry 0 1 false 1)) s
  let s2 := b.world0Bytes.foldl (fun x p => { x with mem := Sparse.setN memDefault x.mem p.1 p.2 }) s1
  let w : World :=
    { World.reset with
      state := .active, qtable := b.qtable, evq := b.evq, s1root := b.s1root, s2root := b.s2root, evInit := true,
      keys := some (drawKeys s.fresh) }
  attempted (({ s2 with fresh := s.fresh + 4 }.setWorld 0 w).newCounters 0 |>.initQueue 0)

/-- The lowest supply voltage, in mV (R24). -/
def minSupply : Nat := 40000

/-- MODULE_RESET: boot runs; below 40 V the module does not start (R24). -/
def execModuleReset (boot : BootInputs) (s : State) : Out :=
  let s1 : State := { s.lasting with boots := s.boots + 1 }
  if boot.millivolts < minSupply then .next { s.lasting with boot := .off }
  else
  match bootFailure boot with
  | some f => .next { s1 with boot := .failed f.1 f.2, measLog := if 2 < f.1 then measurements boot else [] }
  | none => .next ({ s1 with boot := .up, measLog := measurements boot }.replay.startOwner boot).settleHealth

/-! ### Power and temperature (R378 to R380) -/

/-- POWER_SAMPLE: ten in a control interval. -/
def execPowerSample (watts : Nat) (s : State) : Out :=
  .next (if s.power.samples < 10
    then { s with power := { s.power with sum := s.power.sum + watts, samples := s.power.samples + 1 } } else s)

/-- The power limit in force, in W. -/
def State.powerLimit (s : State) : Nat := if bitOf s.powerctl.toNat 0 then field s.powerctl.toNat 31 16 else 1800

/-- The lowest module level, 0.6 GHz, in units of 25 MHz. -/
def level06 : Nat := 24

/-- F falls by a number of units, down to 0.6 GHz. -/
def Power.fall (p : Power) (n : Nat) : Power := { p with level := max level06 (p.level - n) }

/-- R379's rule for an interval of ten samples and the limit L. -/
def Power.follow (p : Power) (limit : Nat) : Power :=
  if 10 * limit < p.sum then
    if p.level = level06 then { p with pacing := min 4 (p.pacing + 1) }
    else p.fall (max 1 (ceilDiv (60 * (p.sum - 10 * limit)) (10 * limit)))
  else if 10 * p.sum < 95 * limit then
    if 0 < p.pacing then { p with pacing := p.pacing - 1 } else { p with level := min level21 (p.level + 1) }
  else p

/-- POWER_CONTROL_DECISION: by temperature while hot, otherwise by power. -/
def execPowerControlDecision (celsius : List Nat) (s : State) : Out :=
  if s.power.samples ≠ 10 then .next s
  else
    let hot := (celsius.any fun c => decide (105 ≤ c)) || (s.power.hot && celsius.any fun c => decide (100 ≤ c))
    let p := if hot then s.power.fall 1 else s.power.follow s.powerLimit
    let q : Power :=
      { p with hot := hot, sum := 0, samples := 0, offsets := if p.level < level18 then [] else p.offsets }
    .next ({ s with power := q }).settleHealth

/-! ### Power loss (R380, R381) -/

/-- An AD at a loss of power: a record it was writing may be left with a failing CRC (R381). -/
def Ad.lose (x : Ad) (torn : Bool) : Ad :=
  if torn then
    { x with journal := x.journal ++ [{ ty := 0, region := 0, gen := 0, seq := x.seq, tile := 0, result := 0, digest := zeroHash,
                                        torn := true }] }
  else x

/-- The module off: what is not in the arrays and their journals is lost, and a Pavane batch in progress with it. Which ADs were
writing a record is open. -/
def State.powerLoss (s : State) : State :=
  { s.lasting with
    boot := .off, fresh := s.fresh + 16,
    ads := s.ads.map fun a => (a.1, a.2.lose (Config.freeNat (s.fresh + a.1) % 2 == 1)),
    regions := s.regions.map fun r => (r.1, { r.2 with batch := none }) }

/-- THERMAL_TRIP. -/
def execThermalTrip (celsius : Nat) (s : State) : Out := .next (if 115 ≤ celsius then s.powerLoss else s)

/-- SUPPLY_UNDERVOLTAGE. -/
def execSupplyUndervoltage (millivolts : Nat) (s : State) : Out :=
  .next (if millivolts < minSupply then s.powerLoss else s)

end Sys2Proof.Machine
end

