-- ==== Sys2Proof/Machine/MemEvents.lean ====
section
/-! DEFINITION. When loads, stores and atomics are performed, gathered stores drain, and TLBs fill (R181 to R191, R215 to
R217, R223, R224, R326). The units of one access are performed one by one, in any order (R187, R221). -/

namespace Sys2Proof.Machine

/-- An operation goes on with the units that are left, or ends. -/
def State.goOn (s : State) (o : Op) (k : OpKind) (left : Nat) : State := if left = 0 then s.retire o else s.putOp { o with kind := k }

/-- The units of an access that an event names, and the others. -/
def namedUnits (us : List LaneAcc) (units : List Nat) : List LaneAcc := us.filter fun a => units.contains a.unit

/-! ### Loads (R181, R183, R186, R188, R215) -/

/-- What becomes of a line that a load needs: its bytes, a data fault, or it has been asked for and the load waits. -/
inductive LineServe where
  | data (bs : List Byte)
  | bad (f : DataFault)
  | wait
  deriving DecidableEq, Repr, Inhabited

/-- A line read at its home for a load: PIM pages (R182), and what `.bypass` does not find in the L2 (R188); an owner's gathered
bytes are in it (R216). -/
def State.serveHome (s : State) (o : Op) (hint : Hint) (line : Nat) : LineServe × State :=
  let r := s.readLine o.world line
  match r.1 with
  | some f => (.bad f, r.2)
  | none =>
    (.data (if s.potPim (line / 128) then r.2.readMem (128 * line) 128 else r.2.clusterRead (o.core / 8) o.world (128 * line) 128),
      (r.2.homeTrip (o.core / 8) o.world line false).useLlc o.world line hint false)

/-- A line served to a load (R181, R182, R188, R215): by the core's L1 if it hits, by what the cluster has gathered or holds in
its L2, or by the home. A copy in L1 that does not serve the load goes, so that no later load reads an older value (R222);
data with a fault fill nothing. -/
def State.serveLine (s : State) (o : Op) (hit : Bool) (hint : Hint) (line va : Nat) : LineServe × State :=
  let cl := o.core / 8
  let h := s.hintOf o.world hint
  match (if hit then s.l1Find o.core o.world line else none) with
  | some x => (.data x.data, s.touchL1 x h)
  | none =>
    let s0 := s.dropL1Line o.core o.world line
    let note := fun (x : State) => x.noteMem o.core o.world (logAgent 0 o.core) logRead va (128 * line) 1
    let bytes := s0.clusterRead cl o.world (128 * line) 128
    if s0.potPim (line / 128) then (note s0).serveHome o h line
    else if s0.gatheredWhole cl o.world line then (.data bytes, s0.fillL1 o.core o.world line h)
    else if (s0.l2Find cl o.world line).isSome then
      if (s0.lineMeta line).p then (.bad .integrity, s0)
      else (.data bytes, (s0.touchL2 cl o.world line h).fillL1 o.core o.world line h)
    else if h = .bypass then (note s0).serveHome o .bypass line
    else if s0.requested cl line then (.wait, s0)
    else
      let r := (note s0).fetchLine cl o.world line false h
      match r.1 with
      | some f => (.bad f, r.2)
      | none => (.wait, r.2)

/-- Lines served one after another, each with an address in it. -/
def State.serveLines (o : Op) (hit : Bool) (hint : Hint) (s : State) : List (Nat × Nat) → List (Nat × LineServe) × State
  | [] => ([], s)
  | p :: r =>
    let a := s.serveLine o hit hint p.1 p.2
    let b := State.serveLines o hit hint a.2 r
    ((p.1, a.1) :: b.1, b.2)

/-- The lines of units, each once, with the first unit's address. -/
def unitLines (us : List LaneAcc) : List (Nat × Nat) :=
  us.foldl (fun acc a => if acc.any fun p => p.1 == lineOf a.pa then acc else acc ++ [(lineOf a.pa, a.va)]) []

/-- What a unit gets of its line: its value or its fault; none while it waits. -/
def LineServe.unit (x : LineServe) (ty : MemTy) (a : LaneAcc) : Option (LaneAcc × Nat × Option DataFault) :=
  match x with
  | .data bs => some (a, leVal ((bs.drop (a.pa % 128)).take (unitSize ty)), none)
  | .bad f => some (a, 0, some f)
  | .wait => none

/-- A loaded unit: its destination written, or marked poisoned (R181). -/
def Warp.takeLoad (w : Warp) (o : Op) (ty : MemTy) (d : Nat) (a : LaneAcc) (r : Nat × Option DataFault) : Warp :=
  let regs := unitRegs ty d a
  match r.2 with
  | none => (groupWrites regs (extendLoad ty r.1)).foldl (fun x p => x.vset p.1 a.lane p.2) w
  | some f =>
    { w with poison := regs.foldl (fun m r =>
        KMap.put m (vkey r a.lane) { hdr := o.hdr, idx := o.idx, addr := a.va, fault := f }) w.poison }

/-- Loaded units delivered to their warp, unless the load has none to deliver to. -/
def State.deliver (s : State) (o : Op) (ty : MemTy) (d : Nat) (rs : List (LaneAcc × Nat × Option DataFault)) : State :=
  if o.ctr.isNone then s else s.updWarp o.team o.warp fun w => rs.foldl (fun x p => x.takeLoad o ty d p.1 p.2) w

/-- The units of a global load that are served now, and the state after. -/
def State.performLoad (s : State) (o : Op) (ty : MemTy) (hint : Hint) (hit : Bool) (us : List LaneAcc) :
    List (LaneAcc × Nat × Option DataFault) × State :=
  let r := s.serveLines o hit hint (unitLines us)
  (us.filterMap fun a => (r.1.find? fun p => p.1 == lineOf a.pa).bind fun p => p.2.unit ty a, r.2)

/-- LOAD_COMPLETE: `units`, those performed now; `hitL1`, whether L1 copies serve them. -/
def execLoadComplete (op : Nat) (units : List Nat) (hitL1 : Bool) (s : State) : Out :=
  onOp s op fun o =>
    match o.kind with
    | .load true ty hint d us =>
      match s.findTeam o.team with
      | none => s
      | some t =>
        if s.scratchOlder o then s
        else
          let rest := us.filter fun a => !units.contains a.unit
          (s.deliver o ty d ((namedUnits us units).map fun a => (a, leVal (t.scratchRead a.pa (unitSize ty)), none))).goOn o
            (.load true ty hint d rest) rest.length
    | .load false ty hint d us =>
      if s.markBlocked o then s
      else
        let r := s.performLoad o ty hint hitL1 (namedUnits us units)
        let rest := us.filter fun a => !(r.1.any fun p => p.1.unit == a.unit)
        (r.2.deliver o ty d r.1).goOn o (.load false ty hint d rest) rest.length
    | _ => s

/-! ### Stores (R183, R187, R188, R215, R216) -/

/-- The addresses of a line are all written by the units (R181). -/
def wholeLine (us : List LaneAcc) (size line : Nat) : Bool :=
  (List.range 128).all fun i => us.any fun a => decide (a.pa ≤ line * 128 + i) && decide (line * 128 + i < a.pa + size)

/-- The units performed together: those an event names, and all of a line that the store writes whole (R181). -/
def together (us : List LaneAcc) (size : Nat) (units : List Nat) : List LaneAcc :=
  let named := namedUnits us units
  us.filter fun a => named.any fun b => b.unit == a.unit || (lineOf b.pa == lineOf a.pa && wholeLine us size (lineOf a.pa))

/-- The store a unit belongs to (R383). -/
def State.originOf (s : State) (o : Op) (a : LaneAcc) : Origin :=
  { team := o.team, teamId := ((s.findTeam o.team).map Team.teamId).getD 0, warp := o.warp, core := o.core, hdr := o.hdr,
    idx := o.idx, va := a.va }

/-- The cluster's L2 gets a line that a store needs (R188, R232): the store itself raises no fault of the data (R181). -/
def State.storeFetch (s : State) (cluster world line : Nat) (hint : Hint) : State :=
  if (s.l2Find cluster world line).isSome || s.requested cluster line || s.hintOf world hint == .bypass
  then s.askHome cluster world line true hint
  else
    let r := s.fetchLine cluster world line true hint
    if r.1.isNone then r.2 else r.2.askHome cluster world line true hint

/-- One unit of a global store performed at the cluster's L2, or at the LLC for a PIM page, where its packet may fail: then it
is not performed, the failure is counted, and a record is posted (R333). -/
def State.storeUnit (o : Op) (size : Nat) (hint : Hint) (us : List LaneAcc) (s : State) (a : LaneAcc) : State :=
  let bs := leBytes size a.op1
  let cl := o.core / 8
  let line := lineOf a.pa
  let agent := some (o.team, o.warp)
  let h := s.hintOf o.world hint
  let s1 := s.noteMem o.core o.world (logAgent 0 o.core) logWrite a.va a.pa size
  if s1.potPim (pageOf a.pa) then
    if s1.packetFails line then (s1.dropPacket line).postOpFault o hubSource .integrity fun f => { f with addr := a.va }
    else ((s1.homeTrip cl o.world line true).useLlc o.world line h true).writeMem agent a.pa bs
  else
    let s2 := (s1.updateL1 o.core o.world a.pa bs).gather (s1.originOf o a) cl o.world a.pa (wholeLine us size line) bs
    let s3 := (s2.noteWrite agent line).storeFetch cl o.world line hint
    let s4 := match s3.l1Find o.core o.world line with
      | some x => s3.touchL1 x h
      | none => s3
    s4.touchL2 cl o.world line h

/-- STORE_COMPLETE: `units`, those performed now. -/
def execStoreComplete (op : Nat) (units : List Nat) (s : State) : Out :=
  onOp s op fun o =>
    match o.kind with
    | .store true ty hint us =>
      if s.scratchOlder o then s
      else
        let rest := us.filter fun a => !units.contains a.unit
        (s.updTeam o.team fun t =>
          (namedUnits us units).foldl (fun x a => x.scratchWrite a.pa (leBytes (unitSize ty) a.op1)) t).goOn o
            (.store true ty hint rest) rest.length
    | .store false ty hint us =>
      if s.markBlocked o then s
      else
        let now := together us (unitSize ty) units
        let rest := us.filter fun a => !(now.any fun b => b.unit == a.unit)
        (now.foldl (State.storeUnit o (unitSize ty) hint us) s).goOn o (.store false ty hint rest) rest.length
    | _ => s

/-! ### Atomics (R183, R189 to R191, R217, R223, R224) -/

/-- The value an atomic leaves (R189). -/
def atomNew (aop : AtomOp) (ty : AtomTy) (old op1 op2 : Nat) : Nat :=
  let n := 32 * atomWords ty
  let signed := ty = .i32 ∨ ty = .i64
  let below := fun (a b : Nat) => if signed then decide (signExt n a < signExt n b) else decide (a < b)
  match aop with
  | .ld => old
  | .st | .exch => op1
  | .cas => if old = op1 then op2 else old
  | .add => (old + op1) % 2 ^ n
  | .min => if below op1 old then op1 else old
  | .max => if below old op1 then op1 else old
  | .band => old &&& op1
  | .bor => old ||| op1

/-- Whether an atomic writes: not a load, nor a compare that fails. -/
def atomWrites (aop : AtomOp) (old op1 : Nat) : Bool :=
  match aop with
  | .ld => false
  | .cas => decide (old = op1)
  | _ => true

/-- A lane's old value taken into its destination. -/
def Warp.takeOld (w : Warp) (o : Op) (aop : AtomOp) (ty : AtomTy) (d lane old : Nat) : Warp :=
  if aop = .st ∨ o.ctr.isNone then w
  else (groupWrites (atomGroup ty d) old).foldl (fun x p => x.vset p.1 lane p.2) w

/-- One lane's scratchpad atomic. -/
def State.atomScratchLane (o : Op) (aop : AtomOp) (ty : AtomTy) (d : Nat) (s : State) (a : LaneAcc) : State :=
  match s.findTeam o.team with
  | none => s
  | some t =>
    let n := 4 * atomWords ty
    let old := leVal (t.scratchRead a.pa n)
    let s1 := if atomWrites aop old a.op1 then
        s.updTeam o.team fun x => x.scratchWrite a.pa (leBytes n (atomNew aop ty old a.op1 a.op2))
      else s
    s1.updWarp o.team o.warp fun w => w.takeOld o aop ty d a.lane old

/-- The home serves no request for a line, and has granted it to no L2 that has not received it (R233). -/
def State.homeIdle (s : State) (line : Nat) : Bool :=
  (s.dirEntry line).busy == .idle && !(s.coh.any fun m => m.line == line && (match m.kind with
    | .grant _ _ => true
    | _ => false))

/-- The home takes a line back from the L2s: the owner's gathered bytes are merged and no L2 holds it (R216, R222). -/
def State.recallLine (s : State) (line : Nat) : State :=
  let s1 := s.snoopOwner line
  let s2 := { s1 with l2 := s1.l2.filter fun x => x.line != line }
  match KMap.find s2.dir line with
  | some e => s2.setDir line { e with state := .i, owner := 0, sharers := [] }
  | none => s2

/-- The line of an atomic held exclusively at the place where it is performed (R191, R222): none while it waits, otherwise the
data fault it delivers, if any. At the cluster's L2 the line is in E or M; at the home no L2 holds it. An atomic that does not read
meets no fault of the data (R181). -/
def State.exclusive (s : State) (o : Op) (home reads : Bool) (line va : Nat) : Option (Option DataFault) × State :=
  let cl := o.core / 8
  let h := s.hintOf o.world .default
  let note := fun (x : State) => x.noteMem o.core o.world (logAgent 0 o.core) logAtomic va (128 * line) 1
  if home then
    if !s.homeIdle line then (none, s)
    else
      let r := (note s).readLine o.world line
      (some r.1, ((r.2.recallLine line).homeTrip cl o.world line true).useLlc o.world line h true)
  else
    match s.l2Find cl o.world line with
    | some x =>
      (if x.state = .m ∨ x.state = .e then some (if (s.lineMeta line).p then some .integrity else none) else none,
        (s.askHome cl o.world line true h).touchL2 cl o.world line h)
    | none =>
      if s.requested cl line then (none, s)
      else
        let r := (note s).fetchLine cl o.world line true h
        match r.1 with
        | some f => if reads then (some (some f), r.2) else (none, r.2.askHome cl o.world line true h)
        | none => (none, r.2)

/-- The scope at which an atomic's write releases (R217, R220): its own if it releases, else that of the release fence before
it. -/
def Op.releases (o : Op) (scope : Scope) (ord : Order) : Option Scope :=
  if orderReleases ord then some (releaseScope scope ord) else o.fenced

/-- An atomic performed on its line, which its cluster's gathered bytes reach first and which leaves the core's L1 (R191, R216,
R222). A read of a line with a data fault poisons the destination and writes nothing (R181, R335). -/
def State.atomOn (s : State) (o : Op) (aop : AtomOp) (ty : AtomTy) (scope : Scope) (ord : Order) (wide : Bool) (d : Nat)
    (fault : Option DataFault) (a : LaneAcc) : State :=
  let n := 4 * atomWords ty
  let line := lineOf a.pa
  let s1 := (s.mergeLine (o.core / 8) line).dropL1Line o.core o.world line
  let watch := fun (w : Warp) => if wide then { w with watched := KMap.put w.watched line false } else w
  match (if aop = .st then none else fault) with
  | some f =>
    if o.ctr.isNone then s1
    else s1.updWarp o.team o.warp fun w =>
      { w with poison := (atomGroup ty d).foldl (fun m r =>
          KMap.put m (vkey r a.lane) { hdr := o.hdr, idx := o.idx, addr := a.va, fault := f }) w.poison }
  | none =>
    let old := s1.readNat a.pa n
    let s2 := if atomWrites aop old a.op1 then
        s1.writeMem (some (o.team, o.warp)) a.pa (leBytes n (atomNew aop ty old a.op1 a.op2))
      else s1
    let s3 := match o.releases scope ord with
      | some x => if orderReleases ord || atomWrites aop old a.op1 then s2.noteRelease o.core o.world x line else s2
      | none => s2
    s3.updWarp o.team o.warp fun w => watch (w.takeOld o aop ty d a.lane old)

/-- A line's last release is narrower than device (R223). -/
def State.narrowLine (s : State) (line : Nat) : Bool :=
  match (s.dirEntry line).lrs with
  | some .team | some .clu => true
  | _ => false

/-- The drain of a line's last release requested, unless one is under way (R223). -/
def State.requestDrain (s : State) (world line : Nat) (op : Option Nat) : State :=
  let e := s.dirEntry line
  if e.draining.isSome then s
  else
    let m : DrainMsg :=
      { no := s.nextUid, world := world, cluster := e.lrc, line := some line, who := none, op := op, acked := false }
    { s.setDir line { e with draining := some s.nextUid } with drains := s.drains ++ [m], nextUid := s.nextUid + 1 }

/-- The home performs an atomic: at device scope or wider, on a PIM page, or for a world whose lines no L2 takes, unless its L2
still has this one in E or M (R182, R191, R330). -/
def State.atHomeOf (s : State) (o : Op) (wide : Bool) (line : Nat) : Bool :=
  let alone := match s.l2Find (o.core / 8) o.world line with
    | some x => x.state == .m || x.state == .e
    | none => false
  wide || s.potPim (line / 128) || (s.hintOf o.world .default == .bypass && !alone)

/-- One lane of a global atomic, if its line can be held now; a promoted acquire first has the last release's cluster drained
(R223). A store at the home whose packet fails is not performed, and a record is posted (R333). -/
def State.atomLane (o : Op) (aop : AtomOp) (ty : AtomTy) (scope : Scope) (ord : Order) (pro : Bool) (d : Nat)
    (p : List Nat × State) (a : LaneAcc) : List Nat × State :=
  let wide := scopeWide scope || ord == .sc || pro
  let line := lineOf a.pa
  let home := p.2.atHomeOf o wide line
  if pro && p.2.narrowLine line then (p.1, p.2.requestDrain o.world line (some o.id))
  else if home && aop == .st && p.2.homeIdle line && p.2.packetFails line then
    (p.1 ++ [a.lane], (p.2.dropPacket line).postOpFault o hubSource .integrity fun f => { f with addr := a.va })
  else
    match p.2.exclusive o home (aop != .st) line a.va with
    | (some f, s1) => (p.1 ++ [a.lane], s1.atomOn o aop ty scope ord wide d f a)
    | (none, s1) => (p.1, s1)

/-- An `.sc` atomic with its ticket, taken before it is performed (R224). -/
def State.ticketed (s : State) (o : Op) (sc : Bool) : Op × State :=
  if sc && o.ticket.isNone then
    let o1 := { o with ticket := some s.ticket }
    (o1, s.takeTicket.putOp o1)
  else (o, s)

/-- An atomic with an older ticket is outstanding: ticket order is the order of performance (R224). -/
def State.olderTicket (s : State) (o : Op) : Bool :=
  match o.ticket with
  | some n => s.ops.any fun x => (match x.ticket with
    | some m => decide (m < n)
    | none => false)
  | none => false

/-- The lanes that an event names, in its order (R189). -/
def laneOrder (order : List Nat) (lanes : List LaneAcc) : List LaneAcc :=
  (order.eraseDups).filterMap fun l => lanes.find? fun a => a.lane == l

/-- Lanes of a global atomic performed: a release at device scope drains first (R217), an acquire wider than team drops the
core's L1 lines of the world (R215). -/
def State.performAtomic (s : State) (o : Op) (aop : AtomOp) (ty : AtomTy) (scope : Scope) (ord : Order) (pro : Bool)
    (d : Nat) (now : List LaneAcc) : List Nat × State :=
  let sc := ord == .sc
  let s1 := if orderReleases ord && (scopeWide scope || sc) then s.drainWorld (o.core / 8) o.world else s
  let s2 := if orderAcquires ord && (scope != .team || sc || pro) then s1.dropL1 o.core o.world else s1
  now.foldl (State.atomLane o aop ty scope ord pro d) ([], s2)

/-- ATOMIC_COMPLETE: `order`, the lanes performed now, in their order (R189). -/
def execAtomicComplete (op : Nat) (order : List Nat) (s : State) : Out :=
  onOp s op fun o =>
    match o.kind with
    | .atomic true aop ty scope ord pro d lanes =>
      if s.scratchOlder o then s
      else
        let rest := lanes.filter fun a => !order.contains a.lane
        ((laneOrder order lanes).foldl (State.atomScratchLane o aop ty d) s).goOn o
          (.atomic true aop ty scope ord pro d rest) rest.length
    | .atomic false aop ty scope ord pro d lanes =>
      if s.markBlocked o then s
      else
        let p := s.ticketed o (ord == .sc)
        if p.2.olderTicket p.1 then p.2
        else
          let r := p.2.performAtomic p.1 aop ty scope ord pro d (laneOrder order lanes)
          let rest := lanes.filter fun a => !r.1.contains a.lane
          r.2.goOn p.1 (.atomic false aop ty scope ord pro d rest) rest.length
    | _ => s

/-! ### Gathered stores and translations (R216, R326) -/

/-- GATHER_BUFFER_DRAIN: the gathered bytes of the named lines of a cluster reach them, or are lost on the way. -/
def execGatherBufferDrain (cluster : Nat) (lines : List Nat) (s : State) : Out :=
  let out := fun (g : Gathered) => g.cluster == cluster && lines.contains (lineOf g.addr)
  .next (s.mergeWhere out)

/-- Entries of a TLB (R14, R326): the oldest go when it is full. -/
def tlbCap (cluster : Bool) : Nat := if cluster then 16384 else 1024

/-- An entry put into its TLB. -/
def State.fillTlb (s : State) (e : TlbEntry) : State :=
  let mine := fun (x : TlbEntry) => x.cluster == e.cluster && x.unit == e.unit
  let rest := s.tlb.filter fun x => !(mine x && x.world == e.world && x.vpage == e.vpage)
  { s with tlb := (e :: (rest.filter mine).take (tlbCap e.cluster - 1)) ++ rest.filter fun x => !mine x }

/-- PAGE_WALK: a translation both stages allow now enters the core's and its cluster's TLB. -/
def execPageWalk (core world va : Nat) (s : State) : Out :=
  if 128 ≤ core ∨ 2 ^ 58 ≤ va ∨ (s.world world).state ≠ .active then .next s
  else
    match s.pageWalk core world va with
    | (.error _, s1) => .next s1
    | (.ok e, s1) =>
      if !s1.potAllows world e.ppage .read then .next s1 else .next ((s1.fillTlb e).fillTlb { e with cluster := true, unit := core / 8 })

end Sys2Proof.Machine
end

