-- ==== Sys2Proof/Machine/Coherence.lean ====
section
/-! DEFINITION. The directory's and the L2s' sides of the coherence protocol, drains and directory entries (R223, R232 to
R235). The bytes of a line are the same whoever holds it: `State.mem`. -/

namespace Sys2Proof.Machine

/-- A message of a kind for a line and cluster in flight. -/
def State.cohMsg (s : State) (line cluster : Nat) (p : CohKind → Bool) : Option CohMsg :=
  s.hasMsg fun m => m.line == line && m.cluster == cluster && p m.kind

/-- Other holders of a line the home knows of, less the requester. -/
def DirEntry.others (e : DirEntry) (req : Nat) : List Nat :=
  let own := match e.state with
    | .x | .o => [e.owner]
    | _ => []
  ((own ++ e.sharers).eraseDups).filter fun c => c != req

/-- A message to a cluster. -/
def State.tell (s : State) (line cluster world : Nat) (hint : Hint) (k : CohKind) : State :=
  s.send { kind := k, line := line, cluster := cluster, world := world, hint := hint }

/-- The line passes to one owner (R233). -/
def State.grantOwner (s : State) (line req world : Nat) (hint : Hint) (e : DirEntry) (st : Moesi) (data : Bool) : State :=
  (s.setDir line { e with state := .x, owner := req, sharers := [], world := world, busy := .idle }).tell line req world hint
    (.grant st data)

/-- SA entered: every other holder is invalidated; with none the line passes at once (R233). -/
def State.enterSa (s : State) (m : CohMsg) (e : DirEntry) (data : Bool) : State :=
  let os := e.others m.cluster
  if os = [] then s.grantOwner m.line m.cluster m.world m.hint e .m data
  else
    os.foldl (fun x c => x.tell m.line c m.world m.hint .inv)
      (s.setDir m.line { e with busy := .sa m.cluster data os, world := m.world, hint := m.hint })

/-- FD entered: the owner is asked to forward (R233). -/
def State.enterFd (s : State) (m : CohMsg) (e : DirEntry) (write : Bool) : State :=
  (s.setDir m.line { e with busy := .fd m.cluster write e.owner, world := m.world, hint := m.hint }).tell m.line e.owner m.world
    m.hint (.fwd write m.cluster)

/-- ID entered: the home waits for memory (R233). -/
def State.enterId (s : State) (m : CohMsg) (e : DirEntry) (write : Bool) : State :=
  s.setDir m.line { e with busy := .id m.cluster write, world := m.world, hint := m.hint }

/-- A read request served at an idle line (R232, R233). A cluster that owns the line asks for another world's copy of it, since
each copy carries its world's tag (R330): the copy is granted at once, and the cluster stays the owner. -/
def State.serveGetS (s : State) (m : CohMsg) : State :=
  let e := s.dirEntry m.line
  match e.state with
  | .i => s.enterId m e false
  | .s =>
    (s.setDir m.line { e with sharers := if m.cluster ∈ e.sharers then e.sharers else e.sharers ++ [m.cluster] }).tell
      m.line m.cluster m.world m.hint (.grant .s true)
  | .x | .o => if e.owner = m.cluster then s.tell m.line m.cluster m.world m.hint (.grant .s true) else s.enterFd m e false

/-- A request to write served at an idle line (R233). DESIGN CHOICE: R233 lists O under SA and under FD; a GetM to a line in O is
served through SA, as one of the line's own owner is (log 94). -/
def State.serveGetM (s : State) (m : CohMsg) : State :=
  let e := s.dirEntry m.line
  match e.state with
  | .i => s.enterId m e true
  | .s | .o => s.enterSa m e true
  | .x => if e.owner = m.cluster then s.enterSa m e true else s.enterFd m e true

/-- A cluster's copy is still known to the home: an upgrade needs no data (R234). -/
def DirEntry.knows (e : DirEntry) (cluster : Nat) : Bool :=
  match e.state with
  | .s => decide (cluster ∈ e.sharers)
  | .o => decide (cluster ∈ e.sharers) || e.owner == cluster
  | _ => false

/-- An upgrade for a sharer, otherwise a GetM (R234). -/
def State.serveUpg (s : State) (m : CohMsg) : State :=
  let e := s.dirEntry m.line
  if e.knows m.cluster then s.enterSa m e false else s.serveGetM m

/-- A Put of a cluster for a line is in flight. -/
def State.putOut (s : State) (line cluster : Nat) : Bool :=
  (s.cohMsg line cluster fun k => k == .putE || k == .putM || k == .putO).isSome

/-- A request that the home cannot serve now: another is being served (R233), or the requester's own Put for the line, sent before
it, has not arrived (R235; log 94). -/
def State.mustQueue (s : State) (m : CohMsg) : Bool := (s.dirEntry m.line).busy != .idle || s.putOut m.line m.cluster

/-- A request at its home: the first of the line's queue is served when it can be; one that arrives waits behind those that
wait, in their order of arrival, or is served at once (R233). -/
def atHome (s : State) (line cluster : Nat) (k : CohKind) (serve : State → CohMsg → State) : Out :=
  let e := s.dirEntry line
  let waiting : Option CohMsg := match e.queue with
    | m :: _ => if m.cluster == cluster && m.kind == k then some m else none
    | [] => none
  match waiting with
  | some m => .next (if s.mustQueue m then s else serve (s.setDir line { e with queue := e.queue.tail }) m)
  | none =>
    match s.cohMsg line cluster (fun x => x == k) with
    | none => .next s
    | some m =>
      let s1 := s.takeMsg m
      .next (if e.queue ≠ [] ∨ s.mustQueue m then s1.setDir line { e with queue := e.queue ++ [m] } else serve s1 m)

/-- HOME_GETS. -/
def execHomeGets (line cluster : Nat) (s : State) : Out := atHome s line cluster .getS State.serveGetS

/-- HOME_GETM. -/
def execHomeGetm (line cluster : Nat) (s : State) : Out := atHome s line cluster .getM State.serveGetM

/-- HOME_UPG. -/
def execHomeUpg (line cluster : Nat) (s : State) : Out := atHome s line cluster .upg State.serveUpg

/-- A cluster's copies of a line, of every world. -/
def State.l2Copies (s : State) (cluster line : Nat) : List L2Line :=
  s.l2.filter fun x => x.cluster == cluster && x.line == line

/-- A grant of a line to a cluster is in flight. -/
def State.granted (s : State) (line cluster : Nat) : Bool :=
  (s.cohMsg line cluster fun k => match k with
    | .grant _ _ => true
    | _ => false).isSome

/-- A Put taken: from the owner it clears the owner, otherwise it changes nothing; either way the cluster's write-back
buffer, which the message in flight stands for, is free again (R235). A cluster with another world's copy stays a sharer. -/
def State.takePut (s : State) (m : CohMsg) : State :=
  let e := s.dirEntry m.line
  let s1 := s.takeMsg m
  if (e.state = .x ∨ e.state = .o) ∧ e.owner = m.cluster then
    let rest := (e.sharers.filter fun c => c != m.cluster)
      ++ (if s.l2Copies m.cluster m.line ≠ [] ∨ s.granted m.line m.cluster then [m.cluster] else [])
    s1.setDir m.line { e with state := if rest = [] then .i else .s, sharers := rest, owner := 0 }
  else s1

/-- A Put of a kind reaches the home; Puts are taken at once (R233). -/
def putAtHome (s : State) (line cluster : Nat) (k : CohKind) : Out :=
  match s.cohMsg line cluster (fun x => x == k) with
  | none => .next s
  | some m => .next (s.takePut m)

/-- HOME_PUTE. -/
def execHomePute (line cluster : Nat) (s : State) : Out := putAtHome s line cluster .putE
/-- A Put with data: the current owner's go into the LLC, or are lost on the way (R333); a former owner's are discarded
(R235). -/
def putData (s : State) (line cluster : Nat) (k : CohKind) : Out :=
  match s.cohMsg line cluster (fun x => x == k) with
  | none => .next s
  | some m =>
    let e := s.dirEntry m.line
    .next (if (e.state = .x ∨ e.state = .o) ∧ e.owner = m.cluster then
        if s.packetFails line then (s.takePut m).loseLine m.world m.cluster line else (s.takePut m).useLlc m.world line m.hint true
      else s.takePut m)

/-- HOME_PUTM. -/
def execHomePutm (line cluster : Nat) (s : State) : Out := putData s line cluster .putM
/-- HOME_PUTO: the line becomes S, or I with no sharers. -/
def execHomePuto (line cluster : Nat) (s : State) : Out := putData s line cluster .putO

/-- HOME_MEMORY_DATA: ID is left (R233). -/
def execHomeMemoryData (line : Nat) (s : State) : Out :=
  let e := s.dirEntry line
  match e.busy with
  | .id req write => .next (s.grantOwner line req e.world e.hint e (if write then .m else .e) true)
  | _ => .next s

/-- HOME_INVALIDATION_ACK: SA is left when every other holder has acknowledged (R233), and a Put that the requester sent while it
waited has arrived (R235; log 94). -/
def execHomeInvalidationAck (line cluster : Nat) (s : State) : Out :=
  match s.cohMsg line cluster (fun x => x == .invAck) with
  | none => .next s
  | some m =>
    let s1 := s.takeMsg m
    let e := s1.dirEntry line
    match e.busy with
    | .sa req data acks =>
      let left := acks.filter fun c => c != cluster
      if left = [] then
        if s.putOut line req then .next s else .next (s1.grantOwner line req e.world e.hint e .m data)
      else .next (s1.setDir line { e with busy := .sa req data left, sharers := e.sharers.filter fun c => c != cluster })
    | _ => .next s1

/-- HOME_FORWARD_CONFIRM: FD is left (R233). After a GetS, O with the old owner and the requester as sharers, or S if
the owner held E; an owner whose Put was taken meanwhile is no sharer. -/
def execHomeForwardConfirm (line cluster : Nat) (s : State) : Out :=
  match s.hasMsg fun m => m.line == line && m.cluster == cluster && (match m.kind with
    | .confirm _ => true
    | _ => false) with
  | none => .next s
  | some m =>
    let s1 := s.takeMsg m
    let e := s1.dirEntry line
    match e.busy, m.kind with
    | .fd req write owner, .confirm wasE =>
      if write then .next (s1.setDir line { e with state := .x, owner := req, sharers := [], busy := .idle })
      else
        let gone := e.state = .i ∨ e.state = .s
        let sharers := ((if gone then e.sharers else owner :: e.sharers) ++ [req]).eraseDups
        .next (s1.setDir line
          { e with state := if gone ∨ wasE then .s else .o, owner := if gone ∨ wasE then 0 else owner,
                   sharers := sharers, busy := .idle })
    | _, _ => .next s1

/-! ### The L2s (R234, R235) -/

/-- A cluster holds no copy of the line any more. -/
def State.dropL2 (s : State) (cluster line : Nat) : State :=
  { s with l2 := s.l2.filter fun x => !(x.cluster == cluster && x.line == line) }

/-- L2_INVALIDATION: the copy is dropped and the home told, whether or not it was held (R232, R234). What the home granted the
cluster before it arrives first (log 94). -/
def execL2Invalidation (line cluster : Nat) (s : State) : Out :=
  match s.cohMsg line cluster (fun x => x == .inv) with
  | none => .next s
  | some m =>
    if s.granted line cluster then .next s else
    let owned := (s.l2Copies cluster line).any fun x => x.state != .s
    let s1 := if owned then s.mergeLine cluster line else s
    .next (((s1.takeMsg m).dropL2 cluster line).tell line cluster m.world m.hint .invAck)

/-- L2_FORWARDED_REQUEST: the owner, or its write-back buffer, sends the data to the requester and confirms (R233,
R235), once it has what the home granted it (log 94). -/
def execL2ForwardedRequest (line cluster : Nat) (s : State) : Out :=
  match s.hasMsg fun m => m.line == line && m.cluster == cluster && (match m.kind with
    | .fwd _ _ => true
    | _ => false) with
  | none => .next s
  | some m =>
    match m.kind with
    | .fwd write dest =>
      if s.granted line cluster then .next s else
      let s1 := (s.mergeLine cluster line).takeMsg m
      let copies := s1.l2Copies cluster line
      let dirty := (s1.cohMsg line cluster fun k => k == .putM || k == .putO).isSome
      let wasE := !dirty && copies.all fun x => x.state == .e || x.state == .s
      let s2 :=
        if write then s1.dropL2 cluster line
        else
          { s1 with l2 := s1.l2.map fun x =>
              if x.cluster = cluster ∧ x.line = line then
                { x with state := match x.state with
                  | .m => .o
                  | .e => .s
                  | y => y }
              else x }
      let grant : CohMsg :=
        { kind := .grant (if write then .m else .s) true, line := line, cluster := dest, world := m.world, hint := m.hint }
      .next ((s2.forward cluster grant).tell line cluster m.world m.hint (.confirm wasE))
    | _ => .next s

/-- L2_GRANT: the requesting L2 holds the line in the state granted (R233, R234). -/
def execL2Grant (line cluster : Nat) (s : State) : Out :=
  match s.hasMsg fun m => m.line == line && m.cluster == cluster && (match m.kind with
    | .grant _ _ => true
    | _ => false) with
  | none => .next s
  | some m =>
    match m.kind with
    | .grant st _ =>
      let s1 := s.takeMsg m
      match s1.l2Find cluster m.world line with
      | some x => .next { s1 with l2 := s1.l2.map fun y => if y = x then { y with state := st } else y }
      | none => .next (s1.fillL2 cluster m.world line m.hint st)
    | _ => .next s

/-! ### Drains (R223) -/

/-- PROMOTION_DRAIN: the cluster merges the world's gathered stores and acknowledges. -/
def execPromotionDrain (world cluster : Nat) (s : State) : Out :=
  let mine := fun (m : DrainMsg) => m.world == world && m.cluster == cluster
  if !(s.drains.any fun m => mine m && !m.acked) then .next s
  else
    let s1 := s.drainWorld cluster world
    .next { s1 with drains := s1.drains.map fun m => if mine m then { m with acked := true } else m }

/-- A line's drain acknowledged: LRS becomes device, if it is the drain of the line's last release (R223). -/
def State.drained (s : State) (m : DrainMsg) : State :=
  match m.line with
  | none => s
  | some n =>
    let e := s.dirEntry n
    if e.draining = some m.no then s.setDir n { e with lrs := some .dev, draining := none } else s

/-- DRAIN_ACK: the lines drained; a promoted fence takes its own acknowledgements. -/
def execDrainAck (world cluster : Nat) (s : State) : Out :=
  let mine := fun (m : DrainMsg) => m.world == world && m.cluster == cluster && m.acked && m.line.isSome
  let s1 := (s.drains.filter mine).foldl State.drained s
  .next { s1 with drains := s1.drains.filter fun m => !mine m }

/-- DIRECTORY_ENTRY_DROP: an entry of a line no L2 holds goes; first the drain, if LRS is narrower than device. -/
def execDirectoryEntryDrop (line : Nat) (s : State) : Out :=
  let e := s.dirEntry line
  if e.busy ≠ .idle ∨ e.queue ≠ [] ∨ e.state ≠ .i ∨ e.draining.isSome ∨ (s.coh.any fun m => m.line == line) then .next s
  else if s.narrowLine line then .next (s.requestDrain e.world line none)
  else .next { s with dir := KMap.erase s.dir line }

end Sys2Proof.Machine
end

