-- ==== Sys2Proof/Machine/Convert.lean ====
section
/-! DEFINITION. Conversions (R86, R116, R163) and the rotation in registers (R87, R164 to R167). -/

namespace Sys2Proof
open Sys2Proof.Machine

/-! ### Types -/

/-- Width in bits (R106). -/
def NumTy.bits : NumTy → Nat
  | .i8 | .n8 => 8
  | .i16 | .n16 | .bf16 => 16
  | .i32 | .n32 | .f32 => 32
  | .i64 | .n64 | .f64 => 64

def NumTy.signed : NumTy → Bool
  | .i8 | .i16 | .i32 | .i64 => true
  | _ => false

/-- The floating format of a type, if it is one. -/
def NumTy.fmt : NumTy → Option Fmt
  | .bf16 => some Machine.bf16
  | .f32 => some fp32
  | .f64 => some fp64
  | _ => none

def NumTy.isFloat (t : NumTy) : Bool := t.fmt.isSome

/-- The integer a bit pattern of the type stands for. -/
def NumTy.toInt (t : NumTy) (n : Nat) : Int := if t.signed then signExt t.bits n else (n % 2 ^ t.bits : Nat)

/-- Bounds of an integer type (R106). -/
def NumTy.lo (t : NumTy) : Int := if t.signed then -(2 ^ (t.bits - 1) : Nat) else 0
def NumTy.hi (t : NumTy) : Int := if t.signed then (2 ^ (t.bits - 1) : Nat) - 1 else (2 ^ t.bits : Nat) - 1

/-- An integer as the bits of its type. -/
def NumTy.ofInt (t : NumTy) (v : Int) : Nat := (v % (2 ^ t.bits : Nat)).toNat

/-- The legality rules of R86. -/
def cvtOk (dt st : NumTy) (rm : RoundSel) (sat : Bool) : Bool :=
  dt != st && !((dt == .i8 || dt == .n8) && st.isFloat) && !(sat && dt.isFloat)
    && !(rm != .fpmode && !dt.isFloat && !st.isFloat)

/-- The rounding mode the rm field selects (R86, R116). -/
def RoundSel.mode (r : RoundSel) (w : Warp) : Mode :=
  match r with
  | .fpmode => w.mode
  | .rne => .rne
  | .rtz => .rtz
  | .rdn => .rdn
  | .rup => .rup

/-- How a result stands in its register: i8 and i16 sign-extended, narrower ones zero-extended (R163). -/
def NumTy.place (t : NumTy) (n : Nat) : Nat :=
  match t with
  | .i8 | .i16 => (BitVec.ofInt 32 (signExt t.bits n)).toNat
  | _ => n

end Sys2Proof

namespace Sys2Proof.Machine

/-- A floating value to an integer type: range is judged on the rounded value (R116). -/
def floatToInt (dt : NumTy) (mode : Mode) : XR → Int × Flags
  | .nan => (0, flagNV)
  | .inf neg => (if neg then dt.lo else dt.hi, flagNV)
  | .fin neg n d =>
    let r := (XR.fin neg n d).toInt mode
    if r < dt.lo then (dt.lo, flagNV)
    else if dt.hi < r then (dt.hi, flagNV)
    else (r, if (XR.fin neg n d).isInt then 0 else flagNX)

/-- Integer to integer (R116): only a narrower or same-width destination saturates. -/
def intToInt (dt st : NumTy) (sat : Bool) (v : Int) : Int :=
  if sat && decide (dt.bits ≤ st.bits) then max dt.lo (min dt.hi v) else v

/-- One conversion of bits (R116). -/
def convert (dt st : NumTy) (mode : Mode) (sat ftz : Bool) (n : Nat) : Nat × Flags :=
  match st.fmt, dt.fmt with
  | none, none => (dt.ofInt (intToInt dt st sat (st.toInt n)), 0)
  | none, some f => (XR.ofInt (st.toInt n)).round f mode ftz
  | some g, none => let r := floatToInt dt mode (g.val ftz n); (dt.ofInt r.1, r.2)
  | some g, some f => let r := (g.val ftz n).round f mode ftz; (r.1, r.2 ||| snanFlag g [n])

def cvtRegs (t : NumTy) (r : Nat) : List Nat := if t.bits = 64 then [r, r + 1] else [r]

def Team.okNum (t : Team) (ty : NumTy) (r : Nat) : Bool := if ty.bits = 64 then t.okV2 r else t.okV r

/-- `cvt` (R163). -/
def execCvt (d a : Nat) (dt st : NumTy) (rm : RoundSel) (sat : Bool) (s : State) : Out :=
  laneOpF s (fun t => cvtOk dt st rm sat && t.okNum dt d && t.okNum st a) (cvtRegs st a) fun w l =>
    let r := convert dt st (rm.mode w) sat w.ftz (w.vgroup (cvtRegs st a) l % 2 ^ st.bits)
    (groupWrites (cvtRegs dt d) (dt.place r.1), r.2)

/-! ### Rotation in registers -/

/-- Registers of a group (R164). -/
def blkRegs (b : Blk) : Nat :=
  match b with
  | .identity | .b16 => 1
  | .b64 => 2
  | .b256 => 8

/-- The blocks of a group: offset of the block index from s62, and each element's register offset and lane (R164). -/
def groupBlocks (b : Blk) : List (Nat × List (Nat × Nat)) :=
  match b with
  | .identity => (List.range 32).map fun l => (0, [(0, l)])
  | .b16 => [(0, (List.range 16).map fun l => (0, l)), (1, (List.range 16).map fun l => (0, 16 + l))]
  | .b64 => [(0, (List.range 64).map fun i => (i / 32, i % 32))]
  | .b256 => [(0, (List.range 256).map fun i => (i / 32, i % 32))]

/-- What a block's elements become: registers offset from vd with lanes and values, and flags. -/
abbrev BlockOut := List (Nat × Nat × Nat) × Flags

/-- The results of a floating delivery, element by element. -/
def deliverBlock (f : Fmt) (els : List (Nat × Nat)) (r : List XR × Flags) : BlockOut :=
  let ds := r.1.map (deliverRot f)
  ((els.zip ds).map fun p => (p.1.1, p.1.2, p.2.1), r.2 ||| orFlags (ds.map (·.2)))

/-- INT8 codes and the scale beside each element (R165). -/
def deliverCodes (g : Nat) (els : List (Nat × Nat)) (r : List XR × Flags) : BlockOut :=
  let c := narrowI8 r.1
  (((els.zip c.1).map fun p => (p.1.1, p.1.2, (BitVec.ofInt 32 p.2).toNat))
    ++ (els.map fun e => (e.1 + g, e.2, c.2.1)), r.2 ||| c.2.2)

/-- A register as `vrot` reads it: a live lane as it stands, an exited one as +0 (R165). -/
def Warp.rotGet (w : Warp) (r l : Nat) : Nat := if w.live.getLsbD l then (w.vget r l).toNat else 0

/-- One block of `vrot` (R165). -/
def vrotBlock (w : Warp) (a : Nat) (b : Blk) (seed : Word) (fmt : RotFmt) (blk : Nat × List (Nat × Nat)) : BlockOut :=
  let bits := blk.2.map fun e => w.rotGet (a + e.1) e.2
  let xs := bits.map (fp32.val false)
  match b with
  | .identity =>
    let ds := xs.map (XR.rne bf16)
    ((blk.2.zip ds).map fun p => (p.1.1, p.1.2, p.2.1), snanFlag fp32 bits ||| orFlags (ds.map (·.2)))
  | _ =>
    let r := gavotteFwd xs seed ((w.sget 62).toNat + blk.1) 24
    match fmt with
    | .f32bf16 => deliverBlock bf16 blk.2 r
    | .f32i8 => deliverCodes (blkRegs b) blk.2 r
    | _ => deliverBlock fp32 blk.2 r

/-- The input of `virot` for an element (R166). -/
def virotIn (w : Warp) (a g : Nat) (fmt : RotFmt) (e : Nat × Nat) : XR :=
  match fmt with
  | .bf16f32 => bf16.val false (w.rotGet (a + e.1) e.2 % 2 ^ 16)
  | .i8f32 =>
    match fp32.val false (w.rotGet (a + g + e.1) e.2) with
    | .fin neg n d => (XR.mul (XR.ofInt (signExt 8 (w.rotGet (a + e.1) e.2))) (.fin neg n d)).1
    | _ => .nan
  | _ => fp32.val false (w.rotGet (a + e.1) e.2)

/-- One block of `virot` (R166). -/
def virotBlock (w : Warp) (a : Nat) (b : Blk) (seed : Word) (fmt : RotFmt) (blk : Nat × List (Nat × Nat)) : BlockOut :=
  let xs := blk.2.map (virotIn w a (blkRegs b) fmt)
  match b with
  | .identity =>
    let bits := blk.2.map fun e => w.rotGet (a + e.1) e.2 % 2 ^ 16
    ((blk.2.zip xs).map fun p => (p.1.1, p.1.2, (p.2.rne fp32).1), snanFlag bf16 bits)
  | _ => deliverBlock fp32 blk.2 (gavotteInv xs seed ((w.sget 62).toNat + blk.1) 24)

/-- The active lanes of the destination group take their results; a block's flags count when one of its lanes is
active (R113, R165). -/
def Warp.writeBlocks (w : Warp) (d : Nat) (bs : List BlockOut) : Warp :=
  bs.foldl (fun x b =>
    if b.1.any fun e => w.active.getLsbD e.2.1 then
      (b.1.foldl (fun y e =>
        if w.active.getLsbD e.2.1 then y.vset (d + e.1) e.2.1 (BitVec.ofNat 32 e.2.2) else y) x).addFlags b.2
    else x) w

/-- Groups of a rotation: multiples of g, and below t′ (R164, R165). -/
def Team.okGroup (t : Team) (r g n : Nat) : Bool := r % g == 0 && decide (r + n ≤ t.nregs)

/-- A rotation of register blocks. -/
def rotateRegs (s : State) (d a : Nat) (b : Blk) (sg nd na : Nat) (okFmt : Bool)
    (f : Warp → Word → Nat × List (Nat × Nat) → BlockOut) : Out :=
  onSeeing s false fun s t seeds _ w =>
    require (okFmt && t.okGroup d (blkRegs b) nd && t.okGroup a (blkRegs b) na) s w <|
      reading s w ((List.range na).map (a + ·)) w.live <|
        let seed := Sparse.get 0 seeds sg
        .done s (w.writeBlocks d ((groupBlocks b).map (f w seed)))

/-- `vrot` (R165). -/
def execVrot (d a : Nat) (blk : Blk) (sg : Nat) (fmt : RotFmt) (s : State) : Out :=
  let g := blkRegs blk
  let ok := match fmt with
    | .f32f32 | .f32i8 => blk != .identity
    | .f32bf16 => true
    | _ => false
  rotateRegs s d a blk sg (if fmt = .f32i8 then 2 * g else g) g ok fun w seed b => vrotBlock w a blk seed fmt b

/-- `virot` (R166). -/
def execVirot (d a : Nat) (blk : Blk) (sg : Nat) (fmt : RotFmt) (s : State) : Out :=
  let g := blkRegs blk
  let ok := match fmt with
    | .f32f32 | .i8f32 => blk != .identity
    | .bf16f32 => true
    | _ => false
  rotateRegs s d a blk sg g (if fmt = .i8f32 then 2 * g else g) ok fun w seed b => virotBlock w a blk seed fmt b

end Sys2Proof.Machine
end

