-- ==== Sys2Proof/Machine/Scalar.lean ====
section
/-! DEFINITION. Scalar arithmetic, logic, moves and compares, with registers and with immediates (R80, R143). -/

namespace Sys2Proof.Machine

/-! ### What each operation computes on `n`-bit values -/

/-- The amount of a shift by a value: its low 5 bits, or 6 bits for 64-bit operands (R143). -/
def shiftBy {n : Nat} (m : Nat) (b : BitVec n) : Nat := b.toNat % m

/-- The high half of the signed product (R143). -/
def mulhiS (n : Nat) (a b : BitVec n) : BitVec n := BitVec.ofInt n (a.toInt * b.toInt / (2 ^ n : Nat))

/-- The high half of the unsigned product (R143). -/
def mulhiU (n : Nat) (a b : BitVec n) : BitVec n := BitVec.ofNat n (a.toNat * b.toNat / 2 ^ n)

/-- `add` (R143). -/
def aluAdd {n : Nat} (a b : BitVec n) : BitVec n := a + b

/-- `sub` (R143). -/
def aluSub {n : Nat} (a b : BitVec n) : BitVec n := a - b

/-- `mul` (R143). -/
def aluMul {n : Nat} (a b : BitVec n) : BitVec n := a * b

/-- `mulhi.i32` (R143). -/
def aluMulhiI32 {n : Nat} (a b : BitVec n) : BitVec n := mulhiS n a b

/-- `mulhi.n32` (R143). -/
def aluMulhiN32 {n : Nat} (a b : BitVec n) : BitVec n := mulhiU n a b

/-- `and` (R143). -/
def aluAnd {n : Nat} (a b : BitVec n) : BitVec n := a &&& b

/-- `or` (R143). -/
def aluOr {n : Nat} (a b : BitVec n) : BitVec n := a ||| b

/-- `xor` (R143). -/
def aluXor {n : Nat} (a b : BitVec n) : BitVec n := a ^^^ b

/-- `shl` (R143). -/
def aluShl {n : Nat} (a b : BitVec n) : BitVec n := a <<< shiftBy n b

/-- `shr` (R143). -/
def aluShr {n : Nat} (a b : BitVec n) : BitVec n := a >>> shiftBy n b

/-- `sra` (R143). -/
def aluSra {n : Nat} (a b : BitVec n) : BitVec n := a.sshiftRight (shiftBy n b)

/-- `min.i32` (R143). -/
def aluMinI32 {n : Nat} (a b : BitVec n) : BitVec n := if a.slt b then a else b

/-- `max.i32` (R143). -/
def aluMaxI32 {n : Nat} (a b : BitVec n) : BitVec n := if a.slt b then b else a

/-- `min.n32` (R143). -/
def aluMinN32 {n : Nat} (a b : BitVec n) : BitVec n := if a.ult b then a else b

/-- `max.n32` (R143). -/
def aluMaxN32 {n : Nat} (a b : BitVec n) : BitVec n := if a.ult b then b else a

/-- `cmp.eq` (R143). -/
def cmpEq {n : Nat} (a b : BitVec n) : Bool := a == b

/-- `cmp.ne` (R143). -/
def cmpNe {n : Nat} (a b : BitVec n) : Bool := a != b

/-- `cmp.lt.i32` (R143). -/
def cmpLtI32 {n : Nat} (a b : BitVec n) : Bool := a.slt b

/-- `cmp.le.i32` (R143). -/
def cmpLeI32 {n : Nat} (a b : BitVec n) : Bool := a.sle b

/-- `cmp.lt.n32` (R143). -/
def cmpLtN32 {n : Nat} (a b : BitVec n) : Bool := a.ult b

/-- `cmp.le.n32` (R143). -/
def cmpLeN32 {n : Nat} (a b : BitVec n) : Bool := a.ule b

/-- `cmp.gt.i32` (R143). -/
def cmpGtI32 {n : Nat} (a b : BitVec n) : Bool := b.slt a

/-- `cmp.ge.i32` (R143). -/
def cmpGeI32 {n : Nat} (a b : BitVec n) : Bool := b.sle a

/-- `cmp.gt.n32` (R143). -/
def cmpGtN32 {n : Nat} (a b : BitVec n) : Bool := b.ult a

/-- `cmp.ge.n32` (R143). -/
def cmpGeN32 {n : Nat} (a b : BitVec n) : Bool := b.ule a

/-! ### Operand forms -/

/-- S: 32-bit registers, or, under w, 64-bit pairs (R80). -/
def aluS (s : State) (d a b : Nat) (w : Bool) (f : Word → Word → Word) (g : DWord → DWord → DWord) : Out :=
  if w then scalarOp s (okS2 d && okS2 a && okS2 b) fun x => x.sset64 d (g (x.sget64 a) (x.sget64 b))
  else scalarOp s true fun x => x.sset d (f (x.sget a) (x.sget b))

/-- SI: b is the immediate sign-extended to 32 bits (R143). -/
def aluSI (s : State) (d a : Nat) (imm : Int) (f : Word → Word → Word) : Out :=
  scalarOp s true fun x => x.sset d (f (x.sget a) (imm32 imm))

/-- SI shifts: an amount outside 0 to 31 is F_ILLEGAL (R80). -/
def shiftSI (s : State) (d a : Nat) (imm : Int) (f : Word → Word → Word) : Out :=
  scalarOp s (decide (0 ≤ imm) && decide (imm ≤ 31)) fun x => x.sset d (f (x.sget a) (imm32 imm))

/-- Compares write 1 or 0 to one register (R143). -/
def flagWord (b : Bool) : Word := if b then 1 else 0

def cmpS (s : State) (d a b : Nat) (w : Bool) (f : Word → Word → Bool) (g : DWord → DWord → Bool) : Out :=
  if w then scalarOp s (okS2 a && okS2 b) fun x => x.sset d (flagWord (g (x.sget64 a) (x.sget64 b)))
  else scalarOp s true fun x => x.sset d (flagWord (f (x.sget a) (x.sget b)))

def cmpSI (s : State) (d a : Nat) (imm : Int) (f : Word → Word → Bool) : Out :=
  scalarOp s true fun x => x.sset d (flagWord (f (x.sget a) (imm32 imm)))

/-! ### Meanings -/

/-- `add` (R143). -/
def execSAdd (d a b : Nat) (w : Bool) (s : State) : Out := aluS s d a b w aluAdd aluAdd
/-- `sub` (R143). -/
def execSSub (d a b : Nat) (w : Bool) (s : State) : Out := aluS s d a b w aluSub aluSub
/-- `mul` (R143). -/
def execSMul (d a b : Nat) (s : State) : Out := aluS s d a b false aluMul aluMul
/-- `mulhi.i32` (R143). -/
def execSMulhiI32 (d a b : Nat) (s : State) : Out := aluS s d a b false aluMulhiI32 aluMulhiI32
/-- `mulhi.n32` (R143). -/
def execSMulhiN32 (d a b : Nat) (s : State) : Out := aluS s d a b false aluMulhiN32 aluMulhiN32
/-- `and` (R143). -/
def execSAnd (d a b : Nat) (w : Bool) (s : State) : Out := aluS s d a b w aluAnd aluAnd
/-- `or` (R143). -/
def execSOr (d a b : Nat) (w : Bool) (s : State) : Out := aluS s d a b w aluOr aluOr
/-- `xor` (R143). -/
def execSXor (d a b : Nat) (w : Bool) (s : State) : Out := aluS s d a b w aluXor aluXor
/-- `shl` (R143). -/
def execSShl (d a b : Nat) (w : Bool) (s : State) : Out := aluS s d a b w aluShl aluShl
/-- `shr` (R143). -/
def execSShr (d a b : Nat) (w : Bool) (s : State) : Out := aluS s d a b w aluShr aluShr
/-- `sra` (R143). -/
def execSSra (d a b : Nat) (w : Bool) (s : State) : Out := aluS s d a b w aluSra aluSra
/-- `min.i32` (R143). -/
def execSMinI32 (d a b : Nat) (s : State) : Out := aluS s d a b false aluMinI32 aluMinI32
/-- `max.i32` (R143). -/
def execSMaxI32 (d a b : Nat) (s : State) : Out := aluS s d a b false aluMaxI32 aluMaxI32
/-- `min.n32` (R143). -/
def execSMinN32 (d a b : Nat) (s : State) : Out := aluS s d a b false aluMinN32 aluMinN32
/-- `max.n32` (R143). -/
def execSMaxN32 (d a b : Nat) (s : State) : Out := aluS s d a b false aluMaxN32 aluMaxN32
/-- `movs` (R143). -/
def execSMovs (d a : Nat) (w : Bool) (s : State) : Out := aluS s d a a w (fun x _ => x) (fun x _ => x)
/-- `cmp.eq` (R143). -/
def execSCmpEq (d a b : Nat) (w : Bool) (s : State) : Out := cmpS s d a b w cmpEq cmpEq
/-- `cmp.ne` (R143). -/
def execSCmpNe (d a b : Nat) (w : Bool) (s : State) : Out := cmpS s d a b w cmpNe cmpNe
/-- `cmp.lt.i32` (R143). -/
def execSCmpLtI32 (d a b : Nat) (w : Bool) (s : State) : Out := cmpS s d a b w cmpLtI32 cmpLtI32
/-- `cmp.le.i32` (R143). -/
def execSCmpLeI32 (d a b : Nat) (w : Bool) (s : State) : Out := cmpS s d a b w cmpLeI32 cmpLeI32
/-- `cmp.lt.n32` (R143). -/
def execSCmpLtN32 (d a b : Nat) (w : Bool) (s : State) : Out := cmpS s d a b w cmpLtN32 cmpLtN32
/-- `cmp.le.n32` (R143). -/
def execSCmpLeN32 (d a b : Nat) (w : Bool) (s : State) : Out := cmpS s d a b w cmpLeN32 cmpLeN32
/-- `cmp.gt.i32` (R143). -/
def execSCmpGtI32 (d a b : Nat) (w : Bool) (s : State) : Out := cmpS s d a b w cmpGtI32 cmpGtI32
/-- `cmp.ge.i32` (R143). -/
def execSCmpGeI32 (d a b : Nat) (w : Bool) (s : State) : Out := cmpS s d a b w cmpGeI32 cmpGeI32
/-- `cmp.gt.n32` (R143). -/
def execSCmpGtN32 (d a b : Nat) (w : Bool) (s : State) : Out := cmpS s d a b w cmpGtN32 cmpGtN32
/-- `cmp.ge.n32` (R143). -/
def execSCmpGeN32 (d a b : Nat) (w : Bool) (s : State) : Out := cmpS s d a b w cmpGeN32 cmpGeN32
/-- `add` with an immediate (R143). -/
def execSiAdd (d a : Nat) (imm : Int) (s : State) : Out := aluSI s d a imm aluAdd
/-- `sub` with an immediate (R143). -/
def execSiSub (d a : Nat) (imm : Int) (s : State) : Out := aluSI s d a imm aluSub
/-- `mul` with an immediate (R143). -/
def execSiMul (d a : Nat) (imm : Int) (s : State) : Out := aluSI s d a imm aluMul
/-- `mulhi.i32` with an immediate (R143). -/
def execSiMulhiI32 (d a : Nat) (imm : Int) (s : State) : Out := aluSI s d a imm aluMulhiI32
/-- `mulhi.n32` with an immediate (R143). -/
def execSiMulhiN32 (d a : Nat) (imm : Int) (s : State) : Out := aluSI s d a imm aluMulhiN32
/-- `and` with an immediate (R143). -/
def execSiAnd (d a : Nat) (imm : Int) (s : State) : Out := aluSI s d a imm aluAnd
/-- `or` with an immediate (R143). -/
def execSiOr (d a : Nat) (imm : Int) (s : State) : Out := aluSI s d a imm aluOr
/-- `xor` with an immediate (R143). -/
def execSiXor (d a : Nat) (imm : Int) (s : State) : Out := aluSI s d a imm aluXor
/-- `shl` with an immediate (R143). -/
def execSiShl (d a : Nat) (imm : Int) (s : State) : Out := shiftSI s d a imm aluShl
/-- `shr` with an immediate (R143). -/
def execSiShr (d a : Nat) (imm : Int) (s : State) : Out := shiftSI s d a imm aluShr
/-- `sra` with an immediate (R143). -/
def execSiSra (d a : Nat) (imm : Int) (s : State) : Out := shiftSI s d a imm aluSra
/-- `min.i32` with an immediate (R143). -/
def execSiMinI32 (d a : Nat) (imm : Int) (s : State) : Out := aluSI s d a imm aluMinI32
/-- `max.i32` with an immediate (R143). -/
def execSiMaxI32 (d a : Nat) (imm : Int) (s : State) : Out := aluSI s d a imm aluMaxI32
/-- `min.n32` with an immediate (R143). -/
def execSiMinN32 (d a : Nat) (imm : Int) (s : State) : Out := aluSI s d a imm aluMinN32
/-- `max.n32` with an immediate (R143). -/
def execSiMaxN32 (d a : Nat) (imm : Int) (s : State) : Out := aluSI s d a imm aluMaxN32
/-- `movs` of an immediate (R143). -/
def execSiMovs (d : Nat) (imm : Int) (s : State) : Out := aluSI s d 63 imm fun _ y => y
/-- `cmp.eq` with an immediate (R143). -/
def execSiCmpEq (d a : Nat) (imm : Int) (s : State) : Out := cmpSI s d a imm cmpEq
/-- `cmp.ne` with an immediate (R143). -/
def execSiCmpNe (d a : Nat) (imm : Int) (s : State) : Out := cmpSI s d a imm cmpNe
/-- `cmp.lt.i32` with an immediate (R143). -/
def execSiCmpLtI32 (d a : Nat) (imm : Int) (s : State) : Out := cmpSI s d a imm cmpLtI32
/-- `cmp.le.i32` with an immediate (R143). -/
def execSiCmpLeI32 (d a : Nat) (imm : Int) (s : State) : Out := cmpSI s d a imm cmpLeI32
/-- `cmp.lt.n32` with an immediate (R143). -/
def execSiCmpLtN32 (d a : Nat) (imm : Int) (s : State) : Out := cmpSI s d a imm cmpLtN32
/-- `cmp.le.n32` with an immediate (R143). -/
def execSiCmpLeN32 (d a : Nat) (imm : Int) (s : State) : Out := cmpSI s d a imm cmpLeN32
/-- `cmp.gt.i32` with an immediate (R143). -/
def execSiCmpGtI32 (d a : Nat) (imm : Int) (s : State) : Out := cmpSI s d a imm cmpGtI32
/-- `cmp.ge.i32` with an immediate (R143). -/
def execSiCmpGeI32 (d a : Nat) (imm : Int) (s : State) : Out := cmpSI s d a imm cmpGeI32
/-- `cmp.gt.n32` with an immediate (R143). -/
def execSiCmpGtN32 (d a : Nat) (imm : Int) (s : State) : Out := cmpSI s d a imm cmpGtN32
/-- `cmp.ge.n32` with an immediate (R143). -/
def execSiCmpGeN32 (d a : Nat) (imm : Int) (s : State) : Out := cmpSI s d a imm cmpGeN32
/-- `add.i64` of an immediate on a pair (R80, R143). -/
def execSiAddI64 (d a : Nat) (imm : Int) (s : State) : Out :=
  scalarOp s (okS2 d && okS2 a) fun x => x.sset64 d (x.sget64 a + BitVec.ofInt 64 imm)

end Sys2Proof.Machine
end

