-- ==== Sys2Proof/Machine/VectorInt.lean ====
section
/-! DEFINITION. Vector integer arithmetic and compares (R83, R84, R156 to R158). -/

namespace Sys2Proof.Machine

/-! ### Operand forms -/

/-- V: 32-bit registers. -/
def vecVV (s : State) (d a b : Nat) (f : Word → Word → Word) : Out :=
  laneOp s (fun t => t.okV d && t.okV a && t.okV b) [a, b] fun w l => [(d, f (w.vget a l) (w.vget b l))]

/-- V with one source. -/
def vecV (s : State) (d a : Nat) (f : Word → Word) : Out :=
  laneOp s (fun t => t.okV d && t.okV a) [a] fun w l => [(d, f (w.vget a l))]

/-- VI: b is the immediate sign-extended to 32 bits (R156). -/
def vecVI (s : State) (d a : Nat) (imm : Int) (ok : Bool) (f : Word → Word → Word) : Out :=
  laneOp s (fun t => ok && t.okV d && t.okV a) [a] fun w l => [(d, f (w.vget a l) (imm32 imm))]

/-- V on pairs (R83, R157). -/
def vec64 (s : State) (d a b : Nat) (f : DWord → DWord → DWord) : Out :=
  laneOp s (fun t => t.okV2 d && t.okV2 a && t.okV2 b) [a, a + 1, b, b + 1] fun w l =>
    pairWrites d (f (w.vget64 a l) (w.vget64 b l))

/-- 64-bit shifts: the count is a single register, of which bits [5:0] are used (R83). -/
def vec64Shift (s : State) (d a b : Nat) (f : DWord → DWord → DWord) : Out :=
  laneOp s (fun t => t.okV2 d && t.okV2 a && t.okV b) [a, a + 1, b] fun w l =>
    pairWrites d (f (w.vget64 a l) ((w.vget b l).setWidth 64))

/-- 64-bit counts into a single register (R83, R157). -/
def vec64Count (s : State) (d a : Nat) (f : DWord → Word) : Out :=
  laneOp s (fun t => t.okV d && t.okV2 a) [a, a + 1] fun w l => [(d, f (w.vget64 a l))]

/-- Widening products: single sources, pair destination (R83, R157). -/
def vecWide (s : State) (d a b : Nat) (f : Word → Word → DWord) : Out :=
  laneOp s (fun t => t.okV2 d && t.okV a && t.okV b) [a, b] fun w l =>
    pairWrites d (f (w.vget a l) (w.vget b l))

/-! ### What the vector-only operations compute -/

/-- Number of leading zero bits: the width for zero (R156, R157). -/
def countLeadingZeros {n : Nat} (a : BitVec n) : Nat := if a.toNat = 0 then n else n - 1 - Nat.log2 a.toNat

/-- Number of one bits. -/
def countOnes {n : Nat} (a : BitVec n) : Nat := ((List.range n).filter fun i => a.getLsbD i).length

/-- |a| modulo 2^32 (R156). -/
def absI32 (a : Word) : Word := if a.msb then -a else a

/-- A signed result clamped to 32 bits (R156). -/
def sat32 (v : Int) : Word :=
  BitVec.ofInt 32 (max (-(2 ^ 31 : Nat)) (min v ((2 ^ 31 : Nat) - 1)))

/-! ### 32-bit meanings -/

/-- `add` (R156). -/
def execVAdd (d a b : Nat) (s : State) : Out := vecVV s d a b aluAdd
/-- `sub` (R156). -/
def execVSub (d a b : Nat) (s : State) : Out := vecVV s d a b aluSub
/-- `mul` (R156). -/
def execVMul (d a b : Nat) (s : State) : Out := vecVV s d a b aluMul
/-- `mulhi.i32` (R156). -/
def execVMulhiI32 (d a b : Nat) (s : State) : Out := vecVV s d a b aluMulhiI32
/-- `mulhi.n32` (R156). -/
def execVMulhiN32 (d a b : Nat) (s : State) : Out := vecVV s d a b aluMulhiN32
/-- `min.i32` (R156). -/
def execVMinI32 (d a b : Nat) (s : State) : Out := vecVV s d a b aluMinI32
/-- `max.i32` (R156). -/
def execVMaxI32 (d a b : Nat) (s : State) : Out := vecVV s d a b aluMaxI32
/-- `min.n32` (R156). -/
def execVMinN32 (d a b : Nat) (s : State) : Out := vecVV s d a b aluMinN32
/-- `max.n32` (R156). -/
def execVMaxN32 (d a b : Nat) (s : State) : Out := vecVV s d a b aluMaxN32
/-- `and` (R156). -/
def execVAnd (d a b : Nat) (s : State) : Out := vecVV s d a b aluAnd
/-- `or` (R156). -/
def execVOr (d a b : Nat) (s : State) : Out := vecVV s d a b aluOr
/-- `xor` (R156). -/
def execVXor (d a b : Nat) (s : State) : Out := vecVV s d a b aluXor
/-- `shl` (R156). -/
def execVShl (d a b : Nat) (s : State) : Out := vecVV s d a b aluShl
/-- `shr` (R156). -/
def execVShr (d a b : Nat) (s : State) : Out := vecVV s d a b aluShr
/-- `sra` (R156). -/
def execVSra (d a b : Nat) (s : State) : Out := vecVV s d a b aluSra
/-- `mad` (R156): vd := a × b + vd. -/
def execVMad (d a b : Nat) (s : State) : Out :=
  laneOp s (fun t => t.okV d && t.okV a && t.okV b) [a, b, d] fun w l => [(d, w.vget a l * w.vget b l + w.vget d l)]
/-- `clz` (R156). -/
def execVClz (d a : Nat) (s : State) : Out := vecV s d a fun x => BitVec.ofNat 32 (countLeadingZeros x)
/-- `popc` (R156). -/
def execVPopc (d a : Nat) (s : State) : Out := vecV s d a fun x => BitVec.ofNat 32 (countOnes x)
/-- `abs.i32` (R156). -/
def execVAbsI32 (d a : Nat) (s : State) : Out := vecV s d a absI32
/-- `add.sat.i32` (R156). -/
def execVAddSatI32 (d a b : Nat) (s : State) : Out := vecVV s d a b fun x y => sat32 (x.toInt + y.toInt)
/-- `sub.sat.i32` (R156). -/
def execVSubSatI32 (d a b : Nat) (s : State) : Out := vecVV s d a b fun x y => sat32 (x.toInt - y.toInt)
/-- `mov` (R156). -/
def execVMov (d a : Nat) (s : State) : Out := vecV s d a fun x => x

/-! ### Immediate meanings -/

/-- `add` with an immediate (R156). -/
def execViAdd (d a : Nat) (imm : Int) (s : State) : Out := vecVI s d a imm true aluAdd
/-- `sub` with an immediate (R156). -/
def execViSub (d a : Nat) (imm : Int) (s : State) : Out := vecVI s d a imm true aluSub
/-- `mul` with an immediate (R156). -/
def execViMul (d a : Nat) (imm : Int) (s : State) : Out := vecVI s d a imm true aluMul
/-- `mulhi.i32` with an immediate (R156). -/
def execViMulhiI32 (d a : Nat) (imm : Int) (s : State) : Out := vecVI s d a imm true aluMulhiI32
/-- `mulhi.n32` with an immediate (R156). -/
def execViMulhiN32 (d a : Nat) (imm : Int) (s : State) : Out := vecVI s d a imm true aluMulhiN32
/-- `min.i32` with an immediate (R156). -/
def execViMinI32 (d a : Nat) (imm : Int) (s : State) : Out := vecVI s d a imm true aluMinI32
/-- `max.i32` with an immediate (R156). -/
def execViMaxI32 (d a : Nat) (imm : Int) (s : State) : Out := vecVI s d a imm true aluMaxI32
/-- `min.n32` with an immediate (R156). -/
def execViMinN32 (d a : Nat) (imm : Int) (s : State) : Out := vecVI s d a imm true aluMinN32
/-- `max.n32` with an immediate (R156). -/
def execViMaxN32 (d a : Nat) (imm : Int) (s : State) : Out := vecVI s d a imm true aluMaxN32
/-- `and` with an immediate (R156). -/
def execViAnd (d a : Nat) (imm : Int) (s : State) : Out := vecVI s d a imm true aluAnd
/-- `or` with an immediate (R156). -/
def execViOr (d a : Nat) (imm : Int) (s : State) : Out := vecVI s d a imm true aluOr
/-- `xor` with an immediate (R156). -/
def execViXor (d a : Nat) (imm : Int) (s : State) : Out := vecVI s d a imm true aluXor
/-- `shl` with an immediate (R156, R83). -/
def execViShl (d a : Nat) (imm : Int) (s : State) : Out := vecVI s d a imm (decide (0 ≤ imm) && decide (imm ≤ 31)) aluShl
/-- `shr` with an immediate (R156, R83). -/
def execViShr (d a : Nat) (imm : Int) (s : State) : Out := vecVI s d a imm (decide (0 ≤ imm) && decide (imm ≤ 31)) aluShr
/-- `sra` with an immediate (R156, R83). -/
def execViSra (d a : Nat) (imm : Int) (s : State) : Out := vecVI s d a imm (decide (0 ≤ imm) && decide (imm ≤ 31)) aluSra
/-- `mov` of an immediate (R156). -/
def execViMov (d : Nat) (imm : Int) (s : State) : Out := laneOp s (fun t => t.okV d) [] fun _ _ => [(d, imm32 imm)]

/-! ### 64-bit meanings -/

/-- `add.i64` (R157). -/
def execV64Add (d a b : Nat) (s : State) : Out := vec64 s d a b aluAdd
/-- `sub.i64` (R157). -/
def execV64Sub (d a b : Nat) (s : State) : Out := vec64 s d a b aluSub
/-- `mul.i64` (R157). -/
def execV64Mul (d a b : Nat) (s : State) : Out := vec64 s d a b aluMul
/-- `min.i64` (R157). -/
def execV64MinI64 (d a b : Nat) (s : State) : Out := vec64 s d a b aluMinI32
/-- `max.i64` (R157). -/
def execV64MaxI64 (d a b : Nat) (s : State) : Out := vec64 s d a b aluMaxI32
/-- `min.n64` (R157). -/
def execV64MinN64 (d a b : Nat) (s : State) : Out := vec64 s d a b aluMinN32
/-- `max.n64` (R157). -/
def execV64MaxN64 (d a b : Nat) (s : State) : Out := vec64 s d a b aluMaxN32
/-- `and.b64` (R157). -/
def execV64And (d a b : Nat) (s : State) : Out := vec64 s d a b aluAnd
/-- `or.b64` (R157). -/
def execV64Or (d a b : Nat) (s : State) : Out := vec64 s d a b aluOr
/-- `xor.b64` (R157). -/
def execV64Xor (d a b : Nat) (s : State) : Out := vec64 s d a b aluXor
/-- `shl.b64` (R157). -/
def execV64Shl (d a b : Nat) (s : State) : Out := vec64Shift s d a b aluShl
/-- `shr.b64` (R157). -/
def execV64Shr (d a b : Nat) (s : State) : Out := vec64Shift s d a b aluShr
/-- `sra.i64` (R157). -/
def execV64Sra (d a b : Nat) (s : State) : Out := vec64Shift s d a b aluSra
/-- `clz.b64` (R157). -/
def execV64Clz (d a : Nat) (s : State) : Out := vec64Count s d a fun x => BitVec.ofNat 32 (countLeadingZeros x)
/-- `popc.b64` (R157). -/
def execV64Popc (d a : Nat) (s : State) : Out := vec64Count s d a fun x => BitVec.ofNat 32 (countOnes x)
/-- `mul.wide.i32` (R157). -/
def execV64MulWideI32 (d a b : Nat) (s : State) : Out := vecWide s d a b fun x y => BitVec.ofInt 64 (x.toInt * y.toInt)
/-- `mul.wide.n32` (R157). -/
def execV64MulWideN32 (d a b : Nat) (s : State) : Out := vecWide s d a b fun x y => BitVec.ofNat 64 (x.toNat * y.toNat)

/-! ### Compares -/

/-- An integer compare at a type: 64-bit types read pairs (R84, R158). -/
def vecCmp (s : State) (p a b : Nat) (ty : CmpTy) (f : Int → Int → Bool) : Out :=
  match ty with
  | .i32 => predOp s p (fun t => t.okV a && t.okV b) [a, b] fun w l =>
      (f (w.vget a l).toInt (w.vget b l).toInt, 0)
  | .n32 => predOp s p (fun t => t.okV a && t.okV b) [a, b] fun w l =>
      (f (w.vget a l).toNat (w.vget b l).toNat, 0)
  | .i64 => predOp s p (fun t => t.okV2 a && t.okV2 b) [a, a + 1, b, b + 1] fun w l =>
      (f (w.vget64 a l).toInt (w.vget64 b l).toInt, 0)
  | .n64 => predOp s p (fun t => t.okV2 a && t.okV2 b) [a, a + 1, b, b + 1] fun w l =>
      (f (w.vget64 a l).toNat (w.vget64 b l).toNat, 0)

/-- `cmp.eq` (R158). -/
def execVCmpEq (p a b : Nat) (ty : CmpTy) (s : State) : Out := vecCmp s p a b ty fun x y => decide (x = y)
/-- `cmp.ne` (R158). -/
def execVCmpNe (p a b : Nat) (ty : CmpTy) (s : State) : Out := vecCmp s p a b ty fun x y => decide (x ≠ y)
/-- `cmp.lt` (R158). -/
def execVCmpLt (p a b : Nat) (ty : CmpTy) (s : State) : Out := vecCmp s p a b ty fun x y => decide (x < y)
/-- `cmp.le` (R158). -/
def execVCmpLe (p a b : Nat) (ty : CmpTy) (s : State) : Out := vecCmp s p a b ty fun x y => decide (x ≤ y)
/-- `cmp.gt` (R158). -/
def execVCmpGt (p a b : Nat) (ty : CmpTy) (s : State) : Out := vecCmp s p a b ty fun x y => decide (y < x)
/-- `cmp.ge` (R158). -/
def execVCmpGe (p a b : Nat) (ty : CmpTy) (s : State) : Out := vecCmp s p a b ty fun x y => decide (y ≤ x)

end Sys2Proof.Machine
end

