-- ==== Sys2Proof/Machine/Rep.lean ====
section
/-! DEFINITION. `rep` (R82, R151, R152): the repeated word, its stepped fields, and one repeat an issue opportunity. -/

namespace Sys2Proof.Machine

/-- The formats a repeated word may have (R82). -/
inductive RepFormat where
  | s | si | v | vi | m
  deriving DecidableEq, Repr, Inhabited

def repFormat (op : Nat) : Option RepFormat :=
  match op with
  | 0x00 => some .s
  | 0x01 => some .si
  | 0x10 | 0x12 | 0x14 | 0x15 | 0x17 | 0x18 => some .v
  | 0x11 => some .vi
  | 0x30 | 0x31 | 0x32 | 0x33 => some .m
  | _ => none

/-- High and low bits of the d, a and b fields of a format (R75); SI, VI and M have no b. -/
def repField (f : RepFormat) (i : Nat) : Option (Nat × Nat) :=
  match f, i with
  | .s, 0 | .si, 0 => some (25, 20)
  | .s, 1 | .si, 1 => some (19, 14)
  | .s, 2 => some (13, 8)
  | .v, 0 | .vi, 0 => some (25, 19)
  | .v, 1 | .vi, 1 => some (18, 12)
  | .v, 2 => some (11, 5)
  | .m, 0 => some (20, 14)
  | .m, 1 => some (13, 7)
  | _, _ => none

/-- Bit of the step field that selects field `i`: 2 for d, 1 for a, 0 for b (R82). -/
def stepSelects (step i : Nat) : Bool := bitOf step (2 - i)

/-- The word with field `i` increased; none when the field is absent or its range is left (R82, R151). -/
def stepField (f : RepFormat) (step add : Nat) (w : Option Nat) (i : Nat) : Option Nat :=
  match w with
  | none => none
  | some v =>
    if !stepSelects step i then some v
    else
      match repField f i with
      | none => none
      | some (hi, lo) =>
        let x := field v hi lo + add
        if x < 2 ^ (hi + 1 - lo) then some (setField v hi lo x) else none

/-- The word of repeat `k`. -/
def stepWord (step sz k w : Nat) : Option Nat :=
  match repFormat (field w 31 26) with
  | none => none
  | some f => (List.range 3).foldl (stepField f step (k * 2 ^ sz)) (some w)

/-- The instruction of a word in one of the formats. -/
def decodeRep (w : Nat) : Except DecodeError Instr :=
  match field w 31 26 with
  | 0x00 => decodeOp00 w
  | 0x01 => decodeOp01 w
  | 0x10 => decodeOp10 w
  | 0x11 => decodeOp11 w
  | 0x12 => decodeOp12 w
  | 0x14 => decodeOp14 w
  | 0x15 => decodeOp15 w
  | 0x17 => decodeOp17 w
  | 0x18 => decodeOp18 w
  | 0x30 => decodeOp30 w
  | 0x31 => decodeOp31 w
  | 0x32 => decodeOp32 w
  | _ => decodeOp33 w

/-- One repeat issues as the instruction would. -/
def execRepeat (i : Instr) (s : State) : Out :=
  match i with
  | .sAdd d a b w => execSAdd d a b w s
  | .sSub d a b w => execSSub d a b w s
  | .sMul d a b => execSMul d a b s
  | .sMulhiI32 d a b => execSMulhiI32 d a b s
  | .sMulhiN32 d a b => execSMulhiN32 d a b s
  | .sAnd d a b w => execSAnd d a b w s
  | .sOr d a b w => execSOr d a b w s
  | .sXor d a b w => execSXor d a b w s
  | .sShl d a b w => execSShl d a b w s
  | .sShr d a b w => execSShr d a b w s
  | .sSra d a b w => execSSra d a b w s
  | .sMinI32 d a b => execSMinI32 d a b s
  | .sMaxI32 d a b => execSMaxI32 d a b s
  | .sMinN32 d a b => execSMinN32 d a b s
  | .sMaxN32 d a b => execSMaxN32 d a b s
  | .sMovs d a w => execSMovs d a w s
  | .sCmpEq d a b w => execSCmpEq d a b w s
  | .sCmpNe d a b w => execSCmpNe d a b w s
  | .sCmpLtI32 d a b w => execSCmpLtI32 d a b w s
  | .sCmpLeI32 d a b w => execSCmpLeI32 d a b w s
  | .sCmpLtN32 d a b w => execSCmpLtN32 d a b w s
  | .sCmpLeN32 d a b w => execSCmpLeN32 d a b w s
  | .sCmpGtI32 d a b w => execSCmpGtI32 d a b w s
  | .sCmpGeI32 d a b w => execSCmpGeI32 d a b w s
  | .sCmpGtN32 d a b w => execSCmpGtN32 d a b w s
  | .sCmpGeN32 d a b w => execSCmpGeN32 d a b w s
  | .siAdd d a imm => execSiAdd d a imm s
  | .siSub d a imm => execSiSub d a imm s
  | .siMul d a imm => execSiMul d a imm s
  | .siMulhiI32 d a imm => execSiMulhiI32 d a imm s
  | .siMulhiN32 d a imm => execSiMulhiN32 d a imm s
  | .siAnd d a imm => execSiAnd d a imm s
  | .siOr d a imm => execSiOr d a imm s
  | .siXor d a imm => execSiXor d a imm s
  | .siShl d a imm => execSiShl d a imm s
  | .siShr d a imm => execSiShr d a imm s
  | .siSra d a imm => execSiSra d a imm s
  | .siMinI32 d a imm => execSiMinI32 d a imm s
  | .siMaxI32 d a imm => execSiMaxI32 d a imm s
  | .siMinN32 d a imm => execSiMinN32 d a imm s
  | .siMaxN32 d a imm => execSiMaxN32 d a imm s
  | .siMovs d imm => execSiMovs d imm s
  | .siCmpEq d a imm => execSiCmpEq d a imm s
  | .siCmpNe d a imm => execSiCmpNe d a imm s
  | .siCmpLtI32 d a imm => execSiCmpLtI32 d a imm s
  | .siCmpLeI32 d a imm => execSiCmpLeI32 d a imm s
  | .siCmpLtN32 d a imm => execSiCmpLtN32 d a imm s
  | .siCmpLeN32 d a imm => execSiCmpLeN32 d a imm s
  | .siCmpGtI32 d a imm => execSiCmpGtI32 d a imm s
  | .siCmpGeI32 d a imm => execSiCmpGeI32 d a imm s
  | .siCmpGtN32 d a imm => execSiCmpGtN32 d a imm s
  | .siCmpGeN32 d a imm => execSiCmpGeN32 d a imm s
  | .siAddI64 d a imm => execSiAddI64 d a imm s
  | .vAdd d a b => execVAdd d a b s
  | .vSub d a b => execVSub d a b s
  | .vMul d a b => execVMul d a b s
  | .vMulhiI32 d a b => execVMulhiI32 d a b s
  | .vMulhiN32 d a b => execVMulhiN32 d a b s
  | .vMad d a b => execVMad d a b s
  | .vMinI32 d a b => execVMinI32 d a b s
  | .vMaxI32 d a b => execVMaxI32 d a b s
  | .vMinN32 d a b => execVMinN32 d a b s
  | .vMaxN32 d a b => execVMaxN32 d a b s
  | .vAnd d a b => execVAnd d a b s
  | .vOr d a b => execVOr d a b s
  | .vXor d a b => execVXor d a b s
  | .vShl d a b => execVShl d a b s
  | .vShr d a b => execVShr d a b s
  | .vSra d a b => execVSra d a b s
  | .vClz d a => execVClz d a s
  | .vPopc d a => execVPopc d a s
  | .vAbsI32 d a => execVAbsI32 d a s
  | .vAddSatI32 d a b => execVAddSatI32 d a b s
  | .vSubSatI32 d a b => execVSubSatI32 d a b s
  | .vMov d a => execVMov d a s
  | .viAdd d a imm => execViAdd d a imm s
  | .viSub d a imm => execViSub d a imm s
  | .viMul d a imm => execViMul d a imm s
  | .viMulhiI32 d a imm => execViMulhiI32 d a imm s
  | .viMulhiN32 d a imm => execViMulhiN32 d a imm s
  | .viMinI32 d a imm => execViMinI32 d a imm s
  | .viMaxI32 d a imm => execViMaxI32 d a imm s
  | .viMinN32 d a imm => execViMinN32 d a imm s
  | .viMaxN32 d a imm => execViMaxN32 d a imm s
  | .viAnd d a imm => execViAnd d a imm s
  | .viOr d a imm => execViOr d a imm s
  | .viXor d a imm => execViXor d a imm s
  | .viShl d a imm => execViShl d a imm s
  | .viShr d a imm => execViShr d a imm s
  | .viSra d a imm => execViSra d a imm s
  | .viMov d imm => execViMov d imm s
  | .v64Add d a b => execV64Add d a b s
  | .v64Sub d a b => execV64Sub d a b s
  | .v64Mul d a b => execV64Mul d a b s
  | .v64MinI64 d a b => execV64MinI64 d a b s
  | .v64MaxI64 d a b => execV64MaxI64 d a b s
  | .v64MinN64 d a b => execV64MinN64 d a b s
  | .v64MaxN64 d a b => execV64MaxN64 d a b s
  | .v64And d a b => execV64And d a b s
  | .v64Or d a b => execV64Or d a b s
  | .v64Xor d a b => execV64Xor d a b s
  | .v64Shl d a b => execV64Shl d a b s
  | .v64Shr d a b => execV64Shr d a b s
  | .v64Sra d a b => execV64Sra d a b s
  | .v64Clz d a => execV64Clz d a s
  | .v64Popc d a => execV64Popc d a s
  | .v64MulWideI32 d a b => execV64MulWideI32 d a b s
  | .v64MulWideN32 d a b => execV64MulWideN32 d a b s
  | .vFaddF32 d a b => execVFaddF32 d a b s
  | .vFsubF32 d a b => execVFsubF32 d a b s
  | .vFmulF32 d a b => execVFmulF32 d a b s
  | .vFmaF32 d a b => execVFmaF32 d a b s
  | .vFminF32 d a b => execVFminF32 d a b s
  | .vFmaxF32 d a b => execVFmaxF32 d a b s
  | .vFabsF32 d a => execVFabsF32 d a s
  | .vFnegF32 d a => execVFnegF32 d a s
  | .vFaddF64 d a b => execVFaddF64 d a b s
  | .vFsubF64 d a b => execVFsubF64 d a b s
  | .vFmulF64 d a b => execVFmulF64 d a b s
  | .vFmaF64 d a b => execVFmaF64 d a b s
  | .vFminF64 d a b => execVFminF64 d a b s
  | .vFmaxF64 d a b => execVFmaxF64 d a b s
  | .vFabsF64 d a => execVFabsF64 d a s
  | .vFnegF64 d a => execVFnegF64 d a s
  | .vRcpF32 d a => execVRcpF32 d a s
  | .vRsqF32 d a => execVRsqF32 d a s
  | .vSqrtF32 d a => execVSqrtF32 d a s
  | .vExp2F32 d a => execVExp2F32 d a s
  | .vLog2F32 d a => execVLog2F32 d a s
  | .vSinF32 d a => execVSinF32 d a s
  | .vCosF32 d a => execVCosF32 d a s
  | .vRcpF64 d a => execVRcpF64 d a s
  | .vRsqF64 d a => execVRsqF64 d a s
  | .vSqrtF64 d a => execVSqrtF64 d a s
  | .ldG ty hint d a off => execLdG ty hint d a off s
  | .stG ty hint d a off => execStG ty hint d a off s
  | .ldS ty d a off => execLdS ty d a off s
  | .stS ty d a off => execStS ty d a off s
  | _ => onWarp s fun _ _ w => illegal s w

/-- The repeated word, of a format that has the fields the `rep` steps (R82, R151), or the fault of its fetch or at the
`rep`. -/
def repWord (s : State) (t : Team) (w : Warp) (step : Nat) : Except (FaultCode × Nat) Nat :=
  match s.fetchWord t (w.target 1).toNat with
  | .error e => .error e
  | .ok v => if (stepWord step 0 0 v).isSome then .ok v else .error (.illegal, 0)

/-- The instruction of the next repeat, or the fault of checking or stepping the word. -/
def repeatInstr (w : Warp) (step sz v : Nat) : Except (FaultCode × Nat) Instr :=
  match wordCheck (w.clause.getD default) (w.idx + 1) v with
  | some c => .error (c, 0)
  | none =>
    match stepWord step sz w.repcnt.toNat v with
    | none => .error (.illegal, 0)
    | some u =>
      match decodeRep u with
      | .ok i => .ok i
      | .error _ => .error (.illegal, 0)

/-- The warp after repeat `k` of `n` has issued: back at the `rep`, or past the repeated word. -/
def afterRepeat (n k : Nat) (w w' : Warp) : Warp :=
  if k + 1 < n then
    { w' with hdr := w.hdr, idx := w.idx, clause := w.clause, repcnt := BitVec.ofNat 32 (k + 1), inRep := true }
  else Warp.advance { w' with repcnt := 0, inRep := false }

/-- `rep` (R151): one repeat at each issue opportunity; a repeat that faults leaves REPCNT and the PC at the `rep`
(R152). -/
def execRep (cnt step sz : Nat) (s : State) : Out :=
  match s.curWarp with
  | none => .fault .noWarp
  | some (t, j, w) =>
    let n := cnt + 1
    let k := w.repcnt.toNat
    let s1 := s.fetched t (w.target 1).toNat
    match repWord s t w step with
    | .error e => .next (s1.suspend t j w (w.readTrouble e))
    | .ok v =>
      if n ≤ k then
        .next (s1.updWarp t.uid j fun x =>
          { (Warp.advance { w with repcnt := 0, inRep := false }).advance with watched := x.watched })
      else
        match repeatInstr w step sz v with
        | .error e => .next (s1.suspend t j w (w.readTrouble e))
        | .ok i =>
          match execRepeat i s1 with
          | .next s' =>
            if s'.held then .next s'
            else
              match s'.findWarp t.uid j with
              | some (_, w') => if w'.status = .running then .next (s'.updWarp t.uid j (afterRepeat n k w)) else .next s'
              | none => .next s'
          | r => r

end Sys2Proof.Machine
end

