-- ==== Sys2Proof/Machine/WarpEvents.lean ====
section
/-! DEFINITION. What happens to warps on their own: the regrouping rendezvous, wakes, and the return stack's spill area
(R52, R53, R147, R178, R195, R196). -/

namespace Sys2Proof.Machine

/-- An event on a warp of a team resident on its core; a warp that is not there changes nothing. -/
def onResident (s : State) (uid j : Nat) (f : Team → Warp → State) : Out :=
  match s.findWarp uid j with
  | none => .next s
  | some (t, w) => .next (if t.place = .resident then f t w else s)

/-! ### Regrouping (R52, R53) -/

/-- What a warp waits for at a `br.rg`: predicate, target, fall-through. -/
def WStatus.regroupOf : WStatus → Option (Nat × DWord × DWord)
  | .regroup p tgt ft => some (p, tgt, ft)
  | _ => none

/-- A warp waits at a `br.rg`. -/
def Warp.regrouping (w : Warp) : Bool := w.status.regroupOf.isSome

/-- The warp's counters and tokens are zero (R52). -/
def Warp.drained (w : Warp) : Bool :=
  w.cntL == 0 && w.cntS == 0 && w.cntC == 0 && w.cntT == 0 && w.tokensZero 255

/-- The rendezvous of a team complete: no live warp runs, and the waiting warps have drained (R52). -/
def Team.regroupReady (t : Team) : Bool :=
  (t.warps.any Warp.regrouping) && t.warps.all fun w => w.status != .running && (!w.regrouping || w.drained)

/-- A warp as a source of threads: its index, itself, predicate, target, fall-through. -/
abbrev Participant := Nat × Warp × Nat × DWord × DWord

/-- The team's warps that wait at the `br.rg` of address `a`, in ascending slot. -/
def Team.participants (t : Team) (a : DWord) : List Participant :=
  (((List.range t.warps.length).filterMap fun j =>
    match t.warp j with
    | some w =>
      match w.status.regroupOf with
      | some (p, tgt, ft) => if w.wordAddr = a then some (j, w, p, tgt, ft) else none
      | none => none
    | none => none).mergeSort fun (x y : Participant) => decide (x.2.1.slot ≤ y.2.1.slot))

/-- A lane's destination. -/
def Participant.dest (x : Participant) (l : Nat) : DWord :=
  if (x.2.1.pget x.2.2.1).getLsbD l then x.2.2.2.1 else x.2.2.2.2

/-- `list[d][l]`: the participants with an active thread of lane `l` bound for `d`. -/
def threadsFor (ps : List Participant) (d : DWord) (l : Nat) : List Participant :=
  ps.filter fun x => x.2.1.active.getLsbD l && x.dest l == d

/-- The destinations, ascending. -/
def destsOf (ps : List Participant) : List DWord :=
  (((ps.flatMap fun x => (lanesOf x.2.1.active).map x.dest).eraseDups).mergeSort fun a b => decide (a.toNat ≤ b.toNat))

/-- `n[d]`: warps that destination `d` needs. -/
def warpsFor (ps : List Participant) (d : DWord) : Nat :=
  ((List.range 32).map fun l => (threadsFor ps d l).length).foldl max 0

/-- The slots available to a rendezvous, ascending: its participants' and those with no live thread, less the ones an
earlier rendezvous filled. Each is given as warp index. -/
def Team.availableSlots (t : Team) (ps : List Participant) (filled : List Nat) : List Nat :=
  (((List.range t.warps.length).filter fun j =>
    match t.warp j with
    | some w => !filled.contains j && ((ps.any fun x => x.1 == j) || w.live == 0)
    | none => false).mergeSort fun i j => decide (((t.warp i).map Warp.slot).getD 0 ≤ ((t.warp j).map Warp.slot).getD 0))

/-- The new warp in a slot: row `i` of destination `d`'s lists, with the leader's scalar state (R53). -/
def packWarp (slot : Warp) (ps : List Participant) (leader : Warp) (d : DWord) (i : Nat) : Warp :=
  let row := (List.range 32).filterMap fun l => ((threadsFor ps d l)[i]?).map fun x => (l, x.2.1)
  let mask := row.foldl (fun (m : LaneMask) r => m ||| (1#32 <<< r.1)) 0
  let regs := row.foldl (fun (v : Sparse Word) r => r.2.vregs.foldl
    (fun v e => if e.1 % 32 = r.1 then Sparse.set 0 v e.1 (Sparse.get 0 r.2.vregs e.1) else v) v) ([] : Sparse Word)
  let marks := row.foldl (fun (v : KMap Poison) r => r.2.poison.foldl
    (fun v e => if e.1 % 32 = r.1 then KMap.put v e.1 e.2 else v) v) ([] : KMap Poison)
  let preds := (List.range 7).foldl (fun (v : Sparse LaneMask) p =>
    Sparse.set 0 v p (row.foldl (fun (m : LaneMask) r => m ||| (r.2.pget p &&& (1#32 <<< r.1))) 0)) ([] : Sparse LaneMask)
  let seen := (ps.flatMap fun x => x.2.1.watched).foldl (fun (v : KMap Bool) e =>
    KMap.put v e.1 (e.2 || (KMap.find v e.1).getD false)) ([] : KMap Bool)
  { Warp.zero with
    slot := slot.slot, age := slot.age, yielded := slot.yielded, sregs := leader.sregs, vregs := regs, preds := preds, poison := marks,
    active := mask, live := mask, hdr := d, rstack := leader.rstack, rspill := leader.rspill, fpmode := leader.fpmode,
    fpstat := (ps.map fun x => x.2.1.fpstat).foldl (· ||| ·) 0, watched := seen }

/-- A slot left with no live thread. -/
def Warp.emptied (w : Warp) : Warp :=
  { w with live := 0, active := 0, status := .exited, stack := [], park := none, clause := none, idx := 0 }

/-- The entries of a return stack in the leader's spill area copied to another warp's (R53, R147). -/
def copySpill (s : State) (t : Team) (src n dst : Nat) : Option (FaultCode × Nat) × State :=
  if src = dst ∨ n = 0 then (none, s)
  else
    match s.readVirt t.core t.world (some (logAgent 0 t.core)) (t.spillAddr src 0) (8 * n) with
    | (.error e, s1) => (some e, s1)
    | (.ok bs, s1) => s1.storeVirt (((t.warp dst).getD Warp.zero).origin t dst) t.world (t.spillAddr dst 0) bs

/-- A new warp's return stack follows it; a check that fails there ends the team (R360). -/
def State.spillAll (s : State) (uid leader n : Nat) : List Nat → State
  | [] => s
  | j :: r =>
    match s.findTeam uid with
    | none => s
    | some t =>
      match copySpill s t leader n j with
      | (some e, s1) => s1.abortTeam uid .abort e.2
      | (none, s1) => s1.spillAll uid leader n r

/-- The outstanding operations of slots that take new warps no longer count there. -/
def State.orphan (s : State) (uid : Nat) (slots : List Nat) : State :=
  { s with ops := s.ops.map fun o => if o.team = uid ∧ o.warp ∈ slots then { o with kn := none, ctr := none } else o }

/-- The warp executes its `br.rg` as a `brv` with its fall-through as join (R52, R53); its clause's YIELD has taken effect (R67). -/
def asBrv (s : State) (t : Team) (x : Participant) : State :=
  (s.finish t x.1 (diverge s t { x.2.1 with status := .running } x.2.2.1 x.2.2.2.1 x.2.2.2.2)).updWarp t.uid x.1 fun w =>
    { w with yielded := x.2.1.yielded }

/-- One rendezvous packed or turned into `brv`s: the state and the slots filled so far. -/
def State.rendezvous (uid : Nat) (acc : State × List Nat) (a : DWord) : State × List Nat :=
  let s := acc.1
  match s.findTeam uid with
  | none => acc
  | some t =>
    let ps := t.participants a
    match ps with
    | [] => acc
    | leader :: _ =>
      let slots := t.availableSlots ps acc.2
      let rows := (destsOf ps).flatMap fun d => (List.range (warpsFor ps d)).map fun i => (d, i)
      if slots.length < rows.length then (ps.foldl (fun x p => asBrv x t p) s, acc.2 ++ ps.map (·.1))
      else
        let taken := slots.zip rows
        let t1 := taken.foldl (fun (y : Team) p => y.updWarp p.1 fun w => packWarp w ps leader.2.1 p.2.1 p.2.2) t
        let left := (ps.map (·.1)).filter fun j => !(taken.any fun p => p.1 == j)
        let t2 := left.foldl (fun (y : Team) j => y.updWarp j Warp.emptied) t1
        (((s.orphan uid (taken.map (·.1))).putTeam t2).spillAll uid leader.1 leader.2.1.rspill (taken.map (·.1)),
          acc.2 ++ taken.map (·.1))

/-- REGROUP_RENDEZVOUS: every waiting rendezvous of the team, in ascending address. -/
def execRegroupRendezvous (team : Nat) (s : State) : Out :=
  match s.findTeam team with
  | none => .next s
  | some t =>
    if !(t.place == .resident && t.regroupReady) then .next s
    else
      let addrs := (((t.warps.filter Warp.regrouping).map Warp.wordAddr).eraseDups).mergeSort
        fun a b => decide (a.toNat ≤ b.toNat)
      .next (addrs.foldl (State.rendezvous team) (s, [])).1

/-! ### Wakes (R178, R195, R196) -/

/-- SLEEP_EXPIRE (R178). -/
def execSleepExpire (team warp : Nat) (s : State) : Out :=
  onResident s team warp fun t w =>
    if w.status = .sleeping then s.updWarp t.uid warp fun _ => Warp.proceed { w with status := .running } else s

/-- A warp blocked at `waitmon` goes on. -/
def wakeMonitor (s : State) (team warp : Nat) : Out :=
  onResident s team warp fun t w =>
    if w.status = .waitmon then s.updWarp t.uid warp fun _ => w.wake else s

/-- WAITMON_WAKE: a write wakes as it is performed; an eviction or a spurious event may at any time (R195). -/
def execWaitmonWake (team warp : Nat) (s : State) : Out := wakeMonitor s team warp

/-- WAITMON_TIMEOUT (R195). -/
def execWaitmonTimeout (team warp : Nat) (s : State) : Out := wakeMonitor s team warp

/-- WAITGE_REREAD: the warp reads its words again as at issue (R196); its clause's YIELD has taken effect (R67). -/
def execWaitgeReread (team warp : Nat) (s : State) : Out :=
  match s.findWarp team warp with
  | none => .next s
  | some (t, w) =>
    if t.place ≠ .resident then .next s
    else
      match w.status with
      | .waitge d a sp =>
        match execWaitge d a sp { (s.updWarp team warp fun _ => { w with status := .running }) with cur := some (team, warp) } with
        | .next s1 => .next (s1.updWarp team warp fun x => { x with yielded := w.yielded })
        | r => r
      | _ => .next s

/-! ### The return stack (R147) -/

/-- The newest entry of the spill area moved to the core. -/
def unspillOne (s : State) (t : Team) (j : Nat) (w : Warp) : Except (FaultCode × Nat) Warp × State :=
  match s.readVirt t.core t.world (some (logAgent 0 t.core)) (t.spillAddr j (w.rspill - 1)) 8 with
  | (.error e, s1) => (.error e, s1)
  | (.ok bs, s1) => (.ok { w with rstack := w.rstack ++ [BitVec.ofNat 64 (leVal bs)], rspill := w.rspill - 1 }, s1)

/-- Entries of the spill area moved until the core holds the `keep` newest; `fuel` bounds them. -/
def fillReturns (t : Team) (j keep : Nat) : Nat → State → Warp → Except (FaultCode × Nat) Warp × State
  | 0, s, w => (.ok w, s)
  | f + 1, s, w =>
    if w.rstack.length < keep ∧ 0 < w.rspill then
      match unspillOne s t j w with
      | (.error e, s1) => (.error e, s1)
      | (.ok w1, s1) => fillReturns t j keep f s1 w1
    else (.ok w, s)

/-- RETURN_STACK_SPILL: the device brings entries that `ret`s have uncovered back to the core, which holds the 8 newest;
the entries a `call` displaces leave the core with it. -/
def execReturnStackSpill (team warp : Nat) (keep : Nat) (s : State) : Out :=
  onResident s team warp fun t w =>
    match fillReturns t warp (min keep 8) 8 s w with
    | (.error e, s1) => s1.abortTeam team .abort e.2
    | (.ok w1, s1) => s1.updWarp team warp fun x => { x with rstack := w1.rstack, rspill := w1.rspill }

end Sys2Proof.Machine
end

