-- ==== Sys2Proof/Machine/Dispatch.lean ====
section
/-! DEFINITION. The meaning of every instruction and event: one arm for each constructor of Instr. -/

namespace Sys2Proof.Machine

def exec (i : Instr) (s : State) : Host.Outcome State Fault Refusal :=
  match i with
  | .sAdd d a b w => Sys2Proof.Machine.execSAdd d a b w s
  | .sSub d a b w => Sys2Proof.Machine.execSSub d a b w s
  | .sMul d a b => Sys2Proof.Machine.execSMul d a b s
  | .sMulhiI32 d a b => Sys2Proof.Machine.execSMulhiI32 d a b s
  | .sMulhiN32 d a b => Sys2Proof.Machine.execSMulhiN32 d a b s
  | .sAnd d a b w => Sys2Proof.Machine.execSAnd d a b w s
  | .sOr d a b w => Sys2Proof.Machine.execSOr d a b w s
  | .sXor d a b w => Sys2Proof.Machine.execSXor d a b w s
  | .sShl d a b w => Sys2Proof.Machine.execSShl d a b w s
  | .sShr d a b w => Sys2Proof.Machine.execSShr d a b w s
  | .sSra d a b w => Sys2Proof.Machine.execSSra d a b w s
  | .sMinI32 d a b => Sys2Proof.Machine.execSMinI32 d a b s
  | .sMaxI32 d a b => Sys2Proof.Machine.execSMaxI32 d a b s
  | .sMinN32 d a b => Sys2Proof.Machine.execSMinN32 d a b s
  | .sMaxN32 d a b => Sys2Proof.Machine.execSMaxN32 d a b s
  | .sMovs d a w => Sys2Proof.Machine.execSMovs d a w s
  | .sCmpEq d a b w => Sys2Proof.Machine.execSCmpEq d a b w s
  | .sCmpNe d a b w => Sys2Proof.Machine.execSCmpNe d a b w s
  | .sCmpLtI32 d a b w => Sys2Proof.Machine.execSCmpLtI32 d a b w s
  | .sCmpLeI32 d a b w => Sys2Proof.Machine.execSCmpLeI32 d a b w s
  | .sCmpLtN32 d a b w => Sys2Proof.Machine.execSCmpLtN32 d a b w s
  | .sCmpLeN32 d a b w => Sys2Proof.Machine.execSCmpLeN32 d a b w s
  | .sCmpGtI32 d a b w => Sys2Proof.Machine.execSCmpGtI32 d a b w s
  | .sCmpGeI32 d a b w => Sys2Proof.Machine.execSCmpGeI32 d a b w s
  | .sCmpGtN32 d a b w => Sys2Proof.Machine.execSCmpGtN32 d a b w s
  | .sCmpGeN32 d a b w => Sys2Proof.Machine.execSCmpGeN32 d a b w s
  | .siAdd d a imm => Sys2Proof.Machine.execSiAdd d a imm s
  | .siSub d a imm => Sys2Proof.Machine.execSiSub d a imm s
  | .siMul d a imm => Sys2Proof.Machine.execSiMul d a imm s
  | .siMulhiI32 d a imm => Sys2Proof.Machine.execSiMulhiI32 d a imm s
  | .siMulhiN32 d a imm => Sys2Proof.Machine.execSiMulhiN32 d a imm s
  | .siAnd d a imm => Sys2Proof.Machine.execSiAnd d a imm s
  | .siOr d a imm => Sys2Proof.Machine.execSiOr d a imm s
  | .siXor d a imm => Sys2Proof.Machine.execSiXor d a imm s
  | .siShl d a imm => Sys2Proof.Machine.execSiShl d a imm s
  | .siShr d a imm => Sys2Proof.Machine.execSiShr d a imm s
  | .siSra d a imm => Sys2Proof.Machine.execSiSra d a imm s
  | .siMinI32 d a imm => Sys2Proof.Machine.execSiMinI32 d a imm s
  | .siMaxI32 d a imm => Sys2Proof.Machine.execSiMaxI32 d a imm s
  | .siMinN32 d a imm => Sys2Proof.Machine.execSiMinN32 d a imm s
  | .siMaxN32 d a imm => Sys2Proof.Machine.execSiMaxN32 d a imm s
  | .siMovs d imm => Sys2Proof.Machine.execSiMovs d imm s
  | .siCmpEq d a imm => Sys2Proof.Machine.execSiCmpEq d a imm s
  | .siCmpNe d a imm => Sys2Proof.Machine.execSiCmpNe d a imm s
  | .siCmpLtI32 d a imm => Sys2Proof.Machine.execSiCmpLtI32 d a imm s
  | .siCmpLeI32 d a imm => Sys2Proof.Machine.execSiCmpLeI32 d a imm s
  | .siCmpLtN32 d a imm => Sys2Proof.Machine.execSiCmpLtN32 d a imm s
  | .siCmpLeN32 d a imm => Sys2Proof.Machine.execSiCmpLeN32 d a imm s
  | .siCmpGtI32 d a imm => Sys2Proof.Machine.execSiCmpGtI32 d a imm s
  | .siCmpGeI32 d a imm => Sys2Proof.Machine.execSiCmpGeI32 d a imm s
  | .siCmpGtN32 d a imm => Sys2Proof.Machine.execSiCmpGtN32 d a imm s
  | .siCmpGeN32 d a imm => Sys2Proof.Machine.execSiCmpGeN32 d a imm s
  | .siAddI64 d a imm => Sys2Proof.Machine.execSiAddI64 d a imm s
  | .ldl d off => Sys2Proof.Machine.execLdl d off s
  | .ldlB64 d off => Sys2Proof.Machine.execLdlB64 d off s
  | .bra off => Sys2Proof.Machine.execBra off s
  | .brcZ a off => Sys2Proof.Machine.execBrcZ a off s
  | .brcNz a off => Sys2Proof.Machine.execBrcNz a off s
  | .brcNeg a off => Sys2Proof.Machine.execBrcNeg a off s
  | .brcNneg a off => Sys2Proof.Machine.execBrcNneg a off s
  | .brcPos a off => Sys2Proof.Machine.execBrcPos a off s
  | .brcNpos a off => Sys2Proof.Machine.execBrcNpos a off s
  | .brv p tgt join => Sys2Proof.Machine.execBrv p tgt join s
  | .brRg p tgt => Sys2Proof.Machine.execBrRg p tgt s
  | .call off => Sys2Proof.Machine.execCall off s
  | .exit => Sys2Proof.Machine.execExit s
  | .ret => Sys2Proof.Machine.execRet s
  | .nop => Sys2Proof.Machine.execNop s
  | .yield => Sys2Proof.Machine.execYield s
  | .gets d v l => Sys2Proof.Machine.execGets d v l s
  | .getsFirst d v => Sys2Proof.Machine.execGetsFirst d v s
  | .sets d v => Sys2Proof.Machine.execSets d v s
  | .bpost n c => Sys2Proof.Machine.execBpost n c s
  | .bhold n => Sys2Proof.Machine.execBhold n s
  | .barg => Sys2Proof.Machine.execBarg s
  | .wait kmask ctr cen n => Sys2Proof.Machine.execWait kmask ctr cen n s
  | .rep cnt step sz => Sys2Proof.Machine.execRep cnt step sz s
  | .vAdd d a b => Sys2Proof.Machine.execVAdd d a b s
  | .vSub d a b => Sys2Proof.Machine.execVSub d a b s
  | .vMul d a b => Sys2Proof.Machine.execVMul d a b s
  | .vMulhiI32 d a b => Sys2Proof.Machine.execVMulhiI32 d a b s
  | .vMulhiN32 d a b => Sys2Proof.Machine.execVMulhiN32 d a b s
  | .vMad d a b => Sys2Proof.Machine.execVMad d a b s
  | .vMinI32 d a b => Sys2Proof.Machine.execVMinI32 d a b s
  | .vMaxI32 d a b => Sys2Proof.Machine.execVMaxI32 d a b s
  | .vMinN32 d a b => Sys2Proof.Machine.execVMinN32 d a b s
  | .vMaxN32 d a b => Sys2Proof.Machine.execVMaxN32 d a b s
  | .vAnd d a b => Sys2Proof.Machine.execVAnd d a b s
  | .vOr d a b => Sys2Proof.Machine.execVOr d a b s
  | .vXor d a b => Sys2Proof.Machine.execVXor d a b s
  | .vShl d a b => Sys2Proof.Machine.execVShl d a b s
  | .vShr d a b => Sys2Proof.Machine.execVShr d a b s
  | .vSra d a b => Sys2Proof.Machine.execVSra d a b s
  | .vClz d a => Sys2Proof.Machine.execVClz d a s
  | .vPopc d a => Sys2Proof.Machine.execVPopc d a s
  | .vAbsI32 d a => Sys2Proof.Machine.execVAbsI32 d a s
  | .vAddSatI32 d a b => Sys2Proof.Machine.execVAddSatI32 d a b s
  | .vSubSatI32 d a b => Sys2Proof.Machine.execVSubSatI32 d a b s
  | .vMov d a => Sys2Proof.Machine.execVMov d a s
  | .viAdd d a imm => Sys2Proof.Machine.execViAdd d a imm s
  | .viSub d a imm => Sys2Proof.Machine.execViSub d a imm s
  | .viMul d a imm => Sys2Proof.Machine.execViMul d a imm s
  | .viMulhiI32 d a imm => Sys2Proof.Machine.execViMulhiI32 d a imm s
  | .viMulhiN32 d a imm => Sys2Proof.Machine.execViMulhiN32 d a imm s
  | .viMinI32 d a imm => Sys2Proof.Machine.execViMinI32 d a imm s
  | .viMaxI32 d a imm => Sys2Proof.Machine.execViMaxI32 d a imm s
  | .viMinN32 d a imm => Sys2Proof.Machine.execViMinN32 d a imm s
  | .viMaxN32 d a imm => Sys2Proof.Machine.execViMaxN32 d a imm s
  | .viAnd d a imm => Sys2Proof.Machine.execViAnd d a imm s
  | .viOr d a imm => Sys2Proof.Machine.execViOr d a imm s
  | .viXor d a imm => Sys2Proof.Machine.execViXor d a imm s
  | .viShl d a imm => Sys2Proof.Machine.execViShl d a imm s
  | .viShr d a imm => Sys2Proof.Machine.execViShr d a imm s
  | .viSra d a imm => Sys2Proof.Machine.execViSra d a imm s
  | .viMov d imm => Sys2Proof.Machine.execViMov d imm s
  | .v64Add d a b => Sys2Proof.Machine.execV64Add d a b s
  | .v64Sub d a b => Sys2Proof.Machine.execV64Sub d a b s
  | .v64Mul d a b => Sys2Proof.Machine.execV64Mul d a b s
  | .v64MinI64 d a b => Sys2Proof.Machine.execV64MinI64 d a b s
  | .v64MaxI64 d a b => Sys2Proof.Machine.execV64MaxI64 d a b s
  | .v64MinN64 d a b => Sys2Proof.Machine.execV64MinN64 d a b s
  | .v64MaxN64 d a b => Sys2Proof.Machine.execV64MaxN64 d a b s
  | .v64And d a b => Sys2Proof.Machine.execV64And d a b s
  | .v64Or d a b => Sys2Proof.Machine.execV64Or d a b s
  | .v64Xor d a b => Sys2Proof.Machine.execV64Xor d a b s
  | .v64Shl d a b => Sys2Proof.Machine.execV64Shl d a b s
  | .v64Shr d a b => Sys2Proof.Machine.execV64Shr d a b s
  | .v64Sra d a b => Sys2Proof.Machine.execV64Sra d a b s
  | .v64Clz d a => Sys2Proof.Machine.execV64Clz d a s
  | .v64Popc d a => Sys2Proof.Machine.execV64Popc d a s
  | .v64MulWideI32 d a b => Sys2Proof.Machine.execV64MulWideI32 d a b s
  | .v64MulWideN32 d a b => Sys2Proof.Machine.execV64MulWideN32 d a b s
  | .vCmpEq p a b ty => Sys2Proof.Machine.execVCmpEq p a b ty s
  | .vCmpNe p a b ty => Sys2Proof.Machine.execVCmpNe p a b ty s
  | .vCmpLt p a b ty => Sys2Proof.Machine.execVCmpLt p a b ty s
  | .vCmpLe p a b ty => Sys2Proof.Machine.execVCmpLe p a b ty s
  | .vCmpGt p a b ty => Sys2Proof.Machine.execVCmpGt p a b ty s
  | .vCmpGe p a b ty => Sys2Proof.Machine.execVCmpGe p a b ty s
  | .vFcmpEq p a b f64 => Sys2Proof.Machine.execVFcmpEq p a b f64 s
  | .vFcmpNe p a b f64 => Sys2Proof.Machine.execVFcmpNe p a b f64 s
  | .vFcmpLt p a b f64 => Sys2Proof.Machine.execVFcmpLt p a b f64 s
  | .vFcmpLe p a b f64 => Sys2Proof.Machine.execVFcmpLe p a b f64 s
  | .vFcmpGt p a b f64 => Sys2Proof.Machine.execVFcmpGt p a b f64 s
  | .vFcmpGe p a b f64 => Sys2Proof.Machine.execVFcmpGe p a b f64 s
  | .vFcmpNum p a b f64 => Sys2Proof.Machine.execVFcmpNum p a b f64 s
  | .vFcmpNan p a b f64 => Sys2Proof.Machine.execVFcmpNan p a b f64 s
  | .vFaddF32 d a b => Sys2Proof.Machine.execVFaddF32 d a b s
  | .vFsubF32 d a b => Sys2Proof.Machine.execVFsubF32 d a b s
  | .vFmulF32 d a b => Sys2Proof.Machine.execVFmulF32 d a b s
  | .vFmaF32 d a b => Sys2Proof.Machine.execVFmaF32 d a b s
  | .vFminF32 d a b => Sys2Proof.Machine.execVFminF32 d a b s
  | .vFmaxF32 d a b => Sys2Proof.Machine.execVFmaxF32 d a b s
  | .vFabsF32 d a => Sys2Proof.Machine.execVFabsF32 d a s
  | .vFnegF32 d a => Sys2Proof.Machine.execVFnegF32 d a s
  | .vFaddF64 d a b => Sys2Proof.Machine.execVFaddF64 d a b s
  | .vFsubF64 d a b => Sys2Proof.Machine.execVFsubF64 d a b s
  | .vFmulF64 d a b => Sys2Proof.Machine.execVFmulF64 d a b s
  | .vFmaF64 d a b => Sys2Proof.Machine.execVFmaF64 d a b s
  | .vFminF64 d a b => Sys2Proof.Machine.execVFminF64 d a b s
  | .vFmaxF64 d a b => Sys2Proof.Machine.execVFmaxF64 d a b s
  | .vFabsF64 d a => Sys2Proof.Machine.execVFabsF64 d a s
  | .vFnegF64 d a => Sys2Proof.Machine.execVFnegF64 d a s
  | .vRcpF32 d a => Sys2Proof.Machine.execVRcpF32 d a s
  | .vRsqF32 d a => Sys2Proof.Machine.execVRsqF32 d a s
  | .vSqrtF32 d a => Sys2Proof.Machine.execVSqrtF32 d a s
  | .vExp2F32 d a => Sys2Proof.Machine.execVExp2F32 d a s
  | .vLog2F32 d a => Sys2Proof.Machine.execVLog2F32 d a s
  | .vSinF32 d a => Sys2Proof.Machine.execVSinF32 d a s
  | .vCosF32 d a => Sys2Proof.Machine.execVCosF32 d a s
  | .vRcpF64 d a => Sys2Proof.Machine.execVRcpF64 d a s
  | .vRsqF64 d a => Sys2Proof.Machine.execVRsqF64 d a s
  | .vSqrtF64 d a => Sys2Proof.Machine.execVSqrtF64 d a s
  | .cvt d a dt st rm sat => Sys2Proof.Machine.execCvt d a dt st rm sat s
  | .vrot d a blk sg fmt => Sys2Proof.Machine.execVrot d a blk sg fmt s
  | .virot d a blk sg fmt => Sys2Proof.Machine.execVirot d a blk sg fmt s
  | .lxAt d a src imm sm => Sys2Proof.Machine.execLxAt d a src imm sm s
  | .lxLo d a src imm sm => Sys2Proof.Machine.execLxLo d a src imm sm s
  | .lxHi d a src imm sm => Sys2Proof.Machine.execLxHi d a src imm sm s
  | .lxXor d a src imm sm => Sys2Proof.Machine.execLxXor d a src imm sm s
  | .pollEvery d a sm => Sys2Proof.Machine.execPollEvery d a sm s
  | .pollSome d a sm => Sys2Proof.Machine.execPollSome d a sm s
  | .pollBits d a sm => Sys2Proof.Machine.execPollBits d a sm s
  | .peersB32 d a sm => Sys2Proof.Machine.execPeersB32 d a sm s
  | .peersB64 d a sm => Sys2Proof.Machine.execPeersB64 d a sm s
  | .combAddI32 d a sm => Sys2Proof.Machine.execCombAddI32 d a sm s
  | .combMinI32 d a sm => Sys2Proof.Machine.execCombMinI32 d a sm s
  | .combMaxI32 d a sm => Sys2Proof.Machine.execCombMaxI32 d a sm s
  | .combMinN32 d a sm => Sys2Proof.Machine.execCombMinN32 d a sm s
  | .combMaxN32 d a sm => Sys2Proof.Machine.execCombMaxN32 d a sm s
  | .combAndB32 d a sm => Sys2Proof.Machine.execCombAndB32 d a sm s
  | .combOrB32 d a sm => Sys2Proof.Machine.execCombOrB32 d a sm s
  | .combXorB32 d a sm => Sys2Proof.Machine.execCombXorB32 d a sm s
  | .combAddF32 d a sm => Sys2Proof.Machine.execCombAddF32 d a sm s
  | .combMinF32 d a sm => Sys2Proof.Machine.execCombMinF32 d a sm s
  | .combMaxF32 d a sm => Sys2Proof.Machine.execCombMaxF32 d a sm s
  | .sel d a b p => Sys2Proof.Machine.execSel d a b p s
  | .pand d a b => Sys2Proof.Machine.execPand d a b s
  | .por d a b => Sys2Proof.Machine.execPor d a b s
  | .pxor d a b => Sys2Proof.Machine.execPxor d a b s
  | .pandn d a b => Sys2Proof.Machine.execPandn d a b s
  | .pnot d a => Sys2Proof.Machine.execPnot d a s
  | .pmov d a => Sys2Proof.Machine.execPmov d a s
  | .pfrom d sr => Sys2Proof.Machine.execPfrom d sr s
  | .pto a sr => Sys2Proof.Machine.execPto a sr s
  | .ldG ty hint d a off => Sys2Proof.Machine.execLdG ty hint d a off s
  | .stG ty hint d a off => Sys2Proof.Machine.execStG ty hint d a off s
  | .ldS ty d a off => Sys2Proof.Machine.execLdS ty d a off s
  | .stS ty d a off => Sys2Proof.Machine.execStS ty d a off s
  | .atomLd d a ty scope ord pro => Sys2Proof.Machine.execAtomLd d a ty scope ord pro s
  | .atomSt d a ty scope ord pro => Sys2Proof.Machine.execAtomSt d a ty scope ord pro s
  | .atomExch d a ty scope ord pro => Sys2Proof.Machine.execAtomExch d a ty scope ord pro s
  | .atomCas d a ty scope ord pro => Sys2Proof.Machine.execAtomCas d a ty scope ord pro s
  | .atomAdd d a ty scope ord pro => Sys2Proof.Machine.execAtomAdd d a ty scope ord pro s
  | .atomMin d a ty scope ord pro => Sys2Proof.Machine.execAtomMin d a ty scope ord pro s
  | .atomMax d a ty scope ord pro => Sys2Proof.Machine.execAtomMax d a ty scope ord pro s
  | .atomAnd d a ty scope ord pro => Sys2Proof.Machine.execAtomAnd d a ty scope ord pro s
  | .atomOr d a ty scope ord pro => Sys2Proof.Machine.execAtomOr d a ty scope ord pro s
  | .atomSLd d a ty ord => Sys2Proof.Machine.execAtomSLd d a ty ord s
  | .atomSSt d a ty ord => Sys2Proof.Machine.execAtomSSt d a ty ord s
  | .atomSExch d a ty ord => Sys2Proof.Machine.execAtomSExch d a ty ord s
  | .atomSCas d a ty ord => Sys2Proof.Machine.execAtomSCas d a ty ord s
  | .atomSAdd d a ty ord => Sys2Proof.Machine.execAtomSAdd d a ty ord s
  | .atomSMin d a ty ord => Sys2Proof.Machine.execAtomSMin d a ty ord s
  | .atomSMax d a ty ord => Sys2Proof.Machine.execAtomSMax d a ty ord s
  | .atomSAnd d a ty ord => Sys2Proof.Machine.execAtomSAnd d a ty ord s
  | .atomSOr d a ty ord => Sys2Proof.Machine.execAtomSOr d a ty ord s
  | .fence scope ord pro => Sys2Proof.Machine.execFence scope ord pro s
  | .cctlInv a scope => Sys2Proof.Machine.execCctlInv a scope s
  | .cctlWb a scope => Sys2Proof.Machine.execCctlWb a scope s
  | .cctlWbinv a scope => Sys2Proof.Machine.execCctlWbinv a scope s
  | .prefetch a scope => Sys2Proof.Machine.execPrefetch a scope s
  | .waitmon a => Sys2Proof.Machine.execWaitmon a s
  | .waitge d a sp => Sys2Proof.Machine.execWaitge d a sp s
  | .tmld kn d a => Sys2Proof.Machine.execTmld kn d a s
  | .tmset d a b => Sys2Proof.Machine.execTmset d a b s
  | .cpy kn d => Sys2Proof.Machine.execCpy kn d s
  | .cpym kn d => Sys2Proof.Machine.execCpym kn d s
  | .sgset d a => Sys2Proof.Machine.execSgset d a s
  | .rot kn d => Sys2Proof.Machine.execRot kn d s
  | .irot kn d => Sys2Proof.Machine.execIrot kn d s
  | .mma kn d => Sys2Proof.Machine.execMma kn d s
  | .accLd kn d => Sys2Proof.Machine.execAccLd kn d s
  | .accSt kn d => Sys2Proof.Machine.execAccSt kn d s
  | .accZero d => Sys2Proof.Machine.execAccZero d s
  | .bswap d => Sys2Proof.Machine.execBswap d s
  | .layerF kn d => Sys2Proof.Machine.execLayerF kn d s
  | .layerT kn d => Sys2Proof.Machine.execLayerT kn d s
  | .layerP kn d => Sys2Proof.Machine.execLayerP kn d s
  | .apush kn d a => Sys2Proof.Machine.execApush kn d a s
  | .apop kn d a => Sys2Proof.Machine.execApop kn d a s
  | .reelSmax kn d => Sys2Proof.Machine.execReelSmax kn d s
  | .reelNorm kn d => Sys2Proof.Machine.execReelNorm kn d s
  | .reelDsmax kn d => Sys2Proof.Machine.execReelDsmax kn d s
  | .reelDnorm kn d => Sys2Proof.Machine.execReelDnorm kn d s
  | .reelStat kn d => Sys2Proof.Machine.execReelStat kn d s
  | .reelClr kn d => Sys2Proof.Machine.execReelClr kn d s
  | .pimx kn d => Sys2Proof.Machine.execPimx kn d s
  | .pimld kn d a => Sys2Proof.Machine.execPimld kn d a s
  | .mark kn => Sys2Proof.Machine.execMark kn s
  | .pimwait => Sys2Proof.Machine.execPimwait s
  | .trap n => Sys2Proof.Machine.execTrap n s
  | .eret => Sys2Proof.Machine.execEret s
  | .hostcall a c => Sys2Proof.Machine.execHostcall a c s
  | .getsr d r => Sys2Proof.Machine.execGetsr d r s
  | .setsr a r => Sys2Proof.Machine.execSetsr a r s
  | .sleep n => Sys2Proof.Machine.execSleep n s
  | .clauseStart => Sys2Proof.Machine.execClauseStart s
  | .regroupRendezvous team => Sys2Proof.Machine.execRegroupRendezvous team s
  | .sleepExpire team warp => Sys2Proof.Machine.execSleepExpire team warp s
  | .waitmonWake team warp => Sys2Proof.Machine.execWaitmonWake team warp s
  | .waitmonTimeout team warp => Sys2Proof.Machine.execWaitmonTimeout team warp s
  | .waitgeReread team warp => Sys2Proof.Machine.execWaitgeReread team warp s
  | .returnStackSpill team warp keep => Sys2Proof.Machine.execReturnStackSpill team warp keep s
  | .launchRecordTake world queue => Sys2Proof.Machine.execLaunchRecordTake world queue s
  | .dependenceCheck launch => Sys2Proof.Machine.execDependenceCheck launch s
  | .dispatchDecision => Sys2Proof.Machine.execDispatchDecision s
  | .teamEnd team => Sys2Proof.Machine.execTeamEnd team s
  | .loadComplete op units hitL1 => Sys2Proof.Machine.execLoadComplete op units hitL1 s
  | .storeComplete op units => Sys2Proof.Machine.execStoreComplete op units s
  | .atomicComplete op order => Sys2Proof.Machine.execAtomicComplete op order s
  | .gatherBufferDrain cluster lines => Sys2Proof.Machine.execGatherBufferDrain cluster lines s
  | .pageWalk core world va => Sys2Proof.Machine.execPageWalk core world va s
  | .homeGets line cluster => Sys2Proof.Machine.execHomeGets line cluster s
  | .homeGetm line cluster => Sys2Proof.Machine.execHomeGetm line cluster s
  | .homeUpg line cluster => Sys2Proof.Machine.execHomeUpg line cluster s
  | .homePute line cluster => Sys2Proof.Machine.execHomePute line cluster s
  | .homePutm line cluster => Sys2Proof.Machine.execHomePutm line cluster s
  | .homePuto line cluster => Sys2Proof.Machine.execHomePuto line cluster s
  | .homeMemoryData line => Sys2Proof.Machine.execHomeMemoryData line s
  | .homeInvalidationAck line cluster => Sys2Proof.Machine.execHomeInvalidationAck line cluster s
  | .homeForwardConfirm line cluster => Sys2Proof.Machine.execHomeForwardConfirm line cluster s
  | .l2Invalidation line cluster => Sys2Proof.Machine.execL2Invalidation line cluster s
  | .l2ForwardedRequest line cluster => Sys2Proof.Machine.execL2ForwardedRequest line cluster s
  | .l2Grant line cluster => Sys2Proof.Machine.execL2Grant line cluster s
  | .promotionDrain world cluster => Sys2Proof.Machine.execPromotionDrain world cluster s
  | .drainAck world cluster => Sys2Proof.Machine.execDrainAck world cluster s
  | .directoryEntryDrop line => Sys2Proof.Machine.execDirectoryEntryDrop line s
  | .tmldComplete op team => Sys2Proof.Machine.execTmldComplete op team s
  | .copyBeat op => Sys2Proof.Machine.execCopyBeat op s
  | .copyBucketTick => Sys2Proof.Machine.execCopyBucketTick s
  | .cpyComplete op => Sys2Proof.Machine.execCpyComplete op s
  | .cpymBeatArrival op target => Sys2Proof.Machine.execCpymBeatArrival op target s
  | .cpymComplete op => Sys2Proof.Machine.execCpymComplete op s
  | .tensorOpComplete op checks => Sys2Proof.Machine.execTensorOpComplete op checks s
  | .tileEvaluation op vector tile => Sys2Proof.Machine.execTileEvaluation op vector tile s
  | .stackCopyComplete op => Sys2Proof.Machine.execStackCopyComplete op s
  | .pimldComplete op team => Sys2Proof.Machine.execPimldComplete op team s
  | .pimCommandStart op => Sys2Proof.Machine.execPimCommandStart op s
  | .bpRow op => Sys2Proof.Machine.execBpRow op s
  | .bpFillRow op => Sys2Proof.Machine.execBpFillRow op s
  | .pimBlockComplete op => Sys2Proof.Machine.execPimBlockComplete op s
  | .ordinaryBankRequest bank => Sys2Proof.Machine.execOrdinaryBankRequest bank s
  | .bpYieldWindowExpire bank => Sys2Proof.Machine.execBpYieldWindowExpire bank s
  | .markComplete op => Sys2Proof.Machine.execMarkComplete op s
  | .eventRecordEnter world source => Sys2Proof.Machine.execEventRecordEnter world source s
  | .eventQueueRetry world => Sys2Proof.Machine.execEventQueueRetry world s
  | .eventFrameSend world => Sys2Proof.Machine.execEventFrameSend world s
  | .preemptSave team => Sys2Proof.Machine.execPreemptSave team s
  | .preemptCancel team => Sys2Proof.Machine.execPreemptCancel team s
  | .teamRestore team core => Sys2Proof.Machine.execTeamRestore team core s
  | .watchdogExpire team => Sys2Proof.Machine.execWatchdogExpire team s
  | .pavaneBatchStart region => Sys2Proof.Machine.execPavaneBatchStart region s
  | .pavaneBatchComplete region => Sys2Proof.Machine.execPavaneBatchComplete region s
  | .revokeComplete region => Sys2Proof.Machine.execRevokeComplete region s
  | .tileProgrammed region ad => Sys2Proof.Machine.execTileProgrammed region ad s
  | .regionVerifyComplete region => Sys2Proof.Machine.execRegionVerifyComplete region s
  | .scrubComplete page => Sys2Proof.Machine.execScrubComplete page s
  | .logWindowClose world => Sys2Proof.Machine.execLogWindowClose world s
  | .healthWindowAge soft link => Sys2Proof.Machine.execHealthWindowAge soft link s
  | .openSession rtag formOk world nonce ciphertext signature => Sys2Proof.Machine.execOpenSession rtag formOk world nonce ciphertext signature s
  | .attest rtag formOk world nonce => Sys2Proof.Machine.execAttest rtag formOk world nonce s
  | .releaseSecret rtag formOk world layoutGen kem gpa len ciphertext tag => Sys2Proof.Machine.execReleaseSecret rtag formOk world layoutGen kem gpa len ciphertext tag s
  | .write h gpa data => Sys2Proof.Machine.execWrite h gpa data s
  | .read h gpa len rest => Sys2Proof.Machine.execRead h gpa len rest s
  | .kick h queue tail => Sys2Proof.Machine.execKick h queue tail s
  | .closeSession h => Sys2Proof.Machine.execCloseSession h s
  | .frameDiscard f => Sys2Proof.Machine.execFrameDiscard f s
  | .neighborSolicitation target => Sys2Proof.Machine.execNeighborSolicitation target s
  | .worldCreate h w pimok qtable evq => Sys2Proof.Machine.execWorldCreate h w pimok qtable evq s
  | .worldDestroy h w => Sys2Proof.Machine.execWorldDestroy h w s
  | .s2rootSet h w pa => Sys2Proof.Machine.execS2rootSet h w pa s
  | .pageAssign h w pim pages => Sys2Proof.Machine.execPageAssign h w pim pages s
  | .pageShare h pages => Sys2Proof.Machine.execPageShare h pages s
  | .pageRelease h pages => Sys2Proof.Machine.execPageRelease h pages s
  | .cacheallotSet h w value => Sys2Proof.Machine.execCacheallotSet h w value s
  | .logSet h w logBase logSize watch => Sys2Proof.Machine.execLogSet h w logBase logSize watch s
  | .s1rootSet h gpa => Sys2Proof.Machine.execS1rootSet h gpa s
  | .tlbInv h w stage range lo hi => Sys2Proof.Machine.execTlbInv h w stage range lo hi s
  | .ctxSet h va len => Sys2Proof.Machine.execCtxSet h va len s
  | .regionStage h adMask kind id offset data => Sys2Proof.Machine.execRegionStage h adMask kind id offset data s
  | .regionProgram h region id pavaneCtl digest => Sys2Proof.Machine.execRegionProgram h region id pavaneCtl digest s
  | .regionFree h region => Sys2Proof.Machine.execRegionFree h region s
  | .handleSet h w hcount first entries => Sys2Proof.Machine.execHandleSet h w hcount first entries s
  | .columnSet h region first pairs => Sys2Proof.Machine.execColumnSet h region first pairs s
  | .pavaneSet h region value => Sys2Proof.Machine.execPavaneSet h region value s
  | .regionRead h region part len offset => Sys2Proof.Machine.execRegionRead h region part len offset s
  | .resume h w source seq skip => Sys2Proof.Machine.execResume h w source seq skip s
  | .opResume h w rid => Sys2Proof.Machine.execOpResume h w rid s
  | .opAbandon h w rid => Sys2Proof.Machine.execOpAbandon h w rid s
  | .teamAbort h w queue record teamId => Sys2Proof.Machine.execTeamAbort h w queue record teamId s
  | .launchAbort h w queue record => Sys2Proof.Machine.execLaunchAbort h w queue record s
  | .preempt h w scope queue record teamId => Sys2Proof.Machine.execPreempt h w scope queue record teamId s
  | .receipt h w nonce => Sys2Proof.Machine.execReceipt h w nonce s
  | .checkpoint h w nonce => Sys2Proof.Machine.execCheckpoint h w nonce s
  | .measlogRead h => Sys2Proof.Machine.execMeaslogRead h s
  | .addrSet h address => Sys2Proof.Machine.execAddrSet h address s
  | .credSet h w key => Sys2Proof.Machine.execCredSet h w key s
  | .occRead h w cache first n => Sys2Proof.Machine.execOccRead h w cache first n s
  | .softerrRead h => Sys2Proof.Machine.execSofterrRead h s
  | .powerSet h value => Sys2Proof.Machine.execPowerSet h value s
  | .regRead h reg index => Sys2Proof.Machine.execRegRead h reg index s
  | .regWrite h reg index value => Sys2Proof.Machine.execRegWrite h reg index value s
  | .xallotWrite h w value => Sys2Proof.Machine.execXallotWrite h w value s
  | .cpybwWrite h w value => Sys2Proof.Machine.execCpybwWrite h w value s
  | .moduleReset boot => Sys2Proof.Machine.execModuleReset boot s
  | .powerSample watts => Sys2Proof.Machine.execPowerSample watts s
  | .powerControlDecision celsius => Sys2Proof.Machine.execPowerControlDecision celsius s
  | .thermalTrip celsius => Sys2Proof.Machine.execThermalTrip celsius s
  | .supplyUndervoltage millivolts => Sys2Proof.Machine.execSupplyUndervoltage millivolts s
  | .unassignedWord => Sys2Proof.Machine.execUnassignedWord s
  | .unknownTypeOrCommandCode h mgmt code => Sys2Proof.Machine.execUnknownTypeOrCommandCode h mgmt code s
  | .duplicateAddressDetection address conflict => Sys2Proof.Machine.execDuplicateAddressDetection address conflict s

end Sys2Proof.Machine
end

