-- ==== Sys2Proof/Machine/Step.lean ====
section
/-! DEFINITION. One step of the module: the next agent acts (R48, R79). -/

namespace Sys2Proof.Machine

/-- The instruction at the selected warp's PC issues: what R79 admits is executed, what it does not raises its
fault. -/
noncomputable def issueAtPc (s : State) (t : Team) (w : Warp) (h : Header) : Out :=
  match s.issueWord t w h with
  | .ok i => exec i (s.fetched t w.wordAddr.toNat)
  | .error _ => exec .unassignedWord s

/-- The selected warp takes an issue opportunity: at a header it starts the clause and, when it can, issues the
clause's word (R66, R67, R72). -/
noncomputable def issueSelected (s : State) : Out :=
  match s.curWarp with
  | none => .next s
  | some (t, _, w) =>
    match w.clause with
    | some h => issueAtPc s t w h
    | none =>
      match exec .clauseStart s with
      | .next s1 =>
        match s1.curWarp with
        | none => .next s1
        | some (t1, _, w1) =>
          match w1.clause with
          | none => .next s1
          | some h1 => issueAtPc s1 t1 w1 h1
      | r => r

/-- The state with the model's marks for a selected warp. -/
def State.select (s : State) (who : Nat × Nat) : State := { s with cur := some who, held := false }

/-- The selected warp's issue. -/
noncomputable def tryIssue (s : State) (who : Nat × Nat) : Out := issueSelected (s.select who)

/-- The selected warp comes to issue a word: its clause is running, or starts with this opportunity; passing a LIT clause, a fault
of a header and the end of the warp issue nothing (R72). -/
def issuesWord (s : State) (who : Nat × Nat) : Bool :=
  let running := fun (x : State) => match x.curWarp with
    | some (_, _, w) => w.clause.isSome
    | none => false
  running (s.select who) || (match exec .clauseStart (s.select who) with
    | .next s1 => running s1
    | _ => false)

/-- Whether a warp is ready: its issue is not held (R48). -/
noncomputable def isReady (s : State) (who : Nat × Nat) : Bool :=
  match tryIssue s who with
  | .next s' => !s'.held
  | _ => true

/-- The scheduler's candidates that are ready, with skip count and age. -/
noncomputable def readyWarps (s : State) (core sched : Nat) : List (Nat × Nat × (Nat × Nat)) :=
  (s.schedulerWarps core sched).filterMap fun who =>
    match s.findWarp who.1 who.2 with
    | some (_, w) => if isReady s who then some (w.skip, w.age, who) else none
    | none => none

/-- Whether a warp passes over this opportunity because of `yield` (R67, R149). -/
def yieldsNow (s : State) (who : Nat × Nat) : Bool :=
  match s.findWarp who.1 who.2 with
  | some (_, w) => w.yielded
  | none => false

/-- Skip counts after an opportunity: the ready warps that did not issue count 1 more, the issuer 0 (R48). -/
def countSkips (s : State) (ready : List (Nat × Nat × (Nat × Nat))) (who : Nat × Nat) : State :=
  ready.foldl (fun x r => x.updWarp r.2.2.1 r.2.2.2 fun w =>
    { w with skip := if r.2.2 = who then 0 else w.skip + 1 }) s

/-- One issue opportunity of a scheduler (R48). -/
noncomputable def issue (s : State) (core sched : Nat) : Out :=
  let ready := readyWarps s core sched
  let awake := ready.filter fun r => !yieldsNow s r.2.2
  match pickWarp (if awake = [] then ready else awake) with
  | none => .next (s.clearYields core sched)
  | some who =>
    let s1 := s.clearYields core sched
    tryIssue (if issuesWord s who then countSkips s1 ready who else s1) who

/-- Whether a constructor is an event or message of another agent. -/
def isEvent (e : Instr) : Bool :=
  match e with
  | .clauseStart => false
  | .unassignedWord => false
  | e => (encode e).isNone

/-- Events that a module whose boot has failed still takes part in: it answers requests, and its port keeps its address (R365,
R376). -/
def answersFailed (e : Instr) : Bool :=
  match e with
  | .openSession _ _ _ _ _ _ | .attest _ _ _ _ | .releaseSecret _ _ _ _ _ _ _ _ _ | .unknownTypeOrCommandCode _ _ _
  | .frameDiscard _ | .neighborSolicitation _ | .duplicateAddressDetection _ _ | .thermalTrip _ | .supplyUndervoltage _ => true
  | _ => false

/-- Whether an event can come about: off, only a module reset; before boot has run, nothing else either; after a failed boot,
only what answers a request or ends the supply (R374, R376, R381). -/
def canHappen (s : State) (e : Instr) : Bool :=
  match e with
  | .moduleReset _ => true
  | _ =>
    match s.boot with
    | .pending => false
    | .off => false
    | .failed _ _ => answersFailed e
    | .up => true

/-- One agent acts. -/
noncomputable def runTick (s : State) : Tick → Out
  | .issue core sched => issue s core sched
  | .event e => if isEvent e && canHappen s e then exec e { s with cur := none } else .next s
  | .damageCells line f => .next { s with cellFaults := KMap.put s.cellFaults line f, cur := none }
  | .damagePacket line => .next { s with badPackets := line :: s.badPackets, cur := none }

/-- One step of the module: what the schedule names next, or, with nothing scheduled, any agent. -/
noncomputable def step (s : State) : Host.Outcome State Fault Refusal :=
  match s.schedule with
  | [] => runTick { s with fresh := s.fresh + 1 } (Config.freeTick s.fresh)
  | tick :: rest => runTick { s with schedule := rest, fresh := s.fresh + 1 } tick

/-- The state with an instruction word placed where the next step fetches: a world and a team of one warp exist on core
0 whose started clause holds the word (a transfer last, other words before a zero word), its page is in core 0's
TLB, and core 0's scheduler 0 takes the next issue opportunity. -/
def State.withFetchWord (s : State) (nbits w : Nat) : State :=
  let v := if nbits ≤ 32 then w % 2 ^ 32 else 0
  let h : Header :=
    { cls := classOfWord v, kwait := 0, wl := false, ws := false, yield := false,
      count := if isTransferWord v then 1 else 2 }
  let s1 := s.placeWorld
  { s1 with
    mem := placedMem h v, pot := placedPot, tlb := [placedTlb], launches := [placedLaunch], teams := [placedTeam h], boot := .up, nextUid := 2,
    schedule := [.issue 0 0] }

end Sys2Proof.Machine
end

