-- ==== Sys2Proof/Safety.lean ====
section
/-! DEFINITION. What counts as a safe run: a step never stops the machine, and the states it passes through keep their form:
memory and ownership table in canonical form, and the module's control registers within what their bit maps allow. -/

namespace Sys2Proof.Safety

open Sys2Proof.Machine

/-- The machine does not stop at the next step. -/
def CanStep (s : State) : Prop := ∃ s', step s = .next s'

/-- Memory and the page ownership table are in their one canonical form. -/
def StoresOk (s : State) : Prop := Memory.wf s.mem = true ∧ Sparse.wf 0 s.pot = true

/-- Reserved bits of the module's control registers are zero, and their fields hold what a write may leave (DISPCTL R42,
BOOSTCTL R57, PIMCTL R311, PREEMPTCTL R359, POWERCTL R378). -/
def ControlsOk (s : State) : Prop :=
  s.dispctl.toNat < 2 ∧
  field s.boostctl.toNat 31 16 = 0 ∧ field s.boostctl.toNat 3 1 = 0 ∧
  field s.pimctl.toNat 31 16 = 0 ∧ field s.pimctl.toNat 7 3 = 0 ∧ field s.pimctl.toNat 15 8 ≠ 0 ∧
  field s.pimctl.toNat 1 0 ≠ 3 ∧
  field s.preemptctl.toNat 31 4 = 0 ∧ field s.preemptctl.toNat 1 1 = 0 ∧
  field s.powerctl.toNat 15 1 = 0 ∧ 900 ≤ field s.powerctl.toNat 31 16 ∧ field s.powerctl.toNat 31 16 ≤ 1800

/-- The module level stays from 0.6 GHz to 2.1 GHz in units of 25 MHz, and pacing from none to one sixteenth (R379). -/
def PowerOk (s : State) : Prop := 24 ≤ s.power.level ∧ s.power.level ≤ 84 ∧ s.power.pacing ≤ 4

/-- A safe state. -/
def Safe (s : State) : Prop := StoresOk s ∧ ControlsOk s ∧ PowerOk s

end Sys2Proof.Safety
end

