-- ==== Sys2Proof/Certificates/Slice0/Obligations.lean ====
section
/-! DEFINITION. The statements about the machine: results, completion and frames of every instruction and event, exceptions,
decoding, reset, and what every step keeps. -/

namespace Sys2Proof.Spec

open Sys2Proof.Machine

/-! ### The words the statements use -/

/-- `s` with warp `j` of team `t` left as `w`: nothing else differs, but that what the warp has learnt of other agents' writes
to its lines (R195) is kept. -/
def onlyWarp (s : State) (t : Team) (j : Nat) (w : Warp) : State :=
  s.updWarp t.uid j fun x => { w with watched := x.watched }

/-- The instruction completes: it leaves warp `j` of team `t` as `w` past the word, and nothing else of the state changes. -/
def leaves (i : Instr) (s : State) (t : Team) (j : Nat) (w : Warp) : Prop :=
  exec i s = .next (onlyWarp s t j w.advance)

/-- The instruction completes after the state has become `s1`: what it read on the way, its walks and its fetches. -/
def leavesOn (i : Instr) (s s1 : State) (t : Team) (j : Nat) (w : Warp) : Prop :=
  exec i s = .next (onlyWarp s1 t j w.advance)

/-- The instruction completes and sets the PC itself: it leaves warp `j` of team `t` as `w`, and nothing else changes. -/
def moves (i : Instr) (s : State) (t : Team) (j : Nat) (w : Warp) : Prop := exec i s = .next (onlyWarp s t j w)

/-- The instruction raises a fault: the warp, as `w`, is suspended with its record (R350). -/
def raises (i : Instr) (s : State) (t : Team) (j : Nat) (w : Warp) (x : Trouble) : Prop :=
  exec i s = .next (s.suspend t j w x)

/-- The instruction raises a fault after the state has become `s1`. -/
def raisesOn (i : Instr) (s s1 : State) (t : Team) (j : Nat) (w : Warp) (x : Trouble) : Prop :=
  exec i s = .next (s1.suspend t j w x)

/-- A binary operation at every width. -/
abbrev BinOp := (n : Nat) → BitVec n → BitVec n → BitVec n
/-- A compare at every width. -/
abbrev CmpOp := (n : Nat) → BitVec n → BitVec n → Bool

/-- The word at the PC is the last of its clause, whose header asks the warp to yield (R67). -/
def ends (w : Warp) : Bool :=
  match w.clause with
  | some h => h.yield && decide (h.count ≤ w.idx + 1)
  | none => false

/-- The warp stands at header `a`, no word of its clause begun; a YIELD of the clause it leaves after its last word takes effect. -/
def jump (w : Warp) (a : DWord) : Warp := { w with hdr := a, idx := 0, clause := none, yielded := w.yielded || ends w }

/-- The warp blocked at its word with a status; a YIELD of the clause whose last word it is takes effect. -/
def stops (w : Warp) (st : WStatus) : Warp := { w with status := st, yielded := w.yielded || ends w }

/-- What the instruction reports of a read it makes itself that answers `e`: a data fault is a deferred one that names the instruction
in OPADDR and PROG (R349, R350, R356). -/
def ofRead (w : Warp) (e : FaultCode × Nat) : Trouble :=
  if e.1 = .integrity ∨ e.1 = .uncorr then
    { code := e.1, addr := e.2, opaddr := w.hdr.toNat, prog := w.idx, deferred := true }
  else { code := e.1, addr := e.2 }

/-- What the instruction reports of a poisoned register (R181): the mark's fault and address, with the load's header and index in
OPADDR and PROG. -/
def ofMark (l : Nat) (p : Poison) : Trouble :=
  { code := if p.fault = .integrity then .integrity else .uncorr, lane := l, addr := p.addr, opaddr := p.hdr.toNat,
    prog := p.idx, deferred := true }

/-- `p` is the poison mark that reading the registers in the lanes of `m` meets: the lowest lane's, and of its registers the
first's. -/
def firstMark (w : Warp) (regs : List Nat) (m : LaneMask) (l : Nat) (p : Poison) : Prop :=
  l < 32 ∧ m.getLsbD l = true ∧ (∀ i < l, m.getLsbD i = true → ∀ r ∈ regs, KMap.find w.poison (vkey r i) = none) ∧
    ∃ pre r post, regs = pre ++ r :: post ∧ KMap.find w.poison (vkey r l) = some p ∧
      ∀ q ∈ pre, KMap.find w.poison (vkey q l) = none

/-- Warp `j` of `t` sees at issue, in `s`, its team as `q` and its world's seeds as `sg`; the state is then `s0` (R138, R176, R201).
`stack`: whether the instruction reads ASBASE, ASLIMIT and ASTOP. -/
def sees (s : State) (t : Team) (j : Nat) (stack : Bool) (q : Team) (sg : Sparse Word) (s0 : State) : Prop :=
  s.seenFor t j stack = (q, sg, s0)

/-- No `mark` of the team is outstanding. -/
def noMarks (s : State) (t : Team) : Prop := ∀ o ∈ s.ops, o.team = t.uid → ∀ b, o.kind ≠ .mark b

/-- 1 or 0. -/
def flag (b : Bool) : Word := if b then 1 else 0

/-! ### Scalar instructions (R80, R143) -/

/-- S-format operations with a 64-bit form. -/
def scalarWide : List ((Nat → Nat → Nat → Bool → Instr) × BinOp) :=
  [(.sAdd, fun _ a b => a + b), (.sSub, fun _ a b => a - b), (.sAnd, fun _ a b => a &&& b), (.sOr, fun _ a b => a ||| b),
   (.sXor, fun _ a b => a ^^^ b), (.sShl, fun n a b => a <<< (b.toNat % n)), (.sShr, fun n a b => a >>> (b.toNat % n)),
   (.sSra, fun n a b => a.sshiftRight (b.toNat % n))]

/-- Operations that S has with 32 bits only, with what they compute. -/
def scalarNarrow : List ((Nat → Nat → Nat → Instr) × (Word → Word → Word)) :=
  [(.sMul, fun a b => a * b), (.sMulhiI32, fun a b => BitVec.ofInt 32 (a.toInt * b.toInt / 2 ^ 32)),
   (.sMulhiN32, fun a b => BitVec.ofNat 32 (a.toNat * b.toNat / 2 ^ 32)),
   (.sMinI32, fun a b => if a.toInt < b.toInt then a else b), (.sMaxI32, fun a b => if a.toInt < b.toInt then b else a),
   (.sMinN32, fun a b => if a.toNat < b.toNat then a else b), (.sMaxN32, fun a b => if a.toNat < b.toNat then b else a)]

/-- S-format compares. -/
def scalarCompares : List ((Nat → Nat → Nat → Bool → Instr) × CmpOp) :=
  [(.sCmpEq, fun _ a b => a == b), (.sCmpNe, fun _ a b => a != b),
   (.sCmpLtI32, fun _ a b => decide (a.toInt < b.toInt)), (.sCmpLeI32, fun _ a b => decide (a.toInt ≤ b.toInt)),
   (.sCmpGtI32, fun _ a b => decide (b.toInt < a.toInt)), (.sCmpGeI32, fun _ a b => decide (b.toInt ≤ a.toInt)),
   (.sCmpLtN32, fun _ a b => decide (a.toNat < b.toNat)), (.sCmpLeN32, fun _ a b => decide (a.toNat ≤ b.toNat)),
   (.sCmpGtN32, fun _ a b => decide (b.toNat < a.toNat)), (.sCmpGeN32, fun _ a b => decide (b.toNat ≤ a.toNat))]

/-- SI-format operations: any immediate. -/
def scalarImm : List ((Nat → Nat → Int → Instr) × (Word → Word → Word)) :=
  [(.siAdd, fun a b => a + b), (.siSub, fun a b => a - b), (.siMul, fun a b => a * b),
   (.siMulhiI32, fun a b => BitVec.ofInt 32 (a.toInt * b.toInt / 2 ^ 32)),
   (.siMulhiN32, fun a b => BitVec.ofNat 32 (a.toNat * b.toNat / 2 ^ 32)),
   (.siAnd, fun a b => a &&& b), (.siOr, fun a b => a ||| b), (.siXor, fun a b => a ^^^ b),
   (.siMinI32, fun a b => if a.toInt < b.toInt then a else b), (.siMaxI32, fun a b => if a.toInt < b.toInt then b else a),
   (.siMinN32, fun a b => if a.toNat < b.toNat then a else b), (.siMaxN32, fun a b => if a.toNat < b.toNat then b else a)]

/-- SI-format shifts. -/
def scalarImmShifts : List ((Nat → Nat → Int → Instr) × (Word → Nat → Word)) :=
  [(.siShl, fun a n => a <<< n), (.siShr, fun a n => a >>> n), (.siSra, fun a n => a.sshiftRight n)]

/-- SI-format compares. -/
def scalarImmCompares : List ((Nat → Nat → Int → Instr) × (Word → Word → Bool)) :=
  [(.siCmpEq, fun a b => a == b), (.siCmpNe, fun a b => a != b),
   (.siCmpLtI32, fun a b => decide (a.toInt < b.toInt)), (.siCmpLeI32, fun a b => decide (a.toInt ≤ b.toInt)),
   (.siCmpGtI32, fun a b => decide (b.toInt < a.toInt)), (.siCmpGeI32, fun a b => decide (b.toInt ≤ a.toInt)),
   (.siCmpLtN32, fun a b => decide (a.toNat < b.toNat)), (.siCmpLeN32, fun a b => decide (a.toNat ≤ b.toNat)),
   (.siCmpGtN32, fun a b => decide (b.toNat < a.toNat)), (.siCmpGeN32, fun a b => decide (b.toNat ≤ a.toNat))]

/-! ### Vector integer instructions (R83, R84, R156 to R158) -/

/-- Two-source 32-bit vector operations. -/
def vectorOps : List ((Nat → Nat → Nat → Instr) × (Word → Word → Word)) :=
  [(.vAdd, fun a b => a + b), (.vSub, fun a b => a - b), (.vMul, fun a b => a * b),
   (.vMulhiI32, fun a b => BitVec.ofInt 32 (a.toInt * b.toInt / 2 ^ 32)),
   (.vMulhiN32, fun a b => BitVec.ofNat 32 (a.toNat * b.toNat / 2 ^ 32)),
   (.vMinI32, fun a b => if a.toInt < b.toInt then a else b), (.vMaxI32, fun a b => if a.toInt < b.toInt then b else a),
   (.vMinN32, fun a b => if a.toNat < b.toNat then a else b), (.vMaxN32, fun a b => if a.toNat < b.toNat then b else a),
   (.vAnd, fun a b => a &&& b), (.vOr, fun a b => a ||| b), (.vXor, fun a b => a ^^^ b),
   (.vShl, fun a b => a <<< (b.toNat % 32)), (.vShr, fun a b => a >>> (b.toNat % 32)),
   (.vSra, fun a b => a.sshiftRight (b.toNat % 32)),
   (.vAddSatI32, fun a b => BitVec.ofInt 32 (max (-2147483648) (min (a.toInt + b.toInt) 2147483647))),
   (.vSubSatI32, fun a b => BitVec.ofInt 32 (max (-2147483648) (min (a.toInt - b.toInt) 2147483647)))]

/-- One-source 32-bit vector operations. -/
def vectorUnary : List ((Nat → Nat → Instr) × (Word → Word)) :=
  [(.vMov, fun a => a), (.vAbsI32, fun a => if a.toInt < 0 then -a else a),
   (.vPopc, fun a => BitVec.ofNat 32 ((List.range 32).filter fun i => a.getLsbD i).length),
   (.vClz, fun a => BitVec.ofNat 32 (if a = 0 then 32 else 31 - Nat.log2 a.toNat))]

/-- Vector operations with an immediate: any immediate. -/
def vectorImm : List ((Nat → Nat → Int → Instr) × (Word → Word → Word)) :=
  [(.viAdd, fun a b => a + b), (.viSub, fun a b => a - b), (.viMul, fun a b => a * b),
   (.viMulhiI32, fun a b => BitVec.ofInt 32 (a.toInt * b.toInt / 2 ^ 32)),
   (.viMulhiN32, fun a b => BitVec.ofNat 32 (a.toNat * b.toNat / 2 ^ 32)),
   (.viMinI32, fun a b => if a.toInt < b.toInt then a else b), (.viMaxI32, fun a b => if a.toInt < b.toInt then b else a),
   (.viMinN32, fun a b => if a.toNat < b.toNat then a else b), (.viMaxN32, fun a b => if a.toNat < b.toNat then b else a),
   (.viAnd, fun a b => a &&& b), (.viOr, fun a b => a ||| b), (.viXor, fun a b => a ^^^ b)]

/-- Vector shifts by an immediate. -/
def vectorImmShifts : List ((Nat → Nat → Int → Instr) × (Word → Nat → Word)) :=
  [(.viShl, fun a n => a <<< n), (.viShr, fun a n => a >>> n), (.viSra, fun a n => a.sshiftRight n)]

/-- 64-bit vector operations on pairs. -/
def vector64 : List ((Nat → Nat → Nat → Instr) × (DWord → DWord → DWord)) :=
  [(.v64Add, fun a b => a + b), (.v64Sub, fun a b => a - b), (.v64Mul, fun a b => a * b),
   (.v64MinI64, fun a b => if a.toInt < b.toInt then a else b), (.v64MaxI64, fun a b => if a.toInt < b.toInt then b else a),
   (.v64MinN64, fun a b => if a.toNat < b.toNat then a else b), (.v64MaxN64, fun a b => if a.toNat < b.toNat then b else a),
   (.v64And, fun a b => a &&& b), (.v64Or, fun a b => a ||| b), (.v64Xor, fun a b => a ^^^ b)]

/-- 64-bit shifts by a 32-bit register. -/
def vector64Shifts : List ((Nat → Nat → Nat → Instr) × (DWord → Nat → DWord)) :=
  [(.v64Shl, fun a n => a <<< n), (.v64Shr, fun a n => a >>> n), (.v64Sra, fun a n => a.sshiftRight n)]

/-- Products of 32-bit registers in a pair. -/
def vectorWiden : List ((Nat → Nat → Nat → Instr) × (Word → Word → DWord)) :=
  [(.v64MulWideI32, fun a b => BitVec.ofInt 64 (a.toInt * b.toInt)),
   (.v64MulWideN32, fun a b => BitVec.ofNat 64 (a.toNat * b.toNat))]

/-- Counts over a pair. -/
def vector64Counts : List ((Nat → Nat → Instr) × (DWord → Word)) :=
  [(.v64Popc, fun a => BitVec.ofNat 32 ((List.range 64).filter fun i => a.getLsbD i).length),
   (.v64Clz, fun a => BitVec.ofNat 32 (if a = 0 then 64 else 63 - Nat.log2 a.toNat))]

/-- Vector compares, by the relation on the operands read as the type says. -/
def vectorCompares : List ((Nat → Nat → Nat → CmpTy → Instr) × (Int → Int → Bool)) :=
  [(.vCmpEq, fun x y => decide (x = y)), (.vCmpNe, fun x y => decide (x ≠ y)), (.vCmpLt, fun x y => decide (x < y)),
   (.vCmpLe, fun x y => decide (x ≤ y)), (.vCmpGt, fun x y => decide (y < x)), (.vCmpGe, fun x y => decide (y ≤ x))]

/-- An operand of a vector compare: one register or a pair, signed or not. -/
def cmpOperand (w : Warp) (ty : CmpTy) (r l : Nat) : Int :=
  match ty with
  | .i32 => (w.vget r l).toInt
  | .n32 => (w.vget r l).toNat
  | .i64 => (w.vget64 r l).toInt
  | .n64 => (w.vget64 r l).toNat

/-- The registers of a compare's operand, and their legality. -/
def cmpRegs (ty : CmpTy) (r : Nat) : List Nat :=
  match ty with
  | .i32 | .n32 => [r]
  | .i64 | .n64 => [r, r + 1]
def cmpLegal (ty : CmpTy) (t : Team) (r : Nat) : Prop :=
  match ty with
  | .i32 | .n32 => r < t.nregs
  | .i64 | .n64 => r % 2 = 0 ∧ r + 1 < t.nregs

/-- A register, or a pair, that a team has. -/
def has (t : Team) (r : Nat) : Prop := r < t.nregs
def hasPair (t : Team) (r : Nat) : Prop := r % 2 = 0 ∧ r + 1 < t.nregs

/-- Each active lane of warp `w` has been given 32-bit results in register `d`; nothing else of the warp differs but the
poison marks of the lanes written. -/
def laneResult (w w' : Warp) (d : Nat) (f : Nat → Word) : Prop :=
  (∀ l, l < 32 → w.active.getLsbD l = true → w'.vget d l = f l ∧ KMap.find w'.poison (vkey d l) = none) ∧
  (∀ r l, l < 32 → (r ≠ d ∨ w.active.getLsbD l = false) →
    w'.vget r l = w.vget r l ∧ KMap.find w'.poison (vkey r l) = KMap.find w.poison (vkey r l)) ∧
  w' = { w with vregs := w'.vregs, poison := w'.poison }

/-- The same for 64-bit results in the pair `d`. -/
def pairResult (w w' : Warp) (d : Nat) (f : Nat → DWord) : Prop :=
  (∀ l, l < 32 → w.active.getLsbD l = true → w'.vget64 d l = f l ∧ KMap.find w'.poison (vkey d l) = none ∧
    KMap.find w'.poison (vkey (d + 1) l) = none) ∧
  (∀ r l, l < 32 → ((r ≠ d ∧ r ≠ d + 1) ∨ w.active.getLsbD l = false) →
    w'.vget r l = w.vget r l ∧ KMap.find w'.poison (vkey r l) = KMap.find w.poison (vkey r l)) ∧
  w' = { w with vregs := w'.vregs, poison := w'.poison }

/-- Each active lane of predicate `p` has been given a bit; p7 is not written; nothing else of the warp differs but FPSTAT,
into which the flags `fl` are merged. -/
def predResult (w w' : Warp) (p : Nat) (f : Nat → Bool) (fl : Flags) : Prop :=
  (∀ l, l < 32 → w.active.getLsbD l = true → p ≠ 7 → (w'.pget p).getLsbD l = f l) ∧
  (∀ q l, l < 32 → (q ≠ p ∨ w.active.getLsbD l = false) → (w'.pget q).getLsbD l = (w.pget q).getLsbD l) ∧
  w' = { w with preds := w'.preds, fpstat := w.fpstat ||| fl }

end Sys2Proof.Spec

open Sys2Proof Sys2Proof.Machine Sys2Proof.Spec

/-- R143: the scalar operations on registers write the result the manual gives to their destination register (under `.w`, on
even pairs) and change nothing else; s63 as a destination discards the result (R76), as `sset` says. -/
def Sys2Proof.Spec.ScalarOps : Prop :=
  (∀ p ∈ scalarWide, ∀ s t j w d a b, s.curWarp = some (t, j, w) →
    leaves (p.1 d a b false) s t j (w.sset d (p.2 32 (w.sget a) (w.sget b))) ∧
    (d % 2 = 0 → a % 2 = 0 → b % 2 = 0 →
      leaves (p.1 d a b true) s t j (w.sset64 d (p.2 64 (w.sget64 a) (w.sget64 b))))) ∧
  (∀ p ∈ scalarNarrow, ∀ s t j w d a b, s.curWarp = some (t, j, w) →
    leaves (p.1 d a b) s t j (w.sset d (p.2 (w.sget a) (w.sget b)))) ∧
  (∀ s t j w d a, s.curWarp = some (t, j, w) →
    leaves (.sMovs d a false) s t j (w.sset d (w.sget a)) ∧
    (d % 2 = 0 → a % 2 = 0 → leaves (.sMovs d a true) s t j (w.sset64 d (w.sget64 a))))

/-- R143: scalar compares write 1 or 0 to one register. -/
def Sys2Proof.Spec.ScalarCompares : Prop :=
  ∀ p ∈ scalarCompares, ∀ s t j w d a b, s.curWarp = some (t, j, w) →
    leaves (p.1 d a b false) s t j (w.sset d (flag (p.2 32 (w.sget a) (w.sget b)))) ∧
    (a % 2 = 0 → b % 2 = 0 → leaves (p.1 d a b true) s t j (w.sset d (flag (p.2 64 (w.sget64 a) (w.sget64 b)))))

/-- R80, R143: the immediate forms, with the immediate sign-extended; shift amounts from 0 to 31. -/
def Sys2Proof.Spec.ScalarImmediates : Prop :=
  (∀ p ∈ scalarImm, ∀ s t j w d a imm, s.curWarp = some (t, j, w) →
    leaves (p.1 d a imm) s t j (w.sset d (p.2 (w.sget a) (BitVec.ofInt 32 imm)))) ∧
  (∀ p ∈ scalarImmShifts, ∀ s t j w d a (n : Nat), s.curWarp = some (t, j, w) → n ≤ 31 →
    leaves (p.1 d a n) s t j (w.sset d (p.2 (w.sget a) n))) ∧
  (∀ p ∈ scalarImmCompares, ∀ s t j w d a imm, s.curWarp = some (t, j, w) →
    leaves (p.1 d a imm) s t j (w.sset d (flag (p.2 (w.sget a) (BitVec.ofInt 32 imm))))) ∧
  (∀ s t j w d imm, s.curWarp = some (t, j, w) → leaves (.siMovs d imm) s t j (w.sset d (BitVec.ofInt 32 imm))) ∧
  (∀ s t j w d a imm, s.curWarp = some (t, j, w) → d % 2 = 0 → a % 2 = 0 →
    leaves (.siAddI64 d a imm) s t j (w.sset64 d (w.sget64 a + BitVec.ofInt 64 imm)))

/-- R7, R76: s63 reads zero, and a write to it changes nothing; another scalar register holds what was last written to it. -/
def Sys2Proof.Spec.ScalarRegisters : Prop :=
  (∀ (w : Warp), w.sget 63 = 0) ∧ (∀ (w : Warp) v, w.sset 63 v = w) ∧
  (∀ (w : Warp) r q v, r ≠ 63 → (w.sset r v).sget q = if q = r then v else w.sget q)

/-- R80, R76, R79: an odd register of a pair and a shift amount outside 0 to 31 are F_ILLEGAL, with nothing done. -/
def Sys2Proof.Spec.ScalarIllegal : Prop :=
  (∀ p ∈ scalarWide, ∀ s t j w d a b, s.curWarp = some (t, j, w) → d % 2 = 1 ∨ a % 2 = 1 ∨ b % 2 = 1 →
    raises (p.1 d a b true) s t j w { code := .illegal }) ∧
  (∀ p ∈ scalarCompares, ∀ s t j w d a b, s.curWarp = some (t, j, w) → a % 2 = 1 ∨ b % 2 = 1 →
    raises (p.1 d a b true) s t j w { code := .illegal }) ∧
  (∀ s t j w d a imm, s.curWarp = some (t, j, w) → d % 2 = 1 ∨ a % 2 = 1 →
    raises (.sMovs d a true) s t j w { code := .illegal } ∧ raises (.siAddI64 d a imm) s t j w { code := .illegal }) ∧
  (∀ s t j w d off, s.curWarp = some (t, j, w) → d % 2 = 1 → raises (.ldlB64 d off) s t j w { code := .illegal }) ∧
  (∀ p ∈ scalarImmShifts, ∀ s t j w d a imm, s.curWarp = some (t, j, w) → imm < 0 ∨ 31 < imm →
    raises (p.1 d a imm) s t j w { code := .illegal })

/-- R83, R156: the 32-bit vector operations give each active lane its result in the destination and change nothing else. -/
def Sys2Proof.Spec.VectorOps : Prop :=
  (∀ p ∈ vectorOps, ∀ s t j w d a b, s.curWarp = some (t, j, w) → has t d → has t a → has t b →
    w.poisoned [a, b] w.active = none →
    ∃ w', leaves (p.1 d a b) s t j w' ∧ laneResult w w' d fun l => p.2 (w.vget a l) (w.vget b l)) ∧
  (∀ p ∈ vectorUnary, ∀ s t j w d a, s.curWarp = some (t, j, w) → has t d → has t a → w.poisoned [a] w.active = none →
    ∃ w', leaves (p.1 d a) s t j w' ∧ laneResult w w' d fun l => p.2 (w.vget a l)) ∧
  (∀ s t j w d a b, s.curWarp = some (t, j, w) → has t d → has t a → has t b → w.poisoned [a, b, d] w.active = none →
    ∃ w', leaves (.vMad d a b) s t j w' ∧ laneResult w w' d fun l => w.vget a l * w.vget b l + w.vget d l)

/-- R84, R157: the vector operations with an immediate. -/
def Sys2Proof.Spec.VectorImmediates : Prop :=
  (∀ p ∈ vectorImm, ∀ s t j w d a imm, s.curWarp = some (t, j, w) → has t d → has t a → w.poisoned [a] w.active = none →
    ∃ w', leaves (p.1 d a imm) s t j w' ∧ laneResult w w' d fun l => p.2 (w.vget a l) (BitVec.ofInt 32 imm)) ∧
  (∀ p ∈ vectorImmShifts, ∀ s t j w d a (n : Nat), s.curWarp = some (t, j, w) → has t d → has t a → n ≤ 31 →
    w.poisoned [a] w.active = none →
    ∃ w', leaves (p.1 d a n) s t j w' ∧ laneResult w w' d fun l => p.2 (w.vget a l) n) ∧
  (∀ s t j w d imm, s.curWarp = some (t, j, w) → has t d →
    ∃ w', leaves (.viMov d imm) s t j w' ∧ laneResult w w' d fun _ => BitVec.ofInt 32 imm)

/-- R156, R157: the 64-bit vector operations, shifts by a register's low 6 bits, widening products and counts. -/
def Obligations.Vector64Ops : Prop :=
  (∀ p ∈ vector64, ∀ s t j w d a b, s.curWarp = some (t, j, w) → hasPair t d → hasPair t a → hasPair t b →
    w.poisoned [a, a + 1, b, b + 1] w.active = none →
    ∃ w', leaves (p.1 d a b) s t j w' ∧ pairResult w w' d fun l => p.2 (w.vget64 a l) (w.vget64 b l)) ∧
  (∀ p ∈ vector64Shifts, ∀ s t j w d a b, s.curWarp = some (t, j, w) → hasPair t d → hasPair t a → has t b →
    w.poisoned [a, a + 1, b] w.active = none →
    ∃ w', leaves (p.1 d a b) s t j w' ∧ pairResult w w' d fun l => p.2 (w.vget64 a l) ((w.vget b l).toNat % 64)) ∧
  (∀ p ∈ vectorWiden, ∀ s t j w d a b, s.curWarp = some (t, j, w) → hasPair t d → has t a → has t b →
    w.poisoned [a, b] w.active = none →
    ∃ w', leaves (p.1 d a b) s t j w' ∧ pairResult w w' d fun l => p.2 (w.vget a l) (w.vget b l)) ∧
  (∀ p ∈ vector64Counts, ∀ s t j w d a, s.curWarp = some (t, j, w) → has t d → hasPair t a →
    w.poisoned [a, a + 1] w.active = none →
    ∃ w', leaves (p.1 d a) s t j w' ∧ laneResult w w' d fun l => p.2 (w.vget64 a l))

/-- R158: vector compares give each active lane of the destination predicate its bit. -/
def Sys2Proof.Spec.VectorCompares : Prop :=
  ∀ p ∈ vectorCompares, ∀ s t j w d a b ty, s.curWarp = some (t, j, w) → cmpLegal ty t a → cmpLegal ty t b →
    w.poisoned (cmpRegs ty a ++ cmpRegs ty b) w.active = none →
    ∃ w', leaves (p.1 d a b ty) s t j w' ∧
      predResult w w' d (fun l => p.2 (cmpOperand w ty a l) (cmpOperand w ty b l)) 0

namespace Sys2Proof.Spec

/-! ### Exact values, rotation and delivery (R105 to R133) -/

/-- `round_rne` of an exact value to a format, the operations of the manual's formulas on exact values, and an FP32 number's value. -/
def rnd (f : Fmt) (a : XR) : XR := f.val false (a.round f .rne false).1
def plus (a b : XR) : XR := (XR.add .rne a b).1
def minus (a b : XR) : XR := plus a b.neg
def times (a b : XR) : XR := (XR.mul a b).1
def over' (a b : XR) : XR := (XR.div a b).1
def f32 (n : Nat) : XR := fp32.val false n
def two (e : Int) : XR := XR.scale2 e (.fin false 1 1)

/-- A fraction has a denominator. -/
def proper : XR → Prop
  | .fin _ _ d => 0 < d
  | _ => True

/-- A finite value as a rational number. -/
def rat : XR → Rat
  | .fin neg n d => (signedNum neg n : Rat) / d
  | _ => 0
def mag (r : Rat) : Rat := if r < 0 then -r else r

/-! #### The rotation (R130, R131, R133) -/

/-- The generator after `i` steps, and `lfsr_sign`. -/
def lfsr (st : Word) : Nat → Word
  | 0 => st
  | i + 1 => let p := lfsr st i; if p.getLsbD 0 = true then (p >>> 1) ^^^ 0x8020_0003#32 else p >>> 1
def lfsrSign (seed : Word) (bi i : Nat) : Bool :=
  let st := seed ^^^ BitVec.ofNat 32 (bi * 0x9E37_79B1)
  (lfsr (if st = 0 then 1 else st) i).getLsbD 0
def signed (seed : Word) (bi : Nat) (a : List Int) : List Int :=
  (List.range a.length).map fun i => if lfsrSign seed bi i = true then -a.getD i 0 else a.getD i 0

/-- `e` is ⌊log2⌋ of the largest magnitude. -/
def topExp (xs : List XR) (e : Int) : Prop :=
  (∃ x ∈ xs, XR.le (two e) x.abs = true) ∧ ∀ x ∈ xs, XR.lt x.abs (two (e + 1)) = true

/-- `butterflies`: the lists after each of `k` stages. -/
def stages (k : Nat) (b : Nat → List Int) : Prop :=
  ∀ s < k, (b (s + 1)).length = (b s).length ∧ ∀ i < (b s).length, i / 2 ^ s % 2 = 0 →
    (b (s + 1)).getD i 0 = (b s).getD i 0 + (b s).getD (i + 2 ^ s) 0 ∧
    (b (s + 1)).getD (i + 2 ^ s) 0 = (b s).getD i 0 - (b s).getD (i + 2 ^ s) 0

/-- `gavotte_fwd` or `gavotte_inv` of a block of 2^k values, and its flags. -/
def turned (fwd : Bool) (xs : List XR) (k : Nat) (seed : Word) (bi W : Nat) (r : List XR × Flags) : Prop :=
  ((∃ x ∈ xs, x.isFin = false) → r = (xs.map fun _ => XR.nan, flagNV)) ∧
  ((∀ x ∈ xs, x.isZero = true) → r = (xs.map fun _ => XR.fin false 0 1, 0)) ∧
  ((∀ x ∈ xs, x.isFin = true) → (∃ x ∈ xs, x.isZero = false) → ∃ (e : Int) (a c : List Int) (b : Nat → List Int), topExp xs e ∧
    a = xs.map (fun x => (XR.scale2 (W - 2 - e) x).toInt .rtz) ∧ b 0 = (if fwd = true then signed seed bi a else a) ∧ stages k b ∧
    c = (if fwd = true then b k else signed seed bi (b k)) ∧
    r.1 = c.map (fun v => XR.scale2 (e - W + 2) (XR.ofInt ((XR.ofFrac v (2 ^ (k / 2))).toInt .rne))) ∧
    ((∃ x ∈ xs, (XR.scale2 (W - 2 - e) x).isInt = false) ∨ (∃ v ∈ c, v % (2 ^ (k / 2) : Nat) ≠ 0) → r.2 = flagNX) ∧
    ((∀ x ∈ xs, (XR.scale2 (W - 2 - e) x).isInt = true) → (∀ v ∈ c, v % (2 ^ (k / 2) : Nat) = 0) → r.2 = 0))

/-- Element `e` of a row whose values are `v`, rotated in blocks of `n` from block index `bi` on. -/
def rotated (fwd : Bool) (v : Nat → XR) (n bi : Nat) (seed : Word) (W e : Nat) : XR :=
  let blk := (List.range n).map fun i => v (e / n * n + i)
  (if fwd = true then gavotteFwd blk seed (bi + e / n) W else gavotteInv blk seed (bi + e / n) W).1.getD (e % n) .nan

/-! #### Delivery (R123, R132) -/

/-- The bits of an output rounded to a format: a zero is +0. -/
def floatBits (f : Fmt) (y : XR) : Nat :=
  let b := (y.round f .rne false).1
  if b % f.sign = 0 then 0 else b

/-- 2^u as FP32 bits. -/
def scaleBits (u : Int) : Nat := if u < -126 then 2 ^ (u + 149).toNat else (u + 127).toNat * 2 ^ 23

/-- `a` is the largest magnitude. -/
def largest (xs : List XR) (a : Rat) : Prop := (∃ x ∈ xs, mag (rat x) = a) ∧ ∀ x ∈ xs, mag (rat x) ≤ a

/-- How far `t` lies from code `k`'s value. -/
def codeGap (t : Rat) (k : Nat) : Rat := mag (t - (nq4Code k : Rat) / 128)

/-- The elements of NQ4 block `b` of a superblock. -/
def blockOf (xs : List XR) (b : Nat) : List XR := (xs.drop (64 * b)).take 64

end Sys2Proof.Spec
namespace Sys2Proof.Spec

/-! ### Floating point, conversions and rotations in registers (R159, R161 to R167) -/

/-- `w` with the flags of all active lanes' results merged into FPSTAT (R113). -/
def withFlags (w w1 : Warp) (g : Nat → Flags) : Prop :=
  ∃ fl, (∀ k, fl.getLsbD k = true ↔ ∃ l < 32, w.active.getLsbD l = true ∧ (g l).getLsbD k = true) ∧
    w1 = { w with fpstat := w.fpstat ||| fl }

/-- Operands of one format: a register or a pair. -/
def fpHas (f64 : Bool) (t : Team) (r : Nat) : Prop := if f64 then hasPair t r else has t r
def fpOf (w : Warp) (f64 : Bool) (r l : Nat) : Nat := if f64 then (w.vget64 r l).toNat else (w.vget r l).toNat
def fpReads (f64 : Bool) (r : Nat) : List Nat := if f64 then [r, r + 1] else [r]

/-- Each active lane has its result in the destination (32 or 64 bits), and its flags are merged. -/
def fpResult (w w' : Warp) (f64 : Bool) (d : Nat) (f : Nat → Nat × Flags) : Prop :=
  ∃ w1, (if f64 then pairResult w w1 d fun l => BitVec.ofNat 64 (f l).1
      else laneResult w w1 d fun l => BitVec.ofNat 32 (f l).1) ∧
    withFlags w1 w' fun l => (f l).2

/-- Two-source operations, with their format's width. -/
def fpBinary : List ((Nat → Nat → Nat → Instr) × Bool × FpFun2) :=
  [(.vFaddF32, false, fadd), (.vFaddF64, true, fadd), (.vFsubF32, false, fsub), (.vFsubF64, true, fsub),
   (.vFmulF32, false, fmul), (.vFmulF64, true, fmul),
   (.vFminF32, false, fun f _ z a b => fminmax f z false a b), (.vFminF64, true, fun f _ z a b => fminmax f z false a b),
   (.vFmaxF32, false, fun f _ z a b => fminmax f z true a b), (.vFmaxF64, true, fun f _ z a b => fminmax f z true a b)]

/-- A special function's result: the exact value rounded once, NV for a signalling NaN (R117). -/
def rounded (g : XR → XR × Flags) (f : Fmt) (mode : Mode) (ftz : Bool) (a : Nat) : Nat × Flags :=
  let v := g (f.val ftz a)
  let r := v.1.round f mode ftz
  (r.1, (v.2 ||| r.2) ||| (if f.isSNaN a then flagNV else 0))

/-- One-source operations. -/
def fpUnary : List ((Nat → Nat → Instr) × Bool × (Fmt → Mode → Bool → Nat → Nat × Flags)) :=
  [(.vFabsF32, false, fun f _ _ a => (if f.isNaN a then f.qnan else a % f.sign, 0)),
   (.vFabsF64, true, fun f _ _ a => (if f.isNaN a then f.qnan else a % f.sign, 0)),
   (.vFnegF32, false, fun f _ _ a => (if f.isNaN a then f.qnan else (a + f.sign) % (2 * f.sign), 0)),
   (.vFnegF64, true, fun f _ _ a => (if f.isNaN a then f.qnan else (a + f.sign) % (2 * f.sign), 0)),
   (.vRcpF32, false, rounded spRcp), (.vRcpF64, true, rounded spRcp), (.vRsqF32, false, rounded spRsq),
   (.vRsqF64, true, rounded spRsq), (.vSqrtF32, false, rounded spSqrt), (.vSqrtF64, true, rounded spSqrt),
   (.vExp2F32, false, rounded spExp2), (.vLog2F32, false, rounded spLog2), (.vSinF32, false, rounded spSin),
   (.vCosF32, false, rounded spCos)]

/-- Compares, whether they are ordering relations, and the relation. -/
def fpCompares : List ((Nat → Nat → Nat → Bool → Instr) × Bool × (XR → XR → Bool)) :=
  [(.vFcmpEq, false, XR.eqv), (.vFcmpNe, false, fun x y => !XR.eqv x y), (.vFcmpLt, true, XR.lt), (.vFcmpLe, true, XR.le),
   (.vFcmpGt, true, fun x y => XR.lt y x), (.vFcmpGe, true, fun x y => XR.le y x),
   (.vFcmpNum, false, fun x y => !(x.isNaN || y.isNaN)), (.vFcmpNan, false, fun x y => x.isNaN || y.isNaN)]

/-- An operand of a conversion: the low bits of its register, or a pair. -/
def numOf (w : Warp) (ty : NumTy) (r l : Nat) : Nat :=
  if ty.bits = 64 then (w.vget64 r l).toNat else (w.vget r l).toNat % 2 ^ ty.bits
def numReads (ty : NumTy) (r : Nat) : List Nat := if ty.bits = 64 then [r, r + 1] else [r]
def numHas (ty : NumTy) (t : Team) (r : Nat) : Prop := if ty.bits = 64 then hasPair t r else has t r

/-- The register groups of a rotation of `g` registers a block, of which the operand takes `n`. -/
def groupHas (t : Team) (r g n : Nat) : Prop := r % g = 0 ∧ r + n ≤ t.nregs

/-- The fmt codes a rotation admits. -/
def vrotFmt (b : Blk) (f : RotFmt) : Prop :=
  f = .f32bf16 ∨ b ≠ .identity ∧ (f = .f32f32 ∨ f = .f32i8)
def virotFmt (b : Blk) (f : RotFmt) : Prop :=
  f = .bf16f32 ∨ b ≠ .identity ∧ (f = .f32f32 ∨ f = .i8f32)

/-- Elements of a block, and element `i` of block `k` of a register group, as register offset and lane (R164). -/
def blkLen : Blk → Nat
  | .identity => 1
  | .b16 => 16
  | .b64 => 64
  | .b256 => 256
def elemAt (b : Blk) (k i : Nat) : Nat × Nat := ((blkLen b * k + i) / 32, (blkLen b * k + i) % 32)
def blocksIn (b : Blk) : Nat := 32 * blkRegs b / blkLen b

/-- What a rotation gives block `k`: each element's bits, the bits of its scale where it has one, and its flags. -/
abbrev BlockResult := (Nat → Nat) × Option Nat × Flags

/-- A register of a rotation's source: an exited lane gives +0 (R165). -/
def rotIn (w : Warp) (a : Nat) (e : Nat × Nat) : Nat := if w.live.getLsbD e.2 = true then (w.vget (a + e.1) e.2).toNat else 0

/-- Values rounded to a format with a rotation's flags, each a +0 where it is zero. -/
def roundedBlock (f : Fmt) (r : List XR × Flags) : BlockResult :=
  (fun i => floatBits f (r.1.getD i .nan), none, r.2 ||| orFlags (r.1.map fun y => (y.round f .rne false).2))

/-- Block `k` of `vrot` (R165). -/
def vrotGives (w : Warp) (a : Nat) (b : Blk) (seed : Word) (fmt : RotFmt) (k : Nat) : BlockResult :=
  let bits := (List.range (blkLen b)).map fun i => rotIn w a (elemAt b k i)
  let r := gavotteFwd (bits.map f32) seed ((w.sget 62).toNat + k) 24
  let c := narrowI8 r.1
  if b = .identity then
    (fun i => ((f32 (bits.getD i 0)).round Machine.bf16 .rne false).1, none,
      snanFlag fp32 bits ||| orFlags (bits.map fun x => ((f32 x).round Machine.bf16 .rne false).2))
  else if fmt = .f32i8 then (fun i => (BitVec.ofInt 32 (c.1.getD i 0)).toNat, some c.2.1, r.2 ||| c.2.2)
  else roundedBlock (if fmt = .f32bf16 then Machine.bf16 else fp32) r

/-- Block `k` of `virot` (R166). -/
def virotGives (w : Warp) (a : Nat) (b : Blk) (seed : Word) (fmt : RotFmt) (k : Nat) : BlockResult :=
  let v := fun i => rotIn w a (elemAt b k i)
  let x := fun i =>
    if fmt = .bf16f32 then Machine.bf16.val false (v i % 2 ^ 16)
    else if fmt = .i8f32 then
      let sc := f32 (rotIn w (a + blkRegs b) (elemAt b k i))
      if sc.isFin = true then times (XR.ofInt (signExt 8 (v i))) sc else .nan
    else f32 (v i)
  if b = .identity then (fun i => ((x i).round fp32 .rne false).1, none, snanFlag Machine.bf16 [v 0 % 2 ^ 16])
  else roundedBlock fp32 (gavotteInv ((List.range (blkLen b)).map x) seed ((w.sget 62).toNat + k) 24)

/-- A rotation's results: each active lane of the `n` registers from `d` holds what its block gives, with no mark; other registers and
lanes keep theirs; FPSTAT gains the flags of the blocks with an active lane; nothing else differs. -/
def blockResult (w w' : Warp) (d n : Nat) (b : Blk) (out : Nat → BlockResult) : Prop :=
  (∀ k < blocksIn b, ∀ i < blkLen b, ∀ e, e = elemAt b k i → w.active.getLsbD e.2 = true →
    w'.vget (d + e.1) e.2 = BitVec.ofNat 32 ((out k).1 i) ∧ KMap.find w'.poison (vkey (d + e.1) e.2) = none ∧
    ∀ v, (out k).2.1 = some v → w'.vget (d + blkRegs b + e.1) e.2 = BitVec.ofNat 32 v ∧
      KMap.find w'.poison (vkey (d + blkRegs b + e.1) e.2) = none) ∧
  (∀ r l, l < 32 → (r < d ∨ d + n ≤ r ∨ w.active.getLsbD l = false) →
    w'.vget r l = w.vget r l ∧ KMap.find w'.poison (vkey r l) = KMap.find w.poison (vkey r l)) ∧
  (∃ fl : Flags, (∀ n, fl.getLsbD n = true ↔ ∃ k < blocksIn b, ((out k).2.2).getLsbD n = true ∧
      ∃ i < blkLen b, w.active.getLsbD (elemAt b k i).2 = true) ∧
    w' = { w with vregs := w'.vregs, poison := w'.poison, fpstat := w.fpstat ||| fl })

end Sys2Proof.Spec

/-- R161, R162, R113: floating-point arithmetic and the special functions give each active lane the exact result rounded as FPMODE
says, merge the lanes' flags into FPSTAT, and change nothing else. The model's own choices in it: log 11. -/
def Obligations.FloatingPoint : Prop :=
  (∀ p ∈ fpBinary, ∀ s t j w d a b, s.curWarp = some (t, j, w) → fpHas p.2.1 t d → fpHas p.2.1 t a → fpHas p.2.1 t b →
    w.poisoned (fpReads p.2.1 a ++ fpReads p.2.1 b) w.active = none →
    ∃ w', leaves (p.1 d a b) s t j w' ∧ fpResult w w' p.2.1 d fun l =>
      p.2.2 (if p.2.1 then fp64 else fp32) w.mode w.ftz (fpOf w p.2.1 a l) (fpOf w p.2.1 b l)) ∧
  (∀ p ∈ fpUnary, ∀ s t j w d a, s.curWarp = some (t, j, w) → fpHas p.2.1 t d → fpHas p.2.1 t a →
    w.poisoned (fpReads p.2.1 a) w.active = none →
    ∃ w', leaves (p.1 d a) s t j w' ∧ fpResult w w' p.2.1 d fun l =>
      p.2.2 (if p.2.1 then fp64 else fp32) w.mode w.ftz (fpOf w p.2.1 a l)) ∧
  (∀ (f64 : Bool) s t j w d a b, s.curWarp = some (t, j, w) → fpHas f64 t d → fpHas f64 t a → fpHas f64 t b →
    w.poisoned (fpReads f64 a ++ fpReads f64 b ++ fpReads f64 d) w.active = none →
    ∃ w', leaves (if f64 then .vFmaF64 d a b else .vFmaF32 d a b) s t j w' ∧ fpResult w w' f64 d fun l =>
      ffma (if f64 then fp64 else fp32) w.mode w.ftz (fpOf w f64 a l) (fpOf w f64 b l) (fpOf w f64 d l))

/-- R105, R108: rounding a value that the format holds gives it back, in every mode and without a flag. -/
def Obligations.RoundingExact : Prop :=
  ∀ f ∈ [bf16, fp32, fp64], ∀ (mode : Mode) (b : Nat), b < 2 * f.sign → f.isNaN b = false →
    (f.val false b).round f mode false = (b, 0)

/-- R84, R159: floating compares; NV for a signalling NaN, under an ordering relation for any NaN. -/
def Sys2Proof.Spec.FloatingCompares : Prop :=
  ∀ p ∈ fpCompares, ∀ s t j w d a b (f64 : Bool), s.curWarp = some (t, j, w) → fpHas f64 t a → fpHas f64 t b →
    w.poisoned (fpReads f64 a ++ fpReads f64 b) w.active = none →
    ∃ w' fl, leaves (p.1 d a b f64) s t j w' ∧
      predResult w w' d (fun l => p.2.2 ((fpFmt f64).val w.ftz (fpOf w f64 a l)) ((fpFmt f64).val w.ftz (fpOf w f64 b l))) fl ∧
      (∀ k, fl.getLsbD k = true ↔ k = 4 ∧ ∃ l < 32, w.active.getLsbD l = true ∧
        (((fpFmt f64).isSNaN (fpOf w f64 a l) ∨ (fpFmt f64).isSNaN (fpOf w f64 b l)) ∨
          p.2.1 ∧ ((fpFmt f64).isNaN (fpOf w f64 a l) ∨ (fpFmt f64).isNaN (fpOf w f64 b l))))

/-- R86, R116, R163: `cvt` converts each active lane's value; a combination R86 does not admit is F_ILLEGAL. -/
def Sys2Proof.Spec.Convert : Prop :=
  ∀ s t j w d a dt st rm sat, s.curWarp = some (t, j, w) →
    (cvtOk dt st rm sat = false → raises (.cvt d a dt st rm sat) s t j w { code := .illegal }) ∧
    (cvtOk dt st rm sat = true → numHas dt t d → numHas st t a → w.poisoned (numReads st a) w.active = none →
      ∃ w', leaves (.cvt d a dt st rm sat) s t j w' ∧ fpResult w w' (dt.bits = 64) d fun l =>
        let r := convert dt st (rm.mode w) sat w.ftz (numOf w st a l)
        (dt.place r.1, r.2))

/-- R106, R116: a conversion between integer types keeps the value modulo the destination's width, or, with sat to a type
no wider, clamps it. -/
def Sys2Proof.Spec.ConvertIntegers : Prop :=
  ∀ (dt st : NumTy) (mode : Mode) (sat ftz : Bool) (n : Nat), dt.isFloat = false → st.isFloat = false →
    (convert dt st mode sat ftz n).2 = 0 ∧
    (sat = false → ((convert dt st mode sat ftz n).1 : Int) = st.toInt n % 2 ^ dt.bits) ∧
    (sat = true → dt.bits ≤ st.bits → dt.toInt (convert dt st mode sat ftz n).1 = max dt.lo (min dt.hi (st.toInt n)))

/-- R164 to R167: `vrot` and `virot` transform the blocks of their register groups by Gavotte with the block index from s62
and the seed of the world's SG register as the warp sees it; a reserved fmt is F_ILLEGAL. -/
def Sys2Proof.Spec.RegisterRotations : Prop :=
  ∀ s t j w d a b sg fmt q seeds s0, s.curWarp = some (t, j, w) → sees s t j false q seeds s0 →
    (¬ vrotFmt b fmt → raisesOn (.vrot d a b sg fmt) s s0 t j w { code := .illegal }) ∧
    (¬ virotFmt b fmt → raisesOn (.virot d a b sg fmt) s s0 t j w { code := .illegal }) ∧
    (w.poisoned ((List.range (blkRegs b)).map (a + ·)) w.live = none →
      vrotFmt b fmt → groupHas t d (blkRegs b) (if fmt = .f32i8 then 2 * blkRegs b else blkRegs b) →
      groupHas t a (blkRegs b) (blkRegs b) →
      ∃ w', leavesOn (.vrot d a b sg fmt) s s0 t j w' ∧
        blockResult w w' d (if fmt = .f32i8 then 2 * blkRegs b else blkRegs b) b (vrotGives w a b (Sparse.get 0 seeds sg) fmt)) ∧
    (w.poisoned ((List.range (if fmt = .i8f32 then 2 * blkRegs b else blkRegs b)).map (a + ·)) w.live = none →
      virotFmt b fmt → groupHas t d (blkRegs b) (blkRegs b) →
      groupHas t a (blkRegs b) (if fmt = .i8f32 then 2 * blkRegs b else blkRegs b) →
      ∃ w', leavesOn (.virot d a b sg fmt) s s0 t j w' ∧
        blockResult w w' d (blkRegs b) b (virotGives w a b (Sparse.get 0 seeds sg) fmt))

namespace Sys2Proof.Spec

/-! ### Cross-lane instructions, select and predicates (R160, R168 to R174) -/

/-- Source lane of each `lx` mode for lane `l` and operand `c`. -/
def laneExchanges : List ((Nat → Nat → Nat → Bool → Nat → Instr) × (Nat → Nat → Int)) :=
  [(.lxAt, fun _ c => c), (.lxLo, fun l c => (l : Int) - c), (.lxHi, fun l c => (l : Int) + c),
   (.lxXor, fun l c => ((l ^^^ c : Nat) : Int))]

/-- Integer reductions: the step and the identity. -/
def reductions : List ((Nat → Nat → Nat → Instr) × (Word → Word → Word) × Word) :=
  [(.combAddI32, fun x y => x + y, 0),
   (.combMinI32, fun x y => if x.toInt < y.toInt then x else y, 0x7FFF_FFFF),
   (.combMaxI32, fun x y => if x.toInt < y.toInt then y else x, 0x8000_0000),
   (.combMinN32, fun x y => if x.toNat < y.toNat then x else y, 0xFFFF_FFFF),
   (.combMaxN32, fun x y => if x.toNat < y.toNat then y else x, 0),
   (.combAndB32, fun x y => x &&& y, 0xFFFF_FFFF), (.combOrB32, fun x y => x ||| y, 0), (.combXorB32, fun x y => x ^^^ y, 0)]

/-- The tree of `comb.add.f32` over 2^n positions from `p`, neighbours first, and its flags (R173). -/
def treeOf (mode : Mode) (ftz : Bool) : Nat → (Nat → Nat) → Nat × Flags
  | 0, p => (p 0, 0)
  | n + 1, p =>
    let x := treeOf mode ftz n p
    let y := treeOf mode ftz n fun i => p (i + 2 ^ n)
    let v := XR.add mode (fp32.val ftz x.1) (fp32.val ftz y.1)
    let r := v.1.round fp32 mode ftz
    (r.1, x.2 ||| y.2 ||| v.2 ||| r.2 ||| snanFlag fp32 [x.1, y.1])

/-- FP32 pattern `a` is at most `b`, −0 below +0. -/
def atMost (a b : Nat) : Prop := XR.lt (f32 a) (f32 b) = true ∨ (XR.eqv (f32 a) (f32 b) = true ∧ (fp32.neg a = true ∨ fp32.neg b = false))

/-- An FP32 input under FTZ. -/
def flushed (ftz : Bool) (a : Nat) : Nat := if ftz = true ∧ a % 2 ^ 31 < 2 ^ 23 then a / 2 ^ 31 * 2 ^ 31 else a

/-- `v`, with flags `fl`, is the least or the greatest number of the lanes `ps` in FP32, or the canonical NaN. -/
def extreme (w : Warp) (greatest : Bool) (a : Nat) (ps : List Nat) (v : Word) (fl : Flags) : Prop :=
  let x := fun l => (w.vget a l).toNat
  ((∀ l ∈ ps, fp32.isNaN (x l) = true) → v = 0x7FC0_0000) ∧
  ((∃ l ∈ ps, fp32.isNaN (x l) = false) → ∃ l ∈ ps, fp32.isNaN (x l) = false ∧ v.toNat = flushed w.ftz (x l) ∧
    ∀ i ∈ ps, fp32.isNaN (x i) = false → if greatest = true then atMost (flushed w.ftz (x i)) v.toNat
      else atMost v.toNat (flushed w.ftz (x i))) ∧
  fl = if (ps.any fun l => fp32.isSNaN (x l)) = true then flagNV else 0

/-- Floating reductions, with what value and flags each gives over the participants. -/
def fpReductions : List ((Nat → Nat → Nat → Instr) × (Warp → Nat → LaneMask → Word → Flags → Prop)) :=
  [(.combAddF32, fun w a ps v fl => (v.toNat, fl) = treeOf w.mode w.ftz 5 fun l =>
      if ps.getLsbD l = true then (w.vget a l).toNat else 0x8000_0000),
   (.combMinF32, fun w a ps v fl => extreme w false a (lanesOf ps) v fl),
   (.combMaxF32, fun w a ps v fl => extreme w true a (lanesOf ps) v fl)]

/-- Every cross-lane instruction on registers `d` and `a` under the mask register `sm`, `src` an immediate or a register, with the
legality of its registers and the vector registers it reads. -/
def crossLane (t : Team) (d a src : Nat) (imm : Bool) (sm : Nat) : List (Instr × Prop × List Nat) :=
  laneExchanges.map (fun p => (p.1 d a src imm sm, has t d ∧ has t a ∧ (if imm then src < 32 else has t src),
      if imm then [a] else [a, src]))
    ++ reductions.map (fun p => (p.1 d a sm, has t d ∧ has t a, [a]))
    ++ fpReductions.map (fun p => (p.1 d a sm, has t d ∧ has t a, [a]))
    ++ [(.pollEvery d a sm, True, []), (.pollSome d a sm, True, []), (.pollBits d a sm, True, []),
        (.peersB32 d a sm, has t d ∧ has t a, [a]), (.peersB64 d a sm, has t d ∧ hasPair t a, [a, a + 1])]

/-- The address of a parked word, and the lanes parked at the word at the PC. -/
def parkedAt (k : Park) : DWord := k.hdr + BitVec.ofNat 64 (4 * (k.idx + 1))
def parkedHere (w : Warp) : LaneMask :=
  match w.park with
  | some k => if parkedAt k = w.hdr + BitVec.ofNat 64 (4 * (w.idx + 1)) then k.lanes else 0
  | none => 0

/-- A record is held for another word. -/
def parkedElsewhere (w : Warp) : Prop := ∃ k, w.park = some k ∧ parkedAt k ≠ w.hdr + BitVec.ofNat 64 (4 * (w.idx + 1))

/-- The warp holds no rendezvous record, its active lanes are in the mask, and every live lane of the mask is active. -/
def allHere (w : Warp) (sm : Nat) : Prop :=
  w.park = none ∧ w.active &&& ~~~(w.sget sm) = 0 ∧ w.sget sm &&& w.live &&& ~~~w.active = 0

/-- The participants. -/
def parts (w : Warp) (sm : Nat) : LaneMask := w.sget sm &&& w.live

/-- Two-source predicate operations. -/
def predicateOps : List ((Nat → Nat → Nat → Instr) × (Bool → Bool → Bool)) :=
  [(.pand, fun x y => x && y), (.por, fun x y => x || y), (.pxor, fun x y => x != y), (.pandn, fun x y => x && !y)]

end Sys2Proof.Spec

/-- R168, R171: with all live lanes of the mask present, `lx` gives each active lane the value of its source lane when the
mask names that lane (zero when it has exited), and its own value when it does not. -/
def Sys2Proof.Spec.LaneExchange : Prop :=
  ∀ p ∈ laneExchanges, ∀ s t j w d a src imm sm, s.curWarp = some (t, j, w) → has t d → has t a →
    (if imm = true then src < 32 else has t src) → allHere w sm →
    w.poisoned (if imm = true then [a] else [a, src]) (parts w sm) = none →
    ∃ w', leaves (p.1 d a src imm sm) s t j w' ∧ laneResult w w' d fun l =>
      let i := p.2 l (if imm then src else (w.vget src l).toNat % 32)
      if 0 ≤ i ∧ i < 32 ∧ (w.sget sm).getLsbD i.toNat = true then
        (if w.live.getLsbD i.toNat then w.vget a i.toNat else 0)
      else w.vget a l

/-- R172: polls over the participants, as a predicate or as a scalar mask. -/
def Sys2Proof.Spec.Polls : Prop :=
  ∀ s t j w d a sm, s.curWarp = some (t, j, w) → allHere w sm →
    (∃ w', leaves (.pollEvery d a sm) s t j w' ∧
      predResult w w' d (fun _ => (List.range 32).all fun l => !(parts w sm).getLsbD l || (w.pget a).getLsbD l) 0) ∧
    (∃ w', leaves (.pollSome d a sm) s t j w' ∧
      predResult w w' d (fun _ => (List.range 32).any fun l => (parts w sm).getLsbD l && (w.pget a).getLsbD l) 0) ∧
    leaves (.pollBits d a sm) s t j (w.sset d (parts w sm &&& w.pget a))

/-- R172, R173: `peers` gives each active lane the mask of the participants whose value equals its own; `comb` gives every
active lane the reduction over the participants. -/
def Sys2Proof.Spec.Reductions : Prop :=
  (∀ p ∈ reductions, ∀ s t j w d a sm, s.curWarp = some (t, j, w) → has t d → has t a → allHere w sm →
    w.poisoned [a] (parts w sm) = none →
    ∃ w', leaves (p.1 d a sm) s t j w' ∧
      laneResult w w' d fun _ => (lanesOf (parts w sm)).foldl (fun x l => p.2.1 x (w.vget a l)) p.2.2) ∧
  (∀ p ∈ fpReductions, ∀ s t j w d a sm, s.curWarp = some (t, j, w) → has t d → has t a → allHere w sm →
    w.poisoned [a] (parts w sm) = none →
    ∃ w1 v fl, p.2 w a (parts w sm) v fl ∧ leaves (p.1 d a sm) s t j { w1 with fpstat := w.fpstat ||| fl } ∧
      laneResult w w1 d fun _ => v) ∧
  (∀ s t j w d a sm, s.curWarp = some (t, j, w) → has t d → has t a → allHere w sm → w.poisoned [a] (parts w sm) = none →
    ∃ w' f, leaves (.peersB32 d a sm) s t j w' ∧ laneResult w w' d f ∧
      ∀ l i, i < 32 → (f l).getLsbD i = ((parts w sm).getLsbD i && w.vget a i == w.vget a l)) ∧
  (∀ s t j w d a sm, s.curWarp = some (t, j, w) → has t d → hasPair t a → allHere w sm →
    w.poisoned [a, a + 1] (parts w sm) = none →
    ∃ w' f, leaves (.peersB64 d a sm) s t j w' ∧ laneResult w w' d f ∧
      ∀ l i, i < 32 → (f l).getLsbD i = ((parts w sm).getLsbD i && w.vget64 a i == w.vget64 a l))

/-- R168, R169, R170: the lanes that have come are the active ones and those parked at the word. One of them outside the mask, or
a record held for another word, is F_MASK. While live lanes of the mask are missing they park at the word and the warp runs what
the check of R51 finds; where the check meets a parked lane's entry, or ends with none active, the warp is suspended at the word
with F_MASK and the record cleared. When none is missing the instruction does what it does with no record and all of them active. Lanes
that exit leave the record, and where then none is missing the parked instruction is performed at once. -/
def Obligations.Rendezvous : Prop :=
  (∀ s t j w d a src imm sm come, s.curWarp = some (t, j, w) → come = w.active ||| parkedHere w →
    ∀ i ∈ crossLane t d a src imm sm,
      (¬ i.2.1 → raises i.1 s t j w { code := .illegal }) ∧
      (i.2.1 → come &&& ~~~(w.sget sm) ≠ 0 ∨ parkedElsewhere w → raises i.1 s t j w { code := .mask }) ∧
      (∀ h w1 w2, i.2.1 → w.clause = some h → come &&& ~~~(w.sget sm) = 0 → ¬ parkedElsewhere w →
        parts w sm &&& ~~~come ≠ 0 →
        w1 = { w with
          active := 0
          park := some { hdr := w.hdr, idx := w.idx, clause := h, instr := i.1, lanes := come, mask := w.sget sm } } →
        (Warp.reconverge w1.reconvergeFuel w1 w.hdr = .at w2 →
          moves i.1 s t j { w2 with idx := 0, clause := none }) ∧
        (Warp.reconverge w1.reconvergeFuel w1 w.hdr = .maskFault w2 →
          raises i.1 s t j w2 { code := .mask } ∧
          w2 = { w with active := come, park := none, stack := w2.stack })) ∧
      (i.2.1 → come &&& ~~~(w.sget sm) = 0 → ¬ parkedElsewhere w → parts w sm &&& ~~~come = 0 →
        w.poisoned i.2.2 (parts w sm) = none →
        exec i.1 s = exec i.1 (onlyWarp s t j { w with park := none, active := come }))) ∧
  (∀ s t j w k w1, s.curWarp = some (t, j, w) → w.park = some k →
    w1 = { w with
      live := w.live &&& ~~~w.active, active := 0
      stack := w.stack.map fun e => { e with mask := e.mask &&& ~~~w.active, pend := e.pend &&& ~~~w.active }
      park := some { k with lanes := k.lanes &&& ~~~w.active } } →
    (∀ w2, k.mask &&& w1.live &&& ~~~(k.lanes &&& ~~~w.active) ≠ 0 →
      (Warp.reconverge w1.reconvergeFuel w1 w.hdr = .at w2 → moves .exit s t j (jump w2 w2.hdr)) ∧
      (Warp.reconverge w1.reconvergeFuel w1 w.hdr = .maskFault w2 → raises .exit s t j w2 { code := .mask })) ∧
    (∀ d a src imm sm w3, k.mask &&& w1.live &&& ~~~(k.lanes &&& ~~~w.active) = 0 →
      w3 = { w1 with
        active := k.lanes &&& ~~~w.active, park := none, hdr := k.hdr, idx := k.idx, clause := some k.clause } →
      w.sget sm = k.mask → k.lanes &&& ~~~w.active &&& ~~~k.mask = 0 →
      ∀ i ∈ crossLane t d a src imm sm, i.2.1 → k.instr = i.1 → w3.poisoned i.2.2 (k.mask &&& w1.live) = none →
        exec .exit s = exec i.1 (onlyWarp s t j w3)))

/-- R160, R174: `sel`, and predicate logic lane by lane; `pto` gives a scalar the predicate of the active lanes. -/
def Obligations.Predicates : Prop :=
  (∀ s t j w d a b p, s.curWarp = some (t, j, w) → has t d → has t a → has t b → w.poisoned [a, b] w.active = none →
    ∃ w', leaves (.sel d a b p) s t j w' ∧
      laneResult w w' d fun l => if (w.pget p).getLsbD l then w.vget a l else w.vget b l) ∧
  (∀ p ∈ predicateOps, ∀ s t j w d a b, s.curWarp = some (t, j, w) →
    ∃ w', leaves (p.1 d a b) s t j w' ∧
      predResult w w' d (fun l => p.2 ((w.pget a).getLsbD l) ((w.pget b).getLsbD l)) 0) ∧
  (∀ s t j w d a, s.curWarp = some (t, j, w) →
    (∃ w', leaves (.pnot d a) s t j w' ∧ predResult w w' d (fun l => !(w.pget a).getLsbD l) 0) ∧
    (∃ w', leaves (.pmov d a) s t j w' ∧ predResult w w' d (fun l => (w.pget a).getLsbD l) 0) ∧
    (∃ w', leaves (.pfrom d a) s t j w' ∧ predResult w w' d (fun l => (w.sget a).getLsbD l) 0) ∧
    leaves (.pto d a) s t j (w.sset a (w.pget d &&& w.active)))

namespace Sys2Proof.Spec

/-! ### Clauses, branches, calls, barriers, waits (R50 to R56, R66 to R81, R145 to R155) -/

/-- The address of the word at the PC, and an address `off` words from it. -/
def wordAt (w : Warp) : DWord := w.hdr + BitVec.ofNat 64 (4 * (w.idx + 1))
def wordsFrom (w : Warp) (off : Int) : DWord := wordAt w + BitVec.ofInt 64 (4 * off)

/-- The header after clause `h`. -/
def after (w : Warp) (h : Header) : DWord := w.hdr + BitVec.ofNat 64 (4 * (h.count + 1))

/-- The top entry of the stack asks for a reconvergence at address `a` (R51). -/
def due (w : Warp) (a : DWord) (e : Reconv) : Prop := a = e.join ∨ w.liveOf w.active = 0

/-- The loop of R51 takes the warp at address `a` to another warp and address: each turn takes up the pending lanes of an entry that is
due, or pops it where none is pending. -/
inductive Rejoins : Warp → DWord → Warp → DWord → Prop where
  | rest (w : Warp) (a : DWord) : Rejoins w a w a
  | switch (w : Warp) (a : DWord) (e : Reconv) (r : List Reconv) (w' : Warp) (b : DWord) : w.stack = e :: r → due w a e →
      e.phase = false → w.liveOf e.pend ≠ 0 →
      Rejoins { w with stack := { e with phase := true } :: r, active := w.liveOf e.pend } e.tgt w' b → Rejoins w a w' b
  | pop (w : Warp) (a : DWord) (e : Reconv) (r : List Reconv) (w' : Warp) (b : DWord) : w.stack = e :: r → due w a e →
      e.phase = true ∨ w.liveOf e.pend = 0 → (∀ p, w.park = some p → e.mask &&& p.lanes = 0) →
      Rejoins { w with stack := r, active := w.liveOf e.mask } e.join w' b → Rejoins w a w' b

/-- No entry is due, and a lane is left to run at address `a`. -/
def settled (w : Warp) (a : DWord) : Prop := w.liveOf w.active ≠ 0 ∧ ∀ e r, w.stack = e :: r → ¬ due w a e

/-- The loop of R51 cannot go on for a held rendezvous record: the entry to be popped holds a parked lane, or nothing is left (R169). -/
def parkBars (w : Warp) (a : DWord) (p : Park) : Prop :=
  w.park = some p ∧ (w.stack = [] ∧ w.liveOf w.active = 0 ∨ ∃ e r, w.stack = e :: r ∧ due w a e ∧
    (e.phase = true ∨ w.liveOf e.pend = 0) ∧ e.mask &&& p.lanes ≠ 0)

/-- The warp at the word of its rendezvous record, its lanes the parked ones and the record gone (R169). -/
def atPark (w : Warp) (p : Park) : Warp :=
  { w with active := p.lanes, park := none, hdr := p.hdr, idx := p.idx, clause := some p.clause }

/-- The waits of a header are met (R67): the tokens it names are zero, and so is L, and S, where it says so. -/
def waitsMet (w : Warp) (h : Header) : Prop :=
  (∀ k < 8, bitOf h.kwait k = true → w.token k = 0) ∧ (h.wl = true → w.cntL = 0) ∧ (h.ws = true → w.cntS = 0)

/-- The team has been ended with a code (R363): no warp of it lives, its context area is released, and a record with the code and
address `va` is handed to the hub's control. -/
def teamEnded (s s' : State) (t : Team) (code : FaultCode) (va : Nat) : Prop :=
  (∃ t', s'.findTeam t.uid = some t' ∧ t'.ctxLen = 0 ∧ ∀ u ∈ t'.warps, u.status = .exited ∧ u.live = 0) ∧
  ∃ x r, KMap.find s'.sources (sourceKey t.world hubSource) = some x ∧ r ∈ x.pending ∧
    r.take 12 = leBytes 2 evFault ++ leBytes 2 t.world ++ leBytes 4 (s.nextSeq t.world hubSource) ++ leBytes 4 hubSource ∧
    leVal ((r.drop 12).take 2) = FaultCode.code code ∧ leVal ((r.drop 16).take 4) = t.teamId % 2 ^ 32 ∧
    leVal ((r.drop 32).take 8) = va % 2 ^ 64

/-- The team has ended with F_ABORT because the device could not reach its context area at address `va` (R360). -/
def teamLost (s s' : State) (t : Team) (va : Nat) : Prop := teamEnded s s' t .abort va

/-- The instruction of a warp that the device writes for (R383). -/
def writerOf (t : Team) (j : Nat) (w : Warp) : Origin :=
  { team := t.uid, teamId := t.teamId, warp := j, core := t.core, hdr := w.hdr, idx := w.idx, va := 0 }

/-- Warp `i` may see an older value `v` of something written (R138, R176, R201). -/
def maySee (l : List OldValue) (i : Nat) (what : OldWhat) (v : DWord) : Prop :=
  ∃ e ∈ l, e.what = what ∧ e.value = v ∧ i ∉ e.known

/-- Every live warp of every team of the grid of team `t` has executed `barg` once warp `j` of `t` has (R56). -/
def gridArrived (s : State) (t : Team) (j : Nat) : Prop :=
  ∀ x ∈ s.teams, x.launch = t.launch → ∀ i u, x.warps[i]? = some u →
    x.uid = t.uid ∧ i = j ∨ u.status = .barg ∨ u.status = .exited

/-- The instruction is not ready to issue: nothing changes but the model's own mark for it. -/
def holds (i : Instr) (s : State) : Prop := exec i s = .next { s with held := true }

/-- Scalar branch conditions. -/
def scalarBranches : List ((Nat → Int → Instr) × (Word → Bool)) :=
  [(.brcZ, fun x => decide (x = 0)), (.brcNz, fun x => decide (x ≠ 0)), (.brcNeg, fun x => decide (x.toInt < 0)),
   (.brcNneg, fun x => decide (0 ≤ x.toInt)), (.brcPos, fun x => decide (0 < x.toInt)), (.brcNpos, fun x => decide (x.toInt ≤ 0))]

/-- The divergent branch of R50 by instruction `i` on predicate `p` with a target and a join. -/
def diverges (i : Instr) (s : State) (t : Team) (j : Nat) (w : Warp) (h : Header) (p : Nat) (tgt join : DWord) : Prop :=
  let tk := w.active &&& w.pget p
  let nt := w.active &&& ~~~(w.pget p)
  (tk = 0 → moves i s t j (jump w (after w h))) ∧
  (tk ≠ 0 → nt = 0 → moves i s t j (jump w tgt)) ∧
  (tk ≠ 0 → nt ≠ 0 → ∀ e r, w.stack = e :: r → e.phase = true → e.join = join → join = after w h →
    moves i s t j { jump w tgt with active := tk }) ∧
  (tk ≠ 0 → nt ≠ 0 → (∀ e r, w.stack = e :: r → ¬ (e.phase = true ∧ e.join = join ∧ join = after w h)) →
    (w.stack.length = t.divd + 1 → raises i s t j w { code := .divStack }) ∧
    (w.stack.length ≠ t.divd + 1 →
      moves i s t j
        { jump w (after w h) with
          active := nt, stack := { join := join, mask := w.active, pend := tk, tgt := tgt, phase := false } :: w.stack }))

/-- Where entry `n` of warp `j`'s return stack is spilled (R147, R360). -/
def spillSlot (t : Team) (j n : Nat) : Nat := t.ctxBase + 35072 + 448 * j + 8 * n

end Sys2Proof.Spec

/-- R74, R76, R145: a literal load gives its destination the word, or the two words, at the literal's address, which its core fetches; a
fetch that fails raises its fault, and an odd pair is F_ILLEGAL. -/
def Sys2Proof.Spec.LiteralLoads : Prop :=
  ∀ s t j w d off s1, s.curWarp = some (t, j, w) → s1 = s.fetched t (wordsFrom w off).toNat →
    (∀ v, s.fetchWord t (wordsFrom w off).toNat = .ok v →
      leavesOn (.ldl d off) s s1 t j (w.sset d (BitVec.ofNat 32 v)) ∧
      (∀ v1, d % 2 = 0 → s1.fetchWord t (wordsFrom w (off + 1)).toNat = .ok v1 →
        leavesOn (.ldlB64 d off) s (s1.fetched t (wordsFrom w (off + 1)).toNat) t j
          ((w.sset d (BitVec.ofNat 32 v)).sset (d + 1) (BitVec.ofNat 32 v1))) ∧
      (∀ e, d % 2 = 0 → s1.fetchWord t (wordsFrom w (off + 1)).toNat = .error e →
        raisesOn (.ldlB64 d off) s (s1.fetched t (wordsFrom w (off + 1)).toNat) t j w (ofRead w e))) ∧
    (∀ e, s.fetchWord t (wordsFrom w off).toNat = .error e →
      raisesOn (.ldl d off) s s1 t j w (ofRead w e) ∧
      (d % 2 = 0 → raisesOn (.ldlB64 d off) s s1 t j w (ofRead w e))) ∧
    (d % 2 = 1 → raises (.ldlB64 d off) s t j w { code := .illegal })

/-- R146: the uniform branches set the PC to the target or to the next header. -/
def Sys2Proof.Spec.Branches : Prop :=
  (∀ s t j w off, s.curWarp = some (t, j, w) → moves (.bra off) s t j (jump w (wordsFrom w off))) ∧
  (∀ p ∈ scalarBranches, ∀ s t j w h a off, s.curWarp = some (t, j, w) → w.clause = some h →
    moves (p.1 a off) s t j (jump w (if p.2 (w.sget a) then wordsFrom w off else after w h)))

/-- R50, R52: `brv` diverges; `br.rg` waits for its team to regroup, or acts as the divergent branch joining at the next
header when the warp is divergent, holds a rendezvous record, or is in its trap handler. -/
def Sys2Proof.Spec.DivergentBranches : Prop :=
  ∀ s t j w h p tgt join, s.curWarp = some (t, j, w) → w.clause = some h →
    diverges (.brv p tgt join) s t j w h p (wordsFrom w tgt) (wordsFrom w join) ∧
    (w.stack ≠ [] ∨ w.park.isSome = true ∨ w.intrap = true →
      diverges (.brRg p tgt) s t j w h p (wordsFrom w tgt) (after w h)) ∧
    (w.stack = [] → w.park = none → w.intrap = false →
      moves (.brRg p tgt) s t j (stops w (.regroup p (wordsFrom w tgt) (after w h))))

/-- R147, R360: calls push the next header's address and returns pop it; the core holds eight entries and the rest are
spilled, oldest first, in the team's context area; depth 64 and depth 0 are F_CALLSTACK; a spill that fails a check, or a read there
that fails a check or delivers a data fault, ends the team with F_ABORT. -/
def Sys2Proof.Spec.Calls : Prop :=
  ∀ s t j w h off, s.curWarp = some (t, j, w) → w.clause = some h →
    (w.rstack.length + w.rspill = 64 → raises (.call off) s t j w { code := .callStack }) ∧
    (w.rstack.length + w.rspill ≠ 64 → w.rstack.length < 8 →
      moves (.call off) s t j { jump w (wordsFrom w off) with rstack := after w h :: w.rstack }) ∧
    (∀ e s1, w.rstack.length + w.rspill ≠ 64 → w.rstack.length = 8 →
      s.storeVirt (writerOf t j w) t.world (spillSlot t j w.rspill) (leBytes 8 (w.rstack.getLastD 0).toNat) = (e, s1) →
      (e = none → exec (.call off) s = .next (onlyWarp s1 t j
        { jump w (wordsFrom w off) with rstack := after w h :: w.rstack.dropLast, rspill := w.rspill + 1 })) ∧
      (∀ c va, e = some (c, va) → t.ctxLen ≠ 0 → ∃ s', exec (.call off) s = .next s' ∧ teamLost s1 s' t va)) ∧
    (w.rstack.length + w.rspill = 0 → raises .ret s t j w { code := .callStack }) ∧
    (∀ a r, w.rstack = a :: r → moves .ret s t j { jump w a with rstack := r }) ∧
    (∀ r s1, w.rstack = [] → w.rspill ≠ 0 →
      s.readVirt t.core t.world (some (logAgent 0 t.core)) (spillSlot t j (w.rspill - 1)) 8 = (r, s1) →
      (∀ bs, r = .ok bs →
        exec .ret s = .next (onlyWarp s1 t j { jump w (BitVec.ofNat 64 (leVal bs)) with rspill := w.rspill - 1 })) ∧
      (∀ c va, r = .error (c, va) → t.ctxLen ≠ 0 → ∃ s', exec .ret s = .next s' ∧ teamLost s1 s' t va))

/-- R51, R148: `exit` ends the active lanes, also in every entry of the reconvergence stack. Where the check of R51 then ends with no
live lane the warp has exited; otherwise it goes on at the header that the check finds. -/
def Sys2Proof.Spec.Exit : Prop :=
  ∀ s t j w w1, s.curWarp = some (t, j, w) → w.park = none →
    w1 = { w with
      live := w.live &&& ~~~w.active, active := 0
      stack := w.stack.map fun e => { e with mask := e.mask &&& ~~~w.active, pend := e.pend &&& ~~~w.active } } →
    (∀ w2 b, Rejoins w1 w.hdr w2 b → w2.stack = [] → w2.liveOf w2.active = 0 →
      ∃ s' t' w', exec .exit s = .next s' ∧ s'.findWarp t.uid j = some (t', w') ∧ w'.status = .exited ∧
        w'.live = w1.live ∧ w'.sregs = w.sregs ∧ w'.vregs = w.vregs ∧ s'.mem = s.mem ∧ s'.ops = s.ops) ∧
    (∀ w2 b, Rejoins w1 w.hdr w2 b → settled w2 b → moves .exit s t j (jump w2 b))

/-- R149, R155: `nop` and `yield`, and the moves between scalar and vector registers. -/
def Sys2Proof.Spec.MovesAndHints : Prop :=
  ∀ s t j w d v l, s.curWarp = some (t, j, w) →
    leaves .nop s t j w ∧ leaves .yield s t j { w with yielded := true } ∧
    (has t v → w.live.getLsbD l = false → leaves (.gets d v l) s t j (w.sset d 0)) ∧
    (has t v → w.live.getLsbD l = true → w.poisoned [v] (1#32 <<< l) = none →
      leaves (.gets d v l) s t j (w.sset d (w.vget v l))) ∧
    (has t v → l < 32 → w.active.getLsbD l = true → (∀ i, i < l → w.active.getLsbD i = false) →
      w.poisoned [v] (1#32 <<< l) = none → leaves (.getsFirst d v) s t j (w.sset d (w.vget v l))) ∧
    (has t v → ∃ w', leaves (.sets d v) s t j w' ∧ laneResult w w' v fun _ => w.sget d)

/-- R54, R55, R153, R154, R176: `bpost` waits for the warp's loads and stores, arrives with its live active lanes and names the
expected count; the phase that is complete turns. `bhold` passes once the warp's arrival's phase is complete, and the older values
that the completed phase orders it after are gone for the warp; it blocks until then; a barrier beyond BARS and a count of zero are
F_ILLEGAL. -/
def Sys2Proof.Spec.Barriers : Prop :=
  ∀ s t j w n c, s.curWarp = some (t, j, w) →
    (t.barsMax < n ∨ c = 0 → raises (.bpost n c) s t j w { code := .illegal }) ∧
    (n ≤ t.barsMax → 0 < c → w.cntL ≠ 0 ∨ w.cntS ≠ 0 → holds (.bpost n c) s) ∧
    (n ≤ t.barsMax → 0 < c → w.cntL = 0 → w.cntS = 0 →
      ∃ s' t' w', exec (.bpost n c) s = .next s' ∧ s'.findWarp t.uid j = some (t', w') ∧
        (let b := t.barrier n
         let e := b.e.getD c
         let a := min 4095 (b.a + popcount (w.liveOf w.active))
         t'.barrier n = (if e ≤ a then { phase := !b.phase, a := a - e, e := none } else { phase := b.phase, a := a, e := some e }) ∧
         (∀ m, m ≠ n → t'.barrier m = t.barrier m) ∧ KMap.find w'.arrivals n = some (decide (e ≤ a)) ∧
         w'.hdr = w.advance.hdr ∧ w'.idx = w.advance.idx ∧ w'.sregs = w.sregs ∧ w'.vregs = w.vregs ∧ s'.mem = s.mem)) ∧
    (t.barsMax < n → raises (.bhold n) s t j w { code := .illegal }) ∧
    (n ≤ t.barsMax → KMap.find w.arrivals n = some true →
      ∃ f : Team → List OldValue,
        exec (.bhold n) s = .next (onlyWarp (s.updTeam t.uid fun x => { x with old := f x }) t j w.advance) ∧
        ∀ x i what v, i < x.warps.length → (maySee (f x) i what v ↔
          ∃ e ∈ x.old, e.what = what ∧ e.value = v ∧ i ∉ e.known ∧ ¬ (i = j ∧ (n, j) ∈ e.due))) ∧
    (n ≤ t.barsMax → KMap.find w.arrivals n ≠ some true → moves (.bhold n) s t j (stops w (.bhold n)))

/-- R56, R215, R217: `barg` outside a cooperative grid is F_ILLEGAL; it waits for the warp's loads and stores; then the world's gathered
stores of the cluster reach memory. When every live warp of every team of the grid has then executed it, all of them go on and the
grid's cores drop the world's L1 lines; until then the warp is blocked, and so are the others that wait. -/
def Sys2Proof.Spec.GridBarrier : Prop :=
  ∀ s t j w, s.curWarp = some (t, j, w) →
    (t.coop = false → raises .barg s t j w { code := .illegal }) ∧
    (t.coop = true → w.cntL ≠ 0 ∨ w.cntS ≠ 0 → holds .barg s) ∧
    (t.coop = true → w.cntL = 0 → w.cntS = 0 →
      ∃ s', exec .barg s = .next s' ∧ s'.mem = (s.drainWorld (t.core / 8) t.world).mem ∧
        (gridArrived s t j →
          (∀ uid i x u, s.findWarp uid i = some (x, u) → x.launch = t.launch → u.status = .barg ∨ uid = t.uid ∧ i = j →
            ∃ x' u', s'.findWarp uid i = some (x', u') ∧ u'.status = .running ∧ u'.hdr = u.advance.hdr ∧
              u'.idx = u.advance.idx ∧ u'.sregs = u.sregs ∧ u'.vregs = u.vregs) ∧
          ∀ x ∈ s.teams, x.launch = t.launch → ∀ l ∈ s'.l1, l.core = x.core → l.world ≠ x.world) ∧
        (¬ gridArrived s t j →
          ∀ uid i x u, s.findWarp uid i = some (x, u) → x.launch = t.launch → u.status = .barg ∨ uid = t.uid ∧ i = j →
            ∃ x' u', s'.findWarp uid i = some (x', u') ∧ u'.status = .barg ∧ u'.hdr = u.hdr ∧ u'.idx = u.idx ∧
              u'.sregs = u.sregs ∧ u'.vregs = u.vregs))

/-- R81, R150, R181: `wait` holds until every named token is zero and the named counter is at most n, then completes; with
counter L and n 0 it first reports a poisoned register of the warp. -/
def Sys2Proof.Spec.Waits : Prop :=
  ∀ s t j w kmask ctr cen n, s.curWarp = some (t, j, w) →
    (((∃ k < 8, bitOf kmask k = true ∧ w.token k ≠ 0) ∨ cen = true ∧ n < w.ctr ctr) → holds (.wait kmask ctr cen n) s) ∧
    ((∀ k < 8, bitOf kmask k = true → w.token k = 0) → (cen = true → w.ctr ctr ≤ n) →
      (cen = false ∨ ctr ≠ .l ∨ n ≠ 0 ∨ w.poison = [] → leaves (.wait kmask ctr cen n) s t j w) ∧
      (∀ k l p, cen = true → ctr = .l → n = 0 → (∀ e ∈ w.poison, l ≤ e.1 % 32) →
        w.poison.find? (fun e => e.1 % 32 == l) = some (k, p) →
        raises (.wait kmask ctr cen n) s t j w (ofMark l p)))

/-- R51, R66, R67, R70 to R72, R169: at a header the check of R51 runs first. Where it ends at a header with lanes to run, the clause
there starts once its waits are met, and holds until then; a literal clause is stepped over; a word that is no header is F_CLAUSE at
the header, and a fetch that fails raises its fault there. Where no lane is left the warp has exited, or, with a rendezvous record, that
is F_MASK at the parked word. -/
def Sys2Proof.Spec.ClauseStart : Prop :=
  ∀ s t j w0 w1 b, s.curWarp = some (t, j, w0) → w0.idx = 0 → Rejoins w0 w0.hdr w1 b →
    (∀ p, parkBars w1 b p → raises .clauseStart s t j (atPark w1 p) { code := .mask }) ∧
    (w1.stack = [] → w1.liveOf w1.active = 0 → w1.park = none →
      ∃ s' t' w', exec .clauseStart s = .next s' ∧ s'.findWarp t.uid j = some (t', w') ∧ w'.status = .exited ∧
        w'.sregs = w0.sregs ∧ w'.vregs = w0.vregs ∧ s'.mem = s.mem ∧ s'.ops = s.ops) ∧
    (∀ w s1, settled w1 b → w = { w1 with hdr := b, idx := 0, clause := none } → s1 = s.fetched t b.toNat →
      (∀ e, s.fetchWord t b.toNat = .error e → raisesOn .clauseStart s s1 t j w { ofRead w e with atHeader := true }) ∧
      (∀ v, s.fetchWord t b.toNat = .ok v →
        (decodeHeader v = none → raisesOn .clauseStart s s1 t j w { code := .clause, atHeader := true }) ∧
        (∀ h, decodeHeader v = some h →
          (h.cls = .lit → exec .clauseStart s = .next (onlyWarp s1 t j { w with hdr := after w h })) ∧
          (∀ k l p, h.cls ≠ .lit → h.wl = true → w.cntL = 0 → (∀ e ∈ w.poison, l ≤ e.1 % 32) →
            w.poison.find? (fun e => e.1 % 32 == l) = some (k, p) →
            raisesOn .clauseStart s s1 t j w { ofMark l p with atHeader := true }) ∧
          (h.cls ≠ .lit → w.poison = [] ∨ h.wl = false →
            (waitsMet w h → exec .clauseStart s = .next (onlyWarp (s1.fetched t (b.toNat + 4 * h.count)) t j
              { w with clause := some h })) ∧
            (¬ waitsMet w h → holds .clauseStart s)))))

/-- R68, R69, R79: a word at the PC that no row of the opcode table assigns is F_ILLEGAL, unless an earlier check of R79 names
another fault; one whose fetch fails raises that fault. -/
def Sys2Proof.Spec.UnassignedWords : Prop :=
  ∀ s t j w h s1, s.curWarp = some (t, j, w) → w.clause = some h → s1 = s.fetched t (wordAt w).toNat →
    (∀ e, s.fetchWord t (wordAt w).toNat = .error e → raisesOn .unassignedWord s s1 t j w (ofRead w e)) ∧
    (∀ v, s.fetchWord t (wordAt w).toNat = .ok v →
      (∀ c, wordCheck h w.idx v = some c → raisesOn .unassignedWord s s1 t j w { code := c }) ∧
      (wordCheck h w.idx v = none → wordAssigned v = false → raisesOn .unassignedWord s s1 t j w { code := .illegal }))

namespace Sys2Proof.Spec

/-! ### Loads, stores, atomics, fences and waiting on memory (R89 to R91, R179 to R196) -/

/-- The instruction puts `o` in flight as the newest operation, raises its counter and token, and completes at issue. -/
def issues (i : Instr) (s : State) (t : Team) (j : Nat) (w : Warp) (o : Op) : Prop :=
  exec i s = .next (onlyWarp { s with ops := s.ops ++ [{ o with id := s.nextUid }], nextUid := s.nextUid + 1 } t j
    (w.raiseCtr o.ctr o.kn).advance)

/-- The state after the walks of the active lanes' global addresses (R326). -/
def walking (s : State) (t : Team) (w : Warp) (addr : Nat → Nat) : State :=
  s.walked t.core t.world ((lanesOf w.active).map addr)

/-- As `issues`, after the walks of the lanes' addresses. -/
def issuesAt (i : Instr) (s : State) (t : Team) (j : Nat) (w : Warp) (addr : Nat → Nat) (o : Op) : Prop :=
  ∃ s1, s1 = walking s t w addr ∧
    exec i s = .next (onlyWarp { s1 with ops := s1.ops ++ [{ o with id := s1.nextUid }], nextUid := s1.nextUid + 1 } t j
      (w.raiseCtr o.ctr o.kn).advance)

/-- The operation of warp `j` with nothing read, written or named beyond `kind`. -/
def plainOp (t : Team) (j : Nat) (w : Warp) (ctr : Ctr) (kind : OpKind) : Op :=
  { id := 0, world := t.world, core := t.core, team := t.uid, warp := j, hdr := w.hdr, idx := w.idx, kn := none,
    ctr := some ctr, opaddr := 0, blkpa := 0, kind := kind, reads := [], writes := [], readDone := false,
    writeDone := false, tiles := [], ticket := none, fenced := w.fenced, parked := none, rid := none, trouble := none,
    inTprog := false, paused := false }

/-- Bytes of an access. -/
def sizeOf' (ty : MemTy) : Nat :=
  match ty with
  | .n8 | .i8 => 1
  | .n16 | .i16 => 2
  | .b32 => 4
  | .b64 => 8
  | .b128 => 16

/-- Registers of an access from `d`, and whether a team has them. -/
def regsOf (ty : MemTy) (d : Nat) : List Nat :=
  match ty with
  | .b64 => [d, d + 1]
  | .b128 => [d, d + 1, d + 2, d + 3]
  | _ => [d]
def memHas (ty : MemTy) (t : Team) (d : Nat) : Prop :=
  match ty with
  | .b64 => hasPair t d
  | .b128 => d % 4 = 0 ∧ d + 3 < t.nregs
  | _ => has t d

/-- The value lane `l` stores from `d`. -/
def storeValue (w : Warp) (ty : MemTy) (d l : Nat) : Nat :=
  match ty with
  | .b64 => (w.vget64 d l).toNat
  | .b128 => (w.vget64 d l).toNat + 2 ^ 64 * (w.vget64 (d + 2) l).toNat
  | _ => (w.vget d l).toNat

/-- The single-copy atomic parts of a lane's access (R187): two of 8 bytes for 16, else the whole. -/
def pieces (ty : MemTy) (a : LaneAcc) : List LaneAcc :=
  match ty with
  | .b128 => [{ a with part := 0, op1 := a.op1 % 2 ^ 64 },
      { a with part := 1, va := a.va + 8, pa := a.pa + 8, op1 := a.op1 / 2 ^ 64 % 2 ^ 64 }]
  | _ => [a]

/-- Of parts that several lanes store at one address, the highest lane's is the one written (R187). -/
def lastWritten (us : List LaneAcc) : List LaneAcc :=
  us.filter fun a => !(us.any fun b => b.pa == a.pa && decide (a.lane < b.lane))

/-- Lane `l`'s global address: the pair, plus a byte offset, modulo 2^64; and its scratchpad address. -/
def globalAt (w : Warp) (a : Nat) (off : Int) (l : Nat) : Nat := (w.vget64 a l + BitVec.ofInt 64 off).toNat
def scratchAt (w : Warp) (a : Nat) (off : Int) (l : Nat) : Int := ((w.vget a l).toNat : Int) + off

/-- Every active lane's global address is aligned and passes the checks of R180, with physical address `pa l`. -/
def reachable (s : State) (t : Team) (w : Warp) (k : AccKind) (n : Nat) (addr pa : Nat → Nat) : Prop :=
  ∀ l < 32, w.active.getLsbD l = true → addr l % n = 0 ∧ s.translate t.core t.world (addr l) k = .ok (pa l)

/-- Every active lane's scratchpad address is aligned and in the team's allocation. -/
def inScratch (t : Team) (w : Warp) (n : Nat) (addr : Nat → Int) : Prop :=
  ∀ l < 32, w.active.getLsbD l = true → addr l % n = 0 ∧ 0 ≤ addr l ∧ addr l + n ≤ t.scratchSize

/-- No outstanding asynchronous operation of the team holds the lanes' granules. -/
def granulesFree (s : State) (t : Team) (w : Warp) (load : Bool) (n : Nat) (addr : Nat → Int) : Prop :=
  s.accessHeld t.uid load ((lanesOf w.active).map fun l => granules (addr l).toNat n) = false

/-- What lane `l` brings to an access of address `va`, translated to `pa`, with the value it stores. -/
def shareOf (l va pa v : Nat) : LaneAcc := { lane := l, part := 0, va := va, pa := pa, op1 := v, op2 := 0 }

/-- The lowest active lane whose address is misaligned. -/
def firstMisaligned (w : Warp) (n : Nat) (addr : Nat → Int) (l : Nat) : Prop :=
  l < 32 ∧ w.active.getLsbD l = true ∧ addr l % n ≠ 0 ∧ ∀ i < l, w.active.getLsbD i = true → addr i % n = 0

/-- The place of a fault in the order of the checks (R180). -/
def checkOrder (c : FaultCode) : Nat :=
  match c with
  | .align => 0
  | .page => 1
  | .perm => 2
  | _ => 3

/-- What the checks of R180 answer for one lane's global address. -/
def laneCheck (s : State) (t : Team) (k : AccKind) (n va : Nat) : Option FaultCode :=
  if va % n ≠ 0 then some .align
  else
    match s.translate t.core t.world va k with
    | .error c => some c
    | .ok _ => none

/-- Lane `l` fails with `c`, no active lane fails an earlier check, and no lower lane fails the same one. -/
def firstFailing (s : State) (t : Team) (w : Warp) (k : AccKind) (n : Nat) (addr : Nat → Nat) (l : Nat) (c : FaultCode) : Prop :=
  l < 32 ∧ w.active.getLsbD l = true ∧ laneCheck s t k n (addr l) = some c ∧
    ∀ i < 32, w.active.getLsbD i = true → ∀ e, laneCheck s t k n (addr i) = some e →
      checkOrder c < checkOrder e ∨ c = e ∧ l ≤ i

/-- Atomics: the operation with its global and its scratchpad form. -/
def atomics : List (AtomOp × (Nat → Nat → AtomTy → Scope → Order → Bool → Instr) × (Nat → Nat → AtomTy → Order → Instr)) :=
  [(.ld, .atomLd, .atomSLd), (.st, .atomSt, .atomSSt), (.exch, .atomExch, .atomSExch), (.cas, .atomCas, .atomSCas),
   (.add, .atomAdd, .atomSAdd), (.min, .atomMin, .atomSMin), (.max, .atomMax, .atomSMax), (.band, .atomAnd, .atomSAnd),
   (.bor, .atomOr, .atomSOr)]

/-- An atomic's values are of one register or two. -/
def atomWide (ty : AtomTy) : Bool :=
  match ty with
  | .i32 | .n32 => false
  | .i64 | .n64 => true
def atomHas (ty : AtomTy) (t : Team) (r : Nat) : Prop := if atomWide ty then hasPair t r else has t r
def atomValue (w : Warp) (ty : AtomTy) (r l : Nat) : Nat := if atomWide ty then (w.vget64 r l).toNat else (w.vget r l).toNat

/-- First registers of an atomic's operands: the value stored at d; a compare and a new value, or one operand, after d. -/
def operandsOf (aop : AtomOp) (ty : AtomTy) (d : Nat) : List Nat :=
  let n := if atomWide ty then 2 else 1
  match aop with
  | .ld => []
  | .st => [d]
  | .cas => [d + n, d + 2 * n]
  | _ => [d + n]

/-- The registers an atomic reads as operands. -/
def operandRegs (aop : AtomOp) (ty : AtomTy) (d : Nat) : List Nat :=
  (operandsOf aop ty d).flatMap fun r => if atomWide ty then [r, r + 1] else [r]

/-- What lane `l` brings to an atomic at address `va`. -/
def atomShare (w : Warp) (aop : AtomOp) (ty : AtomTy) (d l va pa : Nat) : LaneAcc :=
  { lane := l, part := 0, va := va, pa := pa, op1 := ((operandsOf aop ty d)[0]?.map fun r => atomValue w ty r l).getD 0,
    op2 := ((operandsOf aop ty d)[1]?.map fun r => atomValue w ty r l).getD 0 }

/-- Orders that release and that acquire; the orders an atomic may name. -/
def releases (o : Order) : Prop := o = .rel ∨ o = .acqrel ∨ o = .sc
def acquires (o : Order) : Prop := o = .acq ∨ o = .acqrel ∨ o = .sc
def orderLegal (aop : AtomOp) (ord : Order) (pro : Bool) : Prop :=
  ¬ (aop = .ld ∧ (ord = .rel ∨ ord = .acqrel)) ∧ ¬ (aop = .st ∧ (ord = .acq ∨ ord = .acqrel)) ∧
    (pro = true → ord = .acq ∨ ord = .acqrel)

/-- The counter an atomic raises. -/
def ctrOf (aop : AtomOp) : Ctr := if aop = .st then .s else .l

/-- The lines of the active lanes' words, each once, with the first lane's address in it. -/
def linesRead (w : Warp) (addr pa : Nat → Nat) : List (Nat × Nat) :=
  (lanesOf w.active).foldl (fun acc l => if acc.any fun q => q.1 == pa l / 128 then acc else acc ++ [(pa l / 128, addr l)]) []

/-- A line that an active lane's address lies in. -/
def namesLine (w : Warp) (pa : Nat → Nat) (n : Nat) : Prop := ∃ l < 32, w.active.getLsbD l = true ∧ pa l / 128 = n

/-- Clusters and cores that a cache operation of a team acts on (R193). -/
def reaches (scope : Scope) (t : Team) (cluster : Nat) : Prop := scope = .dev ∨ cluster = t.core / 8
def reachesCore (scope : Scope) (t : Team) (core : Nat) : Prop := scope = .dev ∨ core = t.core

/-- No line or packet of the memory is damaged. -/
def undamaged (s : State) : Prop := s.badPackets = [] ∧ s.cellFaults = [] ∧ ∀ n, (s.lineMeta n).p = false

/-- Cache control operations. -/
def cacheControls : List ((Nat → Scope → Instr) × CctlOp) := [(.cctlInv, .inv), (.cctlWb, .wb), (.cctlWbinv, .wbinv)]

end Sys2Proof.Spec

/-- R179, R180, R183, R186: a global load or store whose active lanes pass every check goes in flight with each lane's address
(and value), raises L or S, and does nothing else but what the walks of its addresses do (R326). -/
def Sys2Proof.Spec.GlobalAccessIssue : Prop :=
  ∀ s t j w ty hint d a off pa, s.curWarp = some (t, j, w) → memHas ty t d → hasPair t a →
    (w.cntL < 63 → w.poisoned [a, a + 1] w.active = none →
      reachable s t w .read (sizeOf' ty) (globalAt w a (off * sizeOf' ty)) pa →
      issuesAt (.ldG ty hint d a off) s t j w (globalAt w a (off * sizeOf' ty)) (plainOp t j w .l (.load false ty hint d ((lanesOf w.active).flatMap fun l => pieces ty
        (shareOf l (globalAt w a (off * sizeOf' ty) l) (pa l) 0))))) ∧
    (w.cntS < 63 → ty ≠ .i8 → ty ≠ .i16 → w.poisoned ([a, a + 1] ++ regsOf ty d) w.active = none →
      reachable s t w .write (sizeOf' ty) (globalAt w a (off * sizeOf' ty)) pa →
      issuesAt (.stG ty hint d a off) s t j w (globalAt w a (off * sizeOf' ty)) (plainOp t j w .s (.store false ty hint (lastWritten ((lanesOf w.active).flatMap fun l =>
        pieces ty (shareOf l (globalAt w a (off * sizeOf' ty) l) (pa l) (storeValue w ty d l))))))) ∧
    (w.cntL = 63 → holds (.ldG ty hint d a off) s) ∧
    (w.cntS = 63 → ty ≠ .i8 → ty ≠ .i16 → holds (.stG ty hint d a off) s)

/-- R89, R185, R186: the scratchpad forms; a lane outside the allocation is F_SCRATCH, and the access waits while an
asynchronous operation holds its granules. -/
def Sys2Proof.Spec.ScratchAccessIssue : Prop :=
  ∀ s t j w ty d a off, s.curWarp = some (t, j, w) → memHas ty t d → has t a →
    inScratch t w (sizeOf' ty) (scratchAt w a (off * sizeOf' ty)) →
    (w.cntL < 63 → w.poisoned [a] w.active = none →
      granulesFree s t w true (sizeOf' ty) (scratchAt w a (off * sizeOf' ty)) →
      issues (.ldS ty d a off) s t j w (plainOp t j w .l (.load true ty .default d ((lanesOf w.active).flatMap fun l => pieces ty
        (shareOf l (scratchAt w a (off * sizeOf' ty) l).toNat (scratchAt w a (off * sizeOf' ty) l).toNat 0))))) ∧
    (w.cntS < 63 → ty ≠ .i8 → ty ≠ .i16 → w.poisoned ([a] ++ regsOf ty d) w.active = none →
      granulesFree s t w false (sizeOf' ty) (scratchAt w a (off * sizeOf' ty)) →
      issues (.stS ty d a off) s t j w (plainOp t j w .s (.store true ty .default (lastWritten ((lanesOf w.active).flatMap fun l =>
        pieces ty (shareOf l (scratchAt w a (off * sizeOf' ty) l).toNat (scratchAt w a (off * sizeOf' ty) l).toNat
          (storeValue w ty d l))))))) ∧
    (w.cntL < 63 → w.poisoned [a] w.active = none →
      ¬ granulesFree s t w true (sizeOf' ty) (scratchAt w a (off * sizeOf' ty)) → holds (.ldS ty d a off) s) ∧
    (w.cntS < 63 → ty ≠ .i8 → ty ≠ .i16 → w.poisoned ([a] ++ regsOf ty d) w.active = none →
      ¬ granulesFree s t w false (sizeOf' ty) (scratchAt w a (off * sizeOf' ty)) → holds (.stS ty d a off) s) ∧
    (w.cntL = 63 → holds (.ldS ty d a off) s) ∧
    (w.cntS = 63 → ty ≠ .i8 → ty ≠ .i16 → holds (.stS ty d a off) s)

/-- R180, R89, R76: of the active lanes' faults the earliest check's is reported, with the lowest lane that fails it: F_ALIGN, then
F_PAGE, F_PERM and F_OWNER of a global address, or F_SCRATCH of a scratchpad address; a store of a sign-extending type and a register
group that the team has not are F_ILLEGAL. -/
def Sys2Proof.Spec.AccessFaults : Prop :=
  (∀ s t j w ty hint d a off l c k, s.curWarp = some (t, j, w) → memHas ty t d → hasPair t a →
    k = AccKind.read ∧ w.cntL < 63 ∧ w.poisoned [a, a + 1] w.active = none ∨
      k = AccKind.write ∧ w.cntS < 63 ∧ ty ≠ .i8 ∧ ty ≠ .i16 ∧ w.poisoned ([a, a + 1] ++ regsOf ty d) w.active = none →
    firstFailing s t w k (sizeOf' ty) (globalAt w a (off * sizeOf' ty)) l c →
    raisesOn (if k = .read then .ldG ty hint d a off else .stG ty hint d a off) s
      (if c = .align then s else walking s t w (globalAt w a (off * sizeOf' ty))) t j w
      { code := c, lane := l, addr := globalAt w a (off * sizeOf' ty) l }) ∧
  (∀ s t j w ty d a off l (load : Bool), s.curWarp = some (t, j, w) → memHas ty t d → has t a →
    load = true ∧ w.cntL < 63 ∧ w.poisoned [a] w.active = none ∨
      load = false ∧ w.cntS < 63 ∧ ty ≠ .i8 ∧ ty ≠ .i16 ∧ w.poisoned ([a] ++ regsOf ty d) w.active = none →
    (firstMisaligned w (sizeOf' ty) (scratchAt w a (off * sizeOf' ty)) l →
      raises (if load then .ldS ty d a off else .stS ty d a off) s t j w
        { code := .align, lane := l, addr := (BitVec.ofInt 64 (scratchAt w a (off * sizeOf' ty) l)).toNat }) ∧
    ((∀ i < 32, w.active.getLsbD i = true → scratchAt w a (off * sizeOf' ty) i % sizeOf' ty = 0) →
      l < 32 → w.active.getLsbD l = true →
      (scratchAt w a (off * sizeOf' ty) l < 0 ∨ t.scratchSize < scratchAt w a (off * sizeOf' ty) l + sizeOf' ty) →
      (∀ i < l, w.active.getLsbD i = true → 0 ≤ scratchAt w a (off * sizeOf' ty) i ∧
        scratchAt w a (off * sizeOf' ty) i + sizeOf' ty ≤ t.scratchSize) →
      raises (if load then .ldS ty d a off else .stS ty d a off) s t j w
        { code := .scratch, lane := l, addr := (BitVec.ofInt 64 (scratchAt w a (off * sizeOf' ty) l)).toNat })) ∧
  (∀ s t j w ty hint d a off, s.curWarp = some (t, j, w) →
    (ty = .i8 ∨ ty = .i16 →
      raises (.stG ty hint d a off) s t j w { code := .illegal } ∧ raises (.stS ty d a off) s t j w { code := .illegal }) ∧
    (¬ (memHas ty t d ∧ hasPair t a) →
      raises (.ldG ty hint d a off) s t j w { code := .illegal } ∧ raises (.stG ty hint d a off) s t j w { code := .illegal }) ∧
    (¬ (memHas ty t d ∧ has t a) →
      raises (.ldS ty d a off) s t j w { code := .illegal } ∧ raises (.stS ty d a off) s t j w { code := .illegal }))

/-- R90, R183, R189, R217: an atomic with a legal order goes in flight with each lane's operands; one that releases waits until
the warp's loads and stores are performed; an order its row excludes is F_ILLEGAL. The model's own choices in it: log 17. -/
def Obligations.AtomicIssue : Prop :=
  ∀ p ∈ atomics, ∀ s t j w d a ty scope ord pro, s.curWarp = some (t, j, w) → atomHas ty t d →
    (∀ r ∈ operandsOf p.1 ty d, atomHas ty t r) → w.ctr (ctrOf p.1) < 63 →
    let n := if atomWide ty then 8 else 4
    (¬ orderLegal p.1 ord pro → raises (p.2.1 d a ty scope ord pro) s t j w { code := .illegal }) ∧
    (hasPair t a → orderLegal p.1 ord pro → releases ord → w.cntL ≠ 0 ∨ w.cntS ≠ 0 →
      holds (p.2.1 d a ty scope ord pro) s) ∧
    (∀ pa, hasPair t a → orderLegal p.1 ord pro → (releases ord → w.cntL = 0 ∧ w.cntS = 0) →
      w.poisoned ([a, a + 1] ++ operandRegs p.1 ty d) w.active = none →
      reachable s t w (if p.1 = .ld then .read else .atomic) n (globalAt w a 0) pa →
      issuesAt (p.2.1 d a ty scope ord pro) s t j w (globalAt w a 0) (plainOp t j w (ctrOf p.1)
        (.atomic false p.1 ty scope ord pro d ((lanesOf w.active).map fun l =>
          atomShare w p.1 ty d l (globalAt w a 0 l) (pa l))))) ∧
    (has t a → ord = .sc → raises (p.2.2 d a ty ord) s t j w { code := .illegal }) ∧
    (has t a → ord ≠ .sc → orderLegal p.1 ord false → (releases ord → w.cntL = 0 ∧ w.cntS = 0) →
      w.poisoned ([a] ++ operandRegs p.1 ty d) w.active = none → inScratch t w n (scratchAt w a 0) →
      granulesFree s t w false n (scratchAt w a 0) →
      issues (p.2.2 d a ty ord) s t j w (plainOp t j w (ctrOf p.1)
        (.atomic true p.1 ty .team ord false d ((lanesOf w.active).map fun l =>
          atomShare w p.1 ty d l (scratchAt w a 0 l).toNat (scratchAt w a 0 l).toNat))))

/-- R91, R192, R217, R220, R223, R224: fences. A fence that releases, promoted or not, waits for the warp's loads and stores and, at device or
system scope or under `.sc`, drains the world's gathered stores of its cluster, and the warp's later atomic writes release at its
scope; one that acquires wider than team scope drops the world's lines of the core's L1; `.sc` takes a ticket, after the operations
of earlier tickets. A promoted one asks every cluster to drain, and completes as one at device scope when all have. -/
def Sys2Proof.Spec.Fences : Prop :=
  ∀ s t j w w' scope ord pro, s.curWarp = some (t, j, w) →
    w' = (if ord = .rel ∨ ord = .acqrel ∨ ord = .sc then
      { w with fenced := some (if ord = .sc ∧ (scope = .team ∨ scope = .clu) then .dev else scope) } else w) →
    (ord = .rlx ∨ pro = true ∧ ord ≠ .acq ∧ ord ≠ .acqrel → raises (.fence scope ord pro) s t j w { code := .illegal }) ∧
    (ord ≠ .rlx → (pro = true → ord = .acq ∨ ord = .acqrel) → releases ord → w.cntL ≠ 0 ∨ w.cntS ≠ 0 →
      holds (.fence scope ord pro) s) ∧
    (ord = .sc → pro = false → w.cntL = 0 → w.cntS = 0 → (∃ o ∈ s.ops, o.ticket ≠ none) → holds (.fence scope ord pro) s) ∧
    (ord ≠ .rlx → pro = false → (releases ord → w.cntL = 0 ∧ w.cntS = 0) → (ord = .sc → ∀ o ∈ s.ops, o.ticket = none) →
      ∃ s1 s2, (s1 = if (ord = .rel ∨ ord = .acqrel ∨ ord = .sc) ∧ (scope = .dev ∨ scope = .sys ∨ ord = .sc)
            then s.drainWorld (t.core / 8) t.world else s) ∧
        (s2 = if (ord = .acq ∨ ord = .acqrel ∨ ord = .sc) ∧ (scope ≠ .team ∨ ord = .sc)
            then s1.dropL1 t.core t.world else s1) ∧
        exec (.fence scope ord pro) s =
          .next (onlyWarp (if ord = .sc then { s2 with ticket := s2.ticket + 1 } else s2) t j w'.advance)) ∧
    (ord = .acq ∨ ord = .acqrel → pro = true → (releases ord → w.cntL = 0 ∧ w.cntS = 0) →
      ((∀ m ∈ s.drains, m.who ≠ some (t.uid, j)) →
        exec (.fence scope ord pro) s = .next (onlyWarp { s with nextUid := s.nextUid + 1
                                                                 drains := s.drains ++ (List.range 16).map fun c =>
          { no := s.nextUid, world := t.world, cluster := c, line := none, who := some (t.uid, j), op := none,
            acked := false } } t j w)) ∧
      ((∃ m ∈ s.drains, m.who = some (t.uid, j)) →
        ((∃ m ∈ s.drains, m.who = some (t.uid, j) ∧ m.acked = false) → holds (.fence scope ord pro) s) ∧
        ((∀ m ∈ s.drains, m.who = some (t.uid, j) → m.acked = true) →
          ∀ s1 s2, s1 = { s with drains := s.drains.filter fun m => m.who != some (t.uid, j) } →
            (s2 = if ord = .acqrel ∧ (scope = .dev ∨ scope = .sys) then s1.drainWorld (t.core / 8) t.world else s1) →
            exec (.fence scope ord pro) s = .next (onlyWarp (s2.dropL1 t.core t.world) t j w'.advance))))

/-- R193, R216: cache control on the line of each active lane's address: at `.clu` in the core's L1 and the cluster's L2, at `.dev` in
every L1 and L2 and in the LLC. `inv` drops clean copies and leaves those in M and O; `wb` makes every copy clean and keeps it; `wbinv`
drops them all. Copies of other lines, worlds and places stay as they are. At `.dev` the world's gathered bytes for the line reach
memory. No register of the warp changes, and a scope other than `.clu` and `.dev` is F_ILLEGAL. -/
def Sys2Proof.Spec.CacheControl : Prop :=
  ∀ s t j w a scope pa, s.curWarp = some (t, j, w) → hasPair t a → w.poisoned [a, a + 1] w.active = none →
    (scope = .team ∨ scope = .sys → ∀ p ∈ cacheControls, raises (p.1 a scope) s t j w { code := .illegal }) ∧
    (scope = .clu ∨ scope = .dev → reachable s t w .read 1 (globalAt w a 0) pa → ∀ p ∈ cacheControls,
      ∃ s1, exec (p.1 a scope) s = .next (onlyWarp s1 t j w.advance) ∧
        (∀ x ∈ s.l2, ¬ (reaches scope t x.cluster ∧ x.world = t.world ∧ namesLine w pa x.line) → x ∈ s1.l2) ∧
        (∀ x ∈ s.l1, ¬ (reachesCore scope t x.core ∧ x.world = t.world ∧ namesLine w pa x.line) → x ∈ s1.l1) ∧
        ∀ n, namesLine w pa n →
          (∀ x ∈ s1.l2, reaches scope t x.cluster → x.world = t.world → x.line = n → match p.2 with
            | .inv => x.state = .m ∨ x.state = .o
            | .wb => x.state = .e ∨ x.state = .s
            | .wbinv => False) ∧
          (p.2 = .inv → ∀ x ∈ s.l2, x.line = n → x.state = .m ∨ x.state = .o → x ∈ s1.l2) ∧
          (p.2 = .wb → ∀ x ∈ s.l2, x.line = n → ∃ y ∈ s1.l2, y = { x with state := y.state }) ∧
          (p.2 ≠ .wb → ∀ x ∈ s1.l1, reachesCore scope t x.core → x.world = t.world → x.line ≠ n) ∧
          (scope = .dev → (∀ x ∈ s1.llc, x.world = t.world → x.line = n → match p.2 with
              | .inv => x.dirty = true
              | .wb => x.dirty = false
              | .wbinv => False) ∧
            (∀ g ∈ s1.gathers, g.world = t.world → g.addr / 128 ≠ n) ∧
            ∀ g ∈ s.gathers, g.world = t.world → g.addr / 128 = n → s.badPackets = [] →
              (∀ g' ∈ s.gathers, g'.addr = g.addr → g' = g) → s1.readMem g.addr 1 = [g.val]))

/-- R194: prefetch skips the lanes whose addresses fail a check. At `.clu` each other lane's line is in the cluster's L2 or has been
asked for; at `.dev` the one line that the lanes name is in the LLC. It changes no register, no L1 and L2 copy, and, with no store
gathered, no byte of memory; a scope other than `.clu` and `.dev` is F_ILLEGAL. -/
def Sys2Proof.Spec.Prefetch : Prop :=
  ∀ s t j w a scope, s.curWarp = some (t, j, w) → hasPair t a → w.poisoned [a, a + 1] w.active = none →
    (scope = .team ∨ scope = .sys → raises (.prefetch a scope) s t j w { code := .illegal }) ∧
    (scope = .clu ∨ scope = .dev → ∃ s1, exec (.prefetch a scope) s = .next (onlyWarp s1 t j w.advance) ∧
      s1.l1 = s.l1 ∧ s1.l2 = s.l2 ∧ (s.gathers = [] → s.badPackets = [] → s1.mem = s.mem) ∧
      (∀ l < 32, ∀ q, w.active.getLsbD l = true → s.translate t.core t.world (globalAt w a 0 l) .read = .ok q →
        scope = .clu → undamaged s → s.potPim (q / 16384) = false → (s.wayMasks t.world).1 ≠ 0 →
        (∃ x ∈ s1.l2, x.cluster = t.core / 8 ∧ x.world = t.world ∧ x.line = q / 128) ∨
          s1.requested (t.core / 8) (q / 128) = true) ∧
      (∀ n, (∃ l < 32, ∃ q, w.active.getLsbD l = true ∧ s.translate t.core t.world (globalAt w a 0 l) .read = .ok q) →
        (∀ l < 32, ∀ q, w.active.getLsbD l = true → s.translate t.core t.world (globalAt w a 0 l) .read = .ok q →
          q / 128 = n) →
        scope = .dev → undamaged s → s.pimCovers (n / 128) = false → (s.wayMasks t.world).2 % 2 ^ 16 ≠ 0 →
        ∃ x ∈ s1.llc, x.world = t.world ∧ x.line = n)) ∧
    (scope = .clu ∨ scope = .dev → (∀ l < 32, w.active.getLsbD l = true → ∃ c,
        s.translate t.core t.world (globalAt w a 0 l) .read = .error c) →
      leavesOn (.prefetch a scope) s (walking s t w (globalAt w a 0)) t j w)

/-- R195, R196, R230: `waitmon` completes at once when the monitors run short or a line it learnt of was written, else blocks with
the lanes' distinct lines monitored; `waitge` completes when every active lane's doubleword has reached its threshold, and
blocks otherwise, and, on a global word, while a `mark` of its team is outstanding. -/
def Sys2Proof.Spec.MemoryWaits : Prop :=
  ∀ s t j w, s.curWarp = some (t, j, w) →
    (∀ a pa lines, hasPair t a → w.poisoned [a, a + 1] w.active = none → reachable s t w .read 1 (globalAt w a 0) pa →
      lines = distinctLines ((lanesOf w.active).map fun l => pa l / 128) →
      (64 < s.monitorsUsed t.core + lines.length ∨ (∃ n ∈ lines, KMap.find w.watched n = some true) ∨ t.preempting = true →
        leavesOn (.waitmon a) s (walking s t w (globalAt w a 0)) t j w) ∧
      (s.monitorsUsed t.core + lines.length ≤ 64 → (∀ n ∈ lines, KMap.find w.watched n ≠ some true) → t.preempting = false →
        exec (.waitmon a) s = .next (onlyWarp (walking s t w (globalAt w a 0)) t j
          { stops w .waitmon with monitors := lines }))) ∧
    (∀ d a pa s1 s2, hasPair t d → hasPair t a → w.poisoned [d, d + 1, a, a + 1] w.active = none →
      reachable s t w .read 8 (globalAt w a 0) pa → s1 = walking s t w (globalAt w a 0) →
      s2 = s1.readWaited t.core t.world (linesRead w (globalAt w a 0) pa) →
      (¬ noMarks s t → exec (.waitge d a false) s = .next (onlyWarp s1 t j (stops w (.waitge d a false)))) ∧
      (noMarks s t → (∀ l < 32, w.active.getLsbD l = true →
          (w.vget64 d l).toNat ≤ leVal (s2.clusterRead (t.core / 8) t.world (pa l) 8)) →
        exec (.waitge d a false) s = .next (onlyWarp (s2.dropL1 t.core t.world) t j w.advance)) ∧
      (noMarks s t → (∃ l < 32, w.active.getLsbD l = true ∧
          leVal (s2.clusterRead (t.core / 8) t.world (pa l) 8) < (w.vget64 d l).toNat) →
        exec (.waitge d a false) s = .next (onlyWarp s2 t j (stops w (.waitge d a false))))) ∧
    (∀ d a, hasPair t d → has t a → w.poisoned [d, d + 1, a] w.active = none → inScratch t w 8 (scratchAt w a 0) →
      ((∀ l < 32, w.active.getLsbD l = true →
        (w.vget64 d l).toNat ≤ leVal (t.scratchRead (scratchAt w a 0 l).toNat 8)) →
        leaves (.waitge d a true) s t j w) ∧
      ((∃ l < 32, w.active.getLsbD l = true ∧
        leVal (t.scratchRead (scratchAt w a 0 l).toNat 8) < (w.vget64 d l).toNat) →
        moves (.waitge d a true) s t j (stops w (.waitge d a true))))

/-- R39, R76, R79, R80: a vector register that the team has not, a pair or group that does not begin at a multiple of its size, and a
vector shift by an immediate outside 0 to 31 are F_ILLEGAL, with nothing done. -/
def Sys2Proof.Spec.VectorIllegal : Prop :=
  ∀ s t j w d a b, s.curWarp = some (t, j, w) →
    (∀ p ∈ vectorOps, ¬ (has t d ∧ has t a ∧ has t b) → raises (p.1 d a b) s t j w { code := .illegal }) ∧
    (∀ p ∈ vectorUnary, ¬ (has t d ∧ has t a) → raises (p.1 d a) s t j w { code := .illegal }) ∧
    (¬ (has t d ∧ has t a ∧ has t b) → raises (.vMad d a b) s t j w { code := .illegal } ∧
      ∀ p, raises (.sel d a b p) s t j w { code := .illegal }) ∧
    (∀ p ∈ vectorImm, ∀ imm, ¬ (has t d ∧ has t a) → raises (p.1 d a imm) s t j w { code := .illegal }) ∧
    (∀ p ∈ vectorImmShifts, ∀ imm, ¬ (has t d ∧ has t a) ∨ imm < 0 ∨ 31 < imm →
      raises (p.1 d a imm) s t j w { code := .illegal }) ∧
    (∀ imm l, ¬ has t d → raises (.viMov d imm) s t j w { code := .illegal } ∧
      raises (.sets a d) s t j w { code := .illegal } ∧ raises (.gets a d l) s t j w { code := .illegal } ∧
      raises (.getsFirst a d) s t j w { code := .illegal }) ∧
    (∀ p ∈ vector64, ¬ (hasPair t d ∧ hasPair t a ∧ hasPair t b) → raises (p.1 d a b) s t j w { code := .illegal }) ∧
    (∀ p ∈ vector64Shifts, ¬ (hasPair t d ∧ hasPair t a ∧ has t b) → raises (p.1 d a b) s t j w { code := .illegal }) ∧
    (∀ p ∈ vectorWiden, ¬ (hasPair t d ∧ has t a ∧ has t b) → raises (p.1 d a b) s t j w { code := .illegal }) ∧
    (∀ p ∈ vector64Counts, ¬ (has t d ∧ hasPair t a) → raises (p.1 d a) s t j w { code := .illegal }) ∧
    (∀ p ∈ vectorCompares, ∀ ty, ¬ (cmpLegal ty t a ∧ cmpLegal ty t b) → raises (p.1 d a b ty) s t j w { code := .illegal }) ∧
    (∀ p ∈ fpBinary, ¬ (fpHas p.2.1 t d ∧ fpHas p.2.1 t a ∧ fpHas p.2.1 t b) →
      raises (p.1 d a b) s t j w { code := .illegal }) ∧
    (∀ p ∈ fpUnary, ¬ (fpHas p.2.1 t d ∧ fpHas p.2.1 t a) → raises (p.1 d a) s t j w { code := .illegal }) ∧
    (∀ p ∈ fpCompares, ∀ f64, ¬ (fpHas f64 t a ∧ fpHas f64 t b) → raises (p.1 d a b f64) s t j w { code := .illegal }) ∧
    (∀ k fmt sg q seeds s0, sees s t j false q seeds s0 → vrotFmt k fmt →
      ¬ (groupHas t d (blkRegs k) (if fmt = .f32i8 then 2 * blkRegs k else blkRegs k) ∧
        groupHas t a (blkRegs k) (blkRegs k)) → raisesOn (.vrot d a k sg fmt) s s0 t j w { code := .illegal }) ∧
    (∀ k fmt sg q seeds s0, sees s t j false q seeds s0 → virotFmt k fmt →
      ¬ (groupHas t d (blkRegs k) (blkRegs k) ∧
        groupHas t a (blkRegs k) (if fmt = .i8f32 then 2 * blkRegs k else blkRegs k)) →
      raisesOn (.virot d a k sg fmt) s s0 t j w { code := .illegal })

/-- R181: an instruction that reads a poisoned register, in a lane of which it reads it, raises the mark's deferred fault and does
nothing else: arithmetic, compares, addresses, stored values and an atomic's operands. -/
def Sys2Proof.Spec.PoisonedOperands : Prop :=
  ∀ s t j w d a b l p, s.curWarp = some (t, j, w) →
    (firstMark w [a, b] w.active l p → has t d → has t a → has t b →
      (∀ q ∈ vectorOps, raises (q.1 d a b) s t j w (ofMark l p)) ∧
      ∀ k, raises (.sel d a b k) s t j w (ofMark l p)) ∧
    (firstMark w [a] w.active l p → has t d → has t a →
      (∀ q ∈ vectorUnary, raises (q.1 d a) s t j w (ofMark l p)) ∧
      (∀ q ∈ vectorImm, ∀ imm, raises (q.1 d a imm) s t j w (ofMark l p))) ∧
    (firstMark w [a, a + 1, b, b + 1] w.active l p → hasPair t d → hasPair t a → hasPair t b →
      ∀ q ∈ vector64, raises (q.1 d a b) s t j w (ofMark l p)) ∧
    (∀ q ∈ vectorCompares, ∀ ty, firstMark w (cmpRegs ty a ++ cmpRegs ty b) w.active l p → cmpLegal ty t a → cmpLegal ty t b →
      raises (q.1 d a b ty) s t j w (ofMark l p)) ∧
    (∀ q ∈ fpBinary, firstMark w (fpReads q.2.1 a ++ fpReads q.2.1 b) w.active l p →
      fpHas q.2.1 t d → fpHas q.2.1 t a → fpHas q.2.1 t b → raises (q.1 d a b) s t j w (ofMark l p)) ∧
    (∀ ty hint off, memHas ty t d → hasPair t a →
      (w.cntL < 63 → firstMark w [a, a + 1] w.active l p → raises (.ldG ty hint d a off) s t j w (ofMark l p)) ∧
      (w.cntS < 63 → ty ≠ .i8 → ty ≠ .i16 → firstMark w ([a, a + 1] ++ regsOf ty d) w.active l p →
        raises (.stG ty hint d a off) s t j w (ofMark l p))) ∧
    (∀ q ∈ atomics, ∀ ty scope ord pro, atomHas ty t d → (∀ r ∈ operandsOf q.1 ty d, atomHas ty t r) → hasPair t a →
      w.ctr (ctrOf q.1) < 63 → orderLegal q.1 ord pro → (releases ord → w.cntL = 0 ∧ w.cntS = 0) →
      firstMark w ([a, a + 1] ++ operandRegs q.1 ty d) w.active l p →
      raises (q.2.1 d a ty scope ord pro) s t j w (ofMark l p)) ∧
    (∀ src imm sm, ∀ i ∈ crossLane t d a src imm sm, i.2.1 → w.park = none → w.active &&& ~~~(w.sget sm) = 0 →
      parts w sm &&& ~~~w.active = 0 → firstMark w i.2.2 (parts w sm) l p → raises i.1 s t j w (ofMark l p))

namespace Sys2Proof.Spec

/-! ### System instructions and `rep` (R82, R93, R112, R113, R151, R152, R175 to R178, R357, R358) -/

/-- Major opcodes of the words `rep` may repeat. -/
def repeatable : List Nat := [0x00, 0x01, 0x10, 0x11, 0x12, 0x14, 0x15, 0x17, 0x18, 0x30, 0x31, 0x32, 0x33]

/-- The warp's trap frame in its team's context area (R357, R360). -/
def frameOf (t : Team) (j : Nat) : Nat := t.ctxBase + 49408 + 64 * j

/-- A write by warp `j` of something that held `v` before: the writer sees the new value alone, and any other warp may see `v` besides
what it could see before (R138, R176, R201). -/
def leavesOlder (x y : Team) (j : Nat) (what : OldWhat) (v : DWord) : Prop :=
  ∀ i u z, i < x.warps.length → (maySee y.old i u z ↔
    if u = what then i ≠ j ∧ (z = v ∨ maySee x.old i u z) else maySee x.old i u z)

/-- The values that `eret` takes from a frame pass R358's checks, and its reserved bytes are zero (R7, R357). -/
def frameGood (w : Warp) (b : List Byte) : Prop :=
  leVal ((b.drop 16).take 4) = w.stack.length ∧ leVal ((b.drop 8).take 1) ≤ 14 ∧
    BitVec.ofNat 32 (leVal ((b.drop 12).take 4)) &&& ~~~w.live = 0 ∧ leVal ((b.drop 20).take 4) = 0 ∧
    leVal ((b.drop 48).take 16) = 0

/-- A number in the trap frame's bytes. -/
def inFrame (b : List Byte) (off n : Nat) : Nat := leVal ((b.drop off).take n)

end Sys2Proof.Spec

/-- R93, R112, R113, R175, R176: `getsr` reads each register the warp may read into a scalar register or pair, or LANEID into
a vector register; any other number is F_ILLEGAL. -/
def Sys2Proof.Spec.ReadSystemRegisters : Prop :=
  ∀ s t j w d, s.curWarp = some (t, j, w) →
    (has t d → ∃ w', leaves (.getsr d 2) s t j w' ∧ laneResult w w' d fun l => BitVec.ofNat 32 l) ∧
    (d < 64 →
      leaves (.getsr d 0) s t j (w.sset d w.fpmode) ∧
      leaves (.getsr d 1) s t j (w.sset d (BitVec.ofNat 32 w.fpstat.toNat)) ∧
      leaves (.getsr d 3) s t j (w.sset d (BitVec.ofNat 32 j)) ∧
      leaves (.getsr d 4) s t j (w.sset d (BitVec.ofNat 32 t.teamId)) ∧
      leaves (.getsr d 5) s t j (w.sset d (BitVec.ofNat 32 t.world)) ∧
      leaves (.getsr d 6) s t j (w.sset d w.repcnt) ∧
      leaves (.getsr d 12) s t j (w.sset d s.healthWord) ∧
      leaves (.getsr d 13) s t j (w.sset d (s.waymask t.world))) ∧
    (d < 64 → d % 2 = 0 →
      leaves (.getsr d 7) s t j (w.sset64 d w.tprog) ∧ leaves (.getsr d 8) s t j (w.sset64 d t.asbase) ∧
      leaves (.getsr d 9) s t j (w.sset64 d t.aslimit) ∧ leaves (.getsr d 10) s t j (w.sset64 d t.astop) ∧
      leaves (.getsr d 11) s t j (w.sset64 d (s.world t.world).trapvec)) ∧
    (∀ r, 13 < r → raises (.getsr d r) s t j w { code := .illegal })

/-- R112, R113, R175, R176: `setsr` writes FPMODE's three bits, FPSTAT's five, REPCNT, the team's activation-stack registers
(of which a warp that no barrier orders after the write may still see the old value) and the world's TRAPVEC; a TRAPVEC that names no
header, and any other number, is F_ILLEGAL. -/
def Sys2Proof.Spec.WriteSystemRegisters : Prop :=
  ∀ s t j w a, s.curWarp = some (t, j, w) →
    leaves (.setsr a 0) s t j { w with fpmode := BitVec.ofNat 32 ((w.sget a).toNat % 8) } ∧
    leaves (.setsr a 1) s t j { w with fpstat := BitVec.ofNat 5 (w.sget a).toNat } ∧
    leaves (.setsr a 6) s t j { w with repcnt := w.sget a } ∧
    (a % 2 = 0 →
      (∃ g : Team → List OldValue, exec (.setsr a 8) s = .next (onlyWarp (s.updTeam t.uid fun x =>
          { x with asbase := w.sget64 a, old := g x }) t j w.advance) ∧
        ∀ x, leavesOlder x { x with old := g x } j (.stack 0) x.asbase) ∧
      (∃ g : Team → List OldValue, exec (.setsr a 9) s = .next (onlyWarp (s.updTeam t.uid fun x =>
          { x with aslimit := w.sget64 a, old := g x }) t j w.advance) ∧
        ∀ x, leavesOlder x { x with old := g x } j (.stack 1) x.aslimit) ∧
      (∃ g : Team → List OldValue, exec (.setsr a 10) s = .next (onlyWarp (s.updTeam t.uid fun x =>
          { x with astop := w.sget64 a, old := g x }) t j w.advance) ∧
        ∀ x, leavesOlder x { x with old := g x } j (.stack 2) x.astop) ∧
      ((w.sget64 a).toNat % 4 = 0 → (w.sget64 a).toNat < 2 ^ 58 →
        exec (.setsr a 11) s = .next (onlyWarp
          (s.setWorld t.world { s.world t.world with trapvec := w.sget64 a }) t j w.advance)) ∧
      ((w.sget64 a).toNat % 4 ≠ 0 ∨ 2 ^ 58 ≤ (w.sget64 a).toNat → raises (.setsr a 11) s t j w { code := .illegal })) ∧
    (∀ r, r ∉ [0, 1, 6, 8, 9, 10, 11] → raises (.setsr a r) s t j w { code := .illegal })

/-- R357: `trap` saves the resume point, ACTIVE, the PC and s56 to s59 in the warp's trap frame and enters the world's handler
with the frame's address, the trap number and zero in s56 to s59, INTRAP 1; with no handler, or in one, the warp is suspended with F_TRAP. A frame that fails a check ends the team. -/
def Sys2Proof.Spec.TrapEntry : Prop :=
  ∀ s t j w n, s.curWarp = some (t, j, w) →
    ((s.world t.world).trapvec = 0 ∨ w.intrap = true → raises (.trap n) s t j w { code := .trap, detail := n }) ∧
    (∀ e s1 f, (s.world t.world).trapvec ≠ 0 → w.intrap = false →
      f = leBytes 8 w.advance.hdr.toNat ++ leBytes 1 w.advance.idx ++ leBytes 1 w.idx ++ leBytes 2 n ++
        leBytes 4 w.active.toNat ++ leBytes 4 w.stack.length ++ leBytes 4 0 ++ leBytes 8 w.hdr.toNat ++
        leBytes 4 (w.sget 56).toNat ++ leBytes 4 (w.sget 57).toNat ++ leBytes 4 (w.sget 58).toNat ++
        leBytes 4 (w.sget 59).toNat ++ leBytes 16 0 →
      s.storeVirt (writerOf t j w) t.world (frameOf t j) f = (e, s1) →
      (∀ c va, e = some (c, va) → t.ctxLen ≠ 0 → ∃ s', exec (.trap n) s = .next s' ∧ teamLost s1 s' t va) ∧
      (e = none → ∃ w', exec (.trap n) s = .next (onlyWarp s1 t j w') ∧ w'.sget64 56 = BitVec.ofNat 64 (frameOf t j) ∧
        w'.sget 58 = BitVec.ofNat 32 n ∧ w'.sget 59 = 0 ∧ (∀ r, r < 56 ∨ 59 < r → w'.sget r = w.sget r) ∧
        w' = { w with
          sregs := w'.sregs, hdr := (s.world t.world).trapvec, idx := 0, clause := none, intrap := true,
          yielded := w.yielded || ends w }))

/-- R358: `eret` outside the handler is F_ILLEGAL; in it, it waits for the team's marks and reads the frame. A read that fails raises
its fault, and one that meets a data fault the deferred one. When the reconvergence stack is as deep as saved, the index lies in a
clause, ACTIVE names live lanes and the reserved bytes are zero, it restores the PC, ACTIVE and s56 to s59 with INTRAP 0; any other
frame is F_ILLEGAL. -/
def Sys2Proof.Spec.TrapReturn : Prop :=
  ∀ s t j w, s.curWarp = some (t, j, w) →
    (w.intrap = false → raises .eret s t j w { code := .illegal }) ∧
    (w.intrap = true → ¬ noMarks s t → holds .eret s) ∧
    (∀ r s1, w.intrap = true → noMarks s t →
      s.readVirt t.core t.world (some (logAgent 0 t.core)) (frameOf t j) 64 = (r, s1) →
      (∀ e, r = .error e → raisesOn .eret s s1 t j w (ofRead w e)) ∧
      (∀ b, r = .ok b →
        (frameGood w b → ∃ w', exec .eret s = .next (onlyWarp s1 t j w') ∧ w'.hdr = BitVec.ofNat 64 (inFrame b 0 8) ∧
          w'.idx = inFrame b 8 1 ∧ w'.clause = none ∧ w'.active = BitVec.ofNat 32 (inFrame b 12 4) ∧ w'.intrap = false ∧
          (∀ i < 4, w'.sget (56 + i) = BitVec.ofNat 32 (inFrame b (32 + 4 * i) 4)) ∧
          (∀ r, r < 56 ∨ 59 < r → w'.sget r = w.sget r) ∧
          w' = { w with
            sregs := w'.sregs, hdr := w'.hdr, idx := w'.idx, clause := none, active := w'.active, intrap := false,
            yielded := w.yielded || ends w }) ∧
        (¬ frameGood w b → raisesOn .eret s s1 t j w { code := .illegal })))

/-- R177, R236: `hostcall` is ready once its record can enter the world's event queue behind no other record of the warp; the
record names the code, the warp, the team and the scalar pair; while it cannot enter, it is held. -/
def Obligations.HostCalls : Prop :=
  ∀ s t j w a c x, s.curWarp = some (t, j, w) → x = sourceKey t.world (t.core * 64 + w.slot) →
    (a % 2 = 1 → raises (.hostcall a c) s t j w { code := .illegal }) ∧
    (∀ s1, a % 2 = 0 → ((KMap.find s.sources x).getD Source.reset).pending = [] →
      s1 = (s.post 4 t.world (t.core * 64 + w.slot)
        (leBytes 2 c ++ leBytes 2 j ++ leBytes 4 t.teamId ++ leBytes 8 (w.sget64 a).toNat ++ leBytes 4 0)).enterNext x →
      (((KMap.find s1.sources x).getD Source.reset).pending = [] →
        exec (.hostcall a c) s = .next (onlyWarp s1 t j w.advance)) ∧
      (((KMap.find s1.sources x).getD Source.reset).pending ≠ [] → holds (.hostcall a c) s)) ∧
    (∀ k, a % 2 = 0 → KMap.find s.sources x = some k → k.pending ≠ [] → holds (.hostcall a c) s)

/-- R178, R361: `sleep` blocks the warp, or completes at once when the team is being pre-empted. -/
def Sys2Proof.Spec.Sleep : Prop :=
  ∀ s t j w n, s.curWarp = some (t, j, w) →
    (t.preempting = false → moves (.sleep n) s t j (stops w .sleeping)) ∧
    (t.preempting = true → leaves (.sleep n) s t j w)

/-- R82, R151, R152: at each opportunity `rep` issues the next word as its own instruction with the selected fields stepped, and
stays at the `rep` with REPCNT one more, or after the last repeat moves past both words with REPCNT 0; a repeat that faults leaves
the PC and REPCNT. -/
def Sys2Proof.Spec.Repeat : Prop :=
  ∀ s t j w h cnt step sz v u i, s.curWarp = some (t, j, w) → w.clause = some h →
    s.fetchWord t (wordsFrom w 1).toNat = .ok v → wordCheck h (w.idx + 1) v = none → field v 31 26 ∈ repeatable →
    stepWord step sz w.repcnt.toNat v = some u → field u 31 26 = field v 31 26 → decodeWord u = .ok i →
    w.repcnt.toNat ≤ cnt →
    ∀ s' t' w', exec i (s.fetched t (wordsFrom w 1).toNat) = .next s' → s'.held = false → s'.findWarp t.uid j = some (t', w') →
      (w'.status = .running → exec (.rep cnt step sz) s = .next (s'.updWarp t.uid j fun x =>
        if w.repcnt.toNat < cnt then
          { x with
            hdr := w.hdr, idx := w.idx, clause := w.clause, repcnt := BitVec.ofNat 32 (w.repcnt.toNat + 1), inRep := true }
        else Warp.advance { x with repcnt := 0, inRep := false })) ∧
      (w'.status ≠ .running → exec (.rep cnt step sz) s = .next s')

/-- R151: the fields the step selects rise by the repeat's number times 2^sz; one that leaves its range makes the repeat
F_ILLEGAL, as is a word of another format or one without a field to step, whatever REPCNT; with REPCNT at or past the count both
words are passed; a repeated `v.add` gives its result and leaves the PC at the `rep`, or after both words with REPCNT 0. -/
def Sys2Proof.Spec.RepeatSteps : Prop :=
  (∀ d a b sz k v, d < 128 → a < 128 → b < 128 → encode (.vAdd d a b) = some v →
    (d + k * 2 ^ sz < 128 → stepWord 4 sz k v = encode (.vAdd (d + k * 2 ^ sz) a b)) ∧
    (a + k * 2 ^ sz < 128 → stepWord 2 sz k v = encode (.vAdd d (a + k * 2 ^ sz) b)) ∧
    (b + k * 2 ^ sz < 128 → stepWord 1 sz k v = encode (.vAdd d a (b + k * 2 ^ sz))) ∧
    (128 ≤ d + k * 2 ^ sz → stepWord 4 sz k v = none)) ∧
  (∀ s t j w h cnt step sz v, s.curWarp = some (t, j, w) → w.clause = some h →
    s.fetchWord t (wordsFrom w 1).toNat = .ok v → wordCheck h (w.idx + 1) v = none → w.repcnt.toNat ≤ cnt →
    stepWord step sz w.repcnt.toNat v = none →
    raisesOn (.rep cnt step sz) s (s.fetched t (wordsFrom w 1).toNat) t j w { code := .illegal }) ∧
  (∀ s t j w cnt step sz e, s.curWarp = some (t, j, w) → s.fetchWord t (wordsFrom w 1).toNat = .error e →
    raisesOn (.rep cnt step sz) s (s.fetched t (wordsFrom w 1).toNat) t j w (ofRead w e)) ∧
  (∀ s t j w cnt step sz v, s.curWarp = some (t, j, w) → s.fetchWord t (wordsFrom w 1).toNat = .ok v →
    (field v 31 26 ∉ repeatable ∨ stepWord step 0 0 v = none →
      raisesOn (.rep cnt step sz) s (s.fetched t (wordsFrom w 1).toNat) t j w { code := .illegal }) ∧
    (stepWord step 0 0 v ≠ none → cnt < w.repcnt.toNat →
      exec (.rep cnt step sz) s = .next (onlyWarp (s.fetched t (wordsFrom w 1).toNat) t j
        (Warp.advance (Warp.advance { w with repcnt := 0, inRep := false }))))) ∧
  (∀ s t j w h cnt step sz v u d a b, s.curWarp = some (t, j, w) → w.clause = some h → w.idx + 1 < h.count →
    w.status = .running → s.held = false → s.fetchWord t (wordsFrom w 1).toNat = .ok v →
    wordCheck h (w.idx + 1) v = none → field v 31 26 ∈ repeatable → stepWord step sz w.repcnt.toNat v = some u →
    field u 31 26 = field v 31 26 → decodeWord u = .ok (.vAdd d a b) → w.repcnt.toNat ≤ cnt →
    has t d → has t a → has t b → w.poisoned [a, b] w.active = none →
    ∃ w', exec (.rep cnt step sz) s = .next (onlyWarp (s.fetched t (wordsFrom w 1).toNat) t j
        (if w.repcnt.toNat < cnt then { w' with repcnt := BitVec.ofNat 32 (w.repcnt.toNat + 1), inRep := true }
        else Warp.advance (Warp.advance { w' with repcnt := 0, inRep := false }))) ∧
      laneResult w w' d fun l => w.vget a l + w.vget b l)

namespace Sys2Proof.Spec

/-! ### Instructions that start the engines (R197 to R208, R238 to R276, R304 to R315) -/

/-- The instruction completes at issue with the state as `st` and `o` in flight as its newest operation, counter and token
raised; the rest of the warp is as it was. -/
def launches (i : Instr) (s : State) (t : Team) (j : Nat) (w : Warp) (st : State) (o : Op) : Prop :=
  exec i s = .next (onlyWarp { st with ops := st.ops ++ [{ o with id := st.nextUid }], nextUid := st.nextUid + 1 } t j
    (w.raiseCtr o.ctr o.kn).advance)

/-- Room in a counter and a token. -/
def roomFor (w : Warp) (ctr : Ctr) (kn : Nat) : Prop := w.ctr ctr < 63 ∧ w.token kn < 63

/-- The pair `d` names a block of `n` bytes aligned to `al` that passes the checks, with no mark of the team outstanding: its address,
the physical address of its first byte, its bytes, and the state once they are read (R180, R204, R230). -/
def blockAt (s s1 : State) (t : Team) (w : Warp) (d al n a pa : Nat) (b : List Byte) : Prop :=
  d % 2 = 0 ∧ noMarks s t ∧ a = (w.sget64 d).toNat ∧ a % al = 0 ∧ s.checkRange t.core t.world a n .atomic = .ok () ∧
    s.translate t.core t.world a .atomic = .ok pa ∧
    s.readVirt t.core t.world (some (logAgent 0 t.core)) a n = (.ok b, s1)

/-- The slots are loaded, without a data fault, and pass R199. -/
def slotsReady (s : State) (t : Team) (slots : List (Nat × Bool)) : Prop :=
  ∀ p ∈ slots, s.slotBusy t.uid p.1 = false ∧ t.slotFault p.1 = none ∧ t.mapOk p.1 p.2 = true

/-- Orders 7 and 8 of R239 met with `pages`, and room in the scoreboard. -/
def operandsReady (s : State) (t : Team) (ops : List Operand) (rd wr : List (Nat × Nat)) (pages : KMap Nat) : Prop :=
  s.holdOperands t ops rd wr = .ok pages ∧ operandsHeld t ops = true ∧ fewIvs ops = true ∧
    (readIvs ops = [] ∧ writeIvs ops = [] ∨ s.scoreboardFull t.core = false)

/-- An operation of warp `j` in flight. -/
def engineOp (t : Team) (j : Nat) (w : Warp) (kn : Option Nat) (ctr : Option Ctr) (a pa : Nat) (kind : OpKind)
    (rd wr : List (Nat × Nat)) (tiles : List Nat) : Op :=
  { id := 0, world := t.world, core := t.core, team := t.uid, warp := j, hdr := w.hdr, idx := w.idx, kn := kn, ctr := ctr,
    opaddr := a, blkpa := pa, kind := kind, reads := rd, writes := wr, readDone := false, writeDone := false, tiles := tiles,
    ticket := none, fenced := w.fenced, parked := none, rid := none, trouble := none, inTprog := false, paused := false }

/-- A tensor operation on operands in flight. -/
def tensorOp (t : Team) (j : Nat) (w : Warp) (kn a pa : Nat) (x : Tensor) (pages : KMap Nat) (ops : List Operand)
    (tiles : List Nat) : Op :=
  engineOp t j w (some kn) (some .t) a pa (.tensor { x with pages := pages }) (readIvs ops) (writeIvs ops) tiles

/-- A number in a block, and a slot byte's slot. -/
def inBlock (b : List Byte) (off n : Nat) : Nat := leVal ((b.drop off).take n)
def slotIn (b : List Byte) (i : Nat) : Nat := inBlock b i 1 % 16
def namesNone (b : List Byte) (i : Nat) : Prop := 128 ≤ inBlock b i 1

/-- Instructions with a parameter block named by a pair: the counter they raise and the block's alignment and size. -/
noncomputable def blockForms : List ((Nat → Nat → Instr) × Ctr × Nat) :=
  [(.cpy, .c, 128), (.cpym, .c, 128), (.rot, .t, 128), (.irot, .t, 128), (.accLd, .t, 64), (.accSt, .t, 64),
   (.layerF, .t, 128), (.layerT, .t, 128), (.layerP, .t, 128), (.reelSmax, .t, 64), (.reelNorm, .t, 64),
   (.reelDsmax, .t, 64), (.reelDnorm, .t, 64), (.reelStat, .t, 64), (.reelClr, .t, 64)]

/-- The fields of a slot that `tmset` writes, by selector: offset and bytes (R201). -/
def slotFields : List (Nat × Nat × Nat) :=
  [(0, 0, 4), (1, 4, 4), (2, 16, 4), (3, 20, 4), (4, 24, 4), (5, 28, 4), (6, 32, 4), (7, 40, 8), (8, 48, 8), (9, 56, 8),
   (10, 64, 8), (11, 72, 4), (12, 12, 2), (13, 88, 2), (14, 90, 2), (15, 92, 1), (16, 80, 4), (17, 84, 4)]

/-- Reel instructions and their kinds; layer instructions, their kinds and their operation in the access log. -/
noncomputable def reels : List ((Nat → Nat → Instr) × TensorKind) :=
  [(.reelSmax, .smax), (.reelNorm, .norm), (.reelDsmax, .dsmax), (.reelDnorm, .dnorm), (.reelStat, .stat), (.reelClr, .clr)]
noncomputable def layers : List ((Nat → Nat → Instr) × TensorKind × Nat) := [(.layerF, .layerF, 4), (.layerT, .layerT, 5), (.layerP, .layerP, 6)]

end Sys2Proof.Spec

/-- R180, R204, R230, R239, R349, R383: a parameter block at an odd pair is F_ILLEGAL; one that is misaligned is F_ALIGN and one that
fails a check faults as that check says, with the block's address as OPADDR and nothing done; a data fault of a line of it is the
instruction's deferred one; without room in its counter or token, and while a `mark` of its team is outstanding, the instruction waits. -/
def Sys2Proof.Spec.BlockFaults : Prop :=
  ∀ p ∈ blockForms, ∀ s t j w kn d q sg s0 a, s.curWarp = some (t, j, w) → sees s t j false q sg s0 → a = (w.sget64 d).toNat →
    (d % 2 = 1 → raisesOn (p.1 kn d) s s0 t j w { code := .illegal }) ∧
    (d % 2 = 0 → w.ctr p.2.1 = 63 ∨ w.token kn = 63 → holds (p.1 kn d) s) ∧
    (roomFor w p.2.1 kn → d % 2 = 0 → a % p.2.2 ≠ 0 →
      raisesOn (p.1 kn d) s s0 t j w { code := .align, addr := a, opaddr := a }) ∧
    (∀ e, roomFor w p.2.1 kn → d % 2 = 0 → a % p.2.2 = 0 → s0.checkRange t.core t.world a p.2.2 .atomic = .error e →
      raisesOn (p.1 kn d) s (s0.walked t.core t.world (pageStarts a p.2.2)) t j w { code := e.1, addr := e.2, opaddr := a }) ∧
    (roomFor w p.2.1 kn → d % 2 = 0 → a % p.2.2 = 0 → s0.checkRange t.core t.world a p.2.2 .atomic = .ok () →
      (¬ noMarks s t → holds (p.1 kn d) s) ∧
      (∀ e s1, noMarks s t → s0.readVirt t.core t.world (some (logAgent 0 t.core)) a p.2.2 = (.error e, s1) →
        raisesOn (p.1 kn d) s s1 t j w (ofRead w e)))

/-- R138, R176, R201, R202: what a warp sees at issue of its team's slots, its world's seeds and, where the instruction reads them, of
ASBASE, ASLIMIT and ASTOP: each is the current value, or one that another warp replaced and no barrier orders the warp after. With
no such value it is the team as it is; nothing else of the team differs. -/
def Sys2Proof.Spec.Views : Prop :=
  ∀ (s : State) t j stack q sg s0, sees s t j stack q sg s0 →
    ((∀ what v, ¬ maySee t.old j what v) → q = t ∧ sg = (s.world t.world).sg ∧ s0 = s) ∧
    q = { t with slots := q.slots, asbase := q.asbase, aslimit := q.aslimit, astop := q.astop } ∧
    (∃ n, s0 = { s with fresh := n }) ∧
    (∀ r < 3, q.asReg r = t.asReg r ∨ stack = true ∧ maySee t.old j (.stack r) (q.asReg r)) ∧
    (∀ k, Sparse.get 0 sg k = Sparse.get 0 (s.world t.world).sg k ∨
      ∃ v, maySee t.old j (.seed k) v ∧ Sparse.get 0 sg k = v.setWidth 32) ∧
    (∀ k, Sparse.get 0 q.slots k = Sparse.get 0 t.slots k ∨
      ∃ slot off n v i, maySee t.old j (.field slot off n) v ∧ k = slot * 128 + off + i ∧ i < n ∧
        (Sparse.get 0 q.slots k = (leBytes n v.toNat).getD i 0 ∨ 8 < n))

/-- R200 to R202: `tmld` starts a load of a slot from an aligned, readable line; `tmset` writes one field of a slot, and a value too
wide for its field is F_ILLEGAL; `sgset` writes a seed register of the world; slots beyond 15 and seeds beyond 7 are F_ILLEGAL. The
writing warp sees what it wrote; the team's other warps, and for a seed those of the world's other teams, may see the value before. -/
def Sys2Proof.Spec.MapInstructions : Prop :=
  ∀ s t j w, s.curWarp = some (t, j, w) →
    (∀ kn d a pa, a % 2 = 0 → (w.sget d).toNat < 16 → roomFor w .l kn → s.slotBusy t.uid (w.sget d).toNat = false →
      (w.sget64 a).toNat % 128 = 0 → s.translate t.core t.world (w.sget64 a).toNat .read = .ok pa →
      launches (.tmld kn d a) s t j w (s.walked t.core t.world [(w.sget64 a).toNat])
        (engineOp t j w (some kn) (some .l) 0 0 (.tmld (w.sget d).toNat (w.sget64 a).toNat pa) [] [] [])) ∧
    (∀ kn d a, 16 ≤ (w.sget d).toNat → raises (.tmld kn d a) s t j w { code := .illegal }) ∧
    (∀ p ∈ slotFields, ∀ d a b, (w.sget a).toNat = p.1 → (w.sget d).toNat < 16 →
      ((w.sget b).toNat < 2 ^ (8 * p.2.2) → s.slotBusy t.uid (w.sget d).toNat = false →
        ∃ g : Team → List OldValue, exec (.tmset d a b) s = .next (onlyWarp (s.updTeam t.uid fun x => { x with
            slots := Sparse.setN 0 x.slots ((w.sget d).toNat * 128 + p.2.1) (leBytes p.2.2 (w.sget b).toNat)
            old := g x }) t j w.advance) ∧
          ∀ x, leavesOlder x { x with old := g x } j (.field (w.sget d).toNat p.2.1 p.2.2)
            (BitVec.ofNat 64 (leVal (Sparse.getN 0 x.slots ((w.sget d).toNat * 128 + p.2.1) p.2.2)))) ∧
      (2 ^ (8 * p.2.2) ≤ (w.sget b).toNat → raises (.tmset d a b) s t j w { code := .illegal })) ∧
    (∀ d a b, 18 ≤ (w.sget a).toNat → raises (.tmset d a b) s t j w { code := .illegal }) ∧
    (∀ d a k v, k = (w.sget d).toNat → v = BitVec.ofNat 64 (Sparse.get 0 (s.world t.world).sg k).toNat → k < 8 →
      ∃ g : Team → List OldValue, exec (.sgset d a) s = .next (onlyWarp { s.setWorld t.world { s.world t.world with
          sg := Sparse.set 0 (s.world t.world).sg k (w.sget a) } with
            teams := s.teams.map fun y => { y with old := g y } } t j w.advance) ∧
        ∀ y ∈ s.teams, (y.world = t.world → y.uid = t.uid → leavesOlder y { y with old := g y } j (.seed k) v) ∧
          (y.world = t.world → y.uid ≠ t.uid → ∀ i u z, maySee (g y) i u z ↔ maySee y.old i u z ∨ u = .seed k ∧ z = v) ∧
          (y.world ≠ t.world → g y = y.old)) ∧
    (∀ d a, 8 ≤ (w.sget d).toNat → raises (.sgset d a) s t j w { code := .illegal })

/-- R203 to R205: a `cpy` whose block and maps pass the checks of R204 in order registers its scratchpad intervals and goes in
flight with counter C and its token raised. -/
def Sys2Proof.Spec.CopyIssue : Prop :=
  ∀ s t j w kn d q sg s0 s1 s2 a pa b awpa c, s.curWarp = some (t, j, w) → sees s t j false q sg s0 → roomFor w .c kn →
    blockAt s0 s1 q w d 128 128 a pa b → slotsReady s1 q [(slotIn b 0, false), (slotIn b 1, true)] →
    c = copyOf b false (q.tmap (slotIn b 0)) (q.tmap (slotIn b 1)) →
    copyReservedOk b false = true → c.src.fmt = c.dst.fmt → c.src.rank = c.dst.rank →
    boxOk c.src.rank c.box c.sorg c.dorg = true →
    (c.src.fmt = .nq4 → c.src.rank = 1 ∧ c.sorg.getD 0 0 % 16384 = 0 ∧ c.dorg.getD 0 0 % 16384 = 0 ∧ c.box.getD 0 0 % 16384 = 0) →
    inBlock b 4 1 = 0 → (c.baren = true → c.bar ≤ t.barsMax) →
    copyTagsOk sg c.src c.dst c.box c.sorg c.dorg = true → arrivalCheck s1 q c = .ok awpa →
    copyLocalCheck q { c with awpa := awpa } = none → s1.scoreboardFull t.core = false →
    s2 = (if c.awen = true ∧ c.awsp = false then s1.walked t.core t.world [c.awaddr] else s1) →
    launches (.cpy kn d) s t j w s2 (engineOp t j w (some kn) (some .c) a pa (.copy { c with awpa := awpa })
      (c.src.intervals c.sorg c.box) (c.dst.intervals c.dorg c.box) [])

/-- R208: a `cpym` names one to eight distinct teams; its targets are found at issue, those missing or without room are dropped from
the start with STATUS and SMASK saying so, and the copy goes in flight. -/
def Sys2Proof.Spec.MulticastIssue : Prop :=
  ∀ s t j w kn d q sg s0 s1 a pa b c ids, s.curWarp = some (t, j, w) → sees s t j false q sg s0 → roomFor w .c kn →
    blockAt s0 s1 q w d 128 128 a pa b → slotsReady s1 q [(slotIn b 0, false), (slotIn b 1, true)] →
    c = copyOf b true (q.tmap (slotIn b 0)) (q.tmap (slotIn b 1)) →
    copyReservedOk b true = true → c.src.fmt = c.dst.fmt → c.src.fmt ≠ .nq4 → c.src.rank = c.dst.rank →
    boxOk c.src.rank c.box c.sorg c.dorg = true → 1 ≤ inBlock b 4 1 → inBlock b 4 1 ≤ 8 →
    ids = (List.range (inBlock b 4 1)).map (fun i => inBlock b (80 + 4 * i) 4) → ids.Nodup → c.dst.scratch = true →
    (c.awen = true → c.awsp = true) → (c.baren = true → c.bar ≤ t.barsMax) →
    copyTagsOk sg c.src c.dst c.box c.sorg c.dorg = true → s1.scoreboardFull t.core = false →
    ∃ c1, launches (.cpym kn d) s t j w s1 (engineOp t j w (some kn) (some .c) a pa (.copy c1)
        (c.src.intervals c.sorg c.box) [] []) ∧
      c1.targets = ids.map (fun i => (resolveTarget s1 q { c with awpa := 0 } i).1) ∧
      (∀ k i g, ids[k]? = some i → c1.targets[k]? = some g → (bitOf c1.smask k = true ↔ g.state = .dropped)) ∧
      (c1.status = 0 ↔ ∀ g ∈ c1.targets, g.state ≠ .dropped)

/-- R239 to R247: `rot` and `irot` issue with their operands held, and the destination slot's tag becomes the rotation's
(the plain tag for `irot` and for the identity). -/
def Sys2Proof.Spec.RotationIssue : Prop :=
  ∀ s t j w kn d q sg s0 s1 a pa b (forward : Bool) slots x n pages, s.curWarp = some (t, j, w) →
    sees s t j false q sg s0 → roomFor w .t kn → blockAt s0 s1 q w d 128 128 a pa b →
    slots = [(slotIn b 0, false), (slotIn b 1, true)] ++ (if bitOf (inBlock b 2 1) 7 then [] else [(slotIn b 2, forward)]) →
    slotsReady s1 q slots →
    x = tensorOf sg (if forward then .rot else .irot) b ([(0, q.tmap (slotIn b 0)), (1, q.tmap (slotIn b 1))] ++
      (if bitOf (inBlock b 2 1) 7 then [] else [(2, q.tmap (slotIn b 2))])) →
    n = (if forward then blkSize (rotBlk (inBlock b 3 1)) else blkSize (tagBlk (x.map 0).tag)) →
    (if forward then rotLegal x else irotLegal x) = true → tagOk x.sg (x.map 0).tag = true →
    tagRotated (x.map 0).tag = !forward → (forward = false → x.has 2 = true → tagOk x.sg (x.map 2).tag = true) →
    operandsReady s1 q (rotOperands x forward n) [] [] pages →
    launches (if forward then .rot kn d else .irot kn d) s t j w
      ((s1.walkedOperands q (rotOperands x forward n) [] []).setSlotTag t.uid (slotIn b 1)
        (if forward then newTag x.sg (rotBlk (inBlock b 3 1)) (rotSeed (inBlock b 3 1)) else 0))
      (tensorOp t j w kn a pa x pages (rotOperands x forward n) [])

/-- R248 to R251: `acc.ld` sets KIND of its tiles from its map's format; `acc.st` needs one KIND and sets its map's tag; to an
integer map its scale bytes may be zero or NONE. -/
def Sys2Proof.Spec.TileTransferIssue : Prop :=
  (∀ s t j w kn d q sg s0 s1 a pa b x os pages, s.curWarp = some (t, j, w) → sees s t j false q sg s0 → roomFor w .t kn →
    blockAt s0 s1 q w d 64 64 a pa b →
    slotsReady s1 q [(slotIn b 0, false)] → x = tensorOf sg .accLd b [(0, q.tmap (slotIn b 0))] →
    os = [operand2 (x.map 0) (accOrg0 x) (accOrg1 x) (accWidth x) (accRows x) false] → 
    accShapeOk q x = true → inBlock b 3 1 = 0 → inBlock b 24 4 = 0 →
    (∀ i < 3, inBlock b (5 + i) 1 = 0 ∨ namesNone b (5 + i)) → (x.map 0).tag = 0 →
    operandsReady s1 q os [] [] pages →
    launches (.accLd kn d) s t j w
      ((s1.walkedOperands q os [] []).updTeam t.uid fun y => y.setKinds (strip (inBlock b 1 1) (inBlock b 2 1))
        ((x.map 0).fmt.float.isNone && (x.map 0).fmt != .nq4))
      (tensorOp t j w kn a pa x pages os (strip (inBlock b 1 1) (inBlock b 2 1)))) ∧
  (∀ s t j w kn d q sg s0 s1 a pa b named kind x os pages, s.curWarp = some (t, j, w) → sees s t j false q sg s0 →
    roomFor w .t kn → blockAt s0 s1 q w d 64 64 a pa b →
    named = (List.range 3).filter (fun i => !(bitOf (inBlock b (5 + i) 1) 7 ||
      ((q.tmap (slotIn b 0)).fmt == .i64 || (q.tmap (slotIn b 0)).fmt == .i32) && inBlock b (5 + i) 1 == 0)) →
    slotsReady s1 q ((slotIn b 0, true) :: named.map fun i => (slotIn b (5 + i), i == 0)) →
    x = { tensorOf sg .accSt b ((0, q.tmap (slotIn b 0)) :: named.map fun i => (i + 1, q.tmap (slotIn b (5 + i)))) with
      kinds := (strip (inBlock b 1 1) (inBlock b 2 1)).map t.tileKind } →
    os = accStOperands x (blkSize (rotBlk (inBlock b 3 1))) →
    (∀ k ∈ x.kinds, k = kind) → x.kinds ≠ [] → accStLegal q x kind = true →
    (∀ i < 2, x.has (i + 2) = true → tagOk x.sg (x.map (i + 2)).tag = true) →
    operandsReady s1 q os [] [] pages →
    launches (.accSt kn d) s t j w
      ((s1.walkedOperands q os [] []).setSlotTag t.uid (slotIn b 0) (newTag x.sg (rotBlk (inBlock b 3 1)) (rotSeed (inBlock b 3 1))))
      (tensorOp t j w kn a pa x pages os (strip (inBlock b 1 1) (inBlock b 2 1))))

/-- R249: `acc.zero` makes the named tiles zero with their KIND as named; a tile the team has not, and a KIND named for no tile,
are F_ILLEGAL; tiles with an earlier operation outstanding are zeroed in their turn. -/
def Sys2Proof.Spec.TileZero : Prop :=
  ∀ s t j w d v zs ones, s.curWarp = some (t, j, w) → v = (w.sget d).toNat →
    zs = (List.range 16).filter (bitOf v) → ones = zs.filter (fun n => bitOf v (16 + n)) →
    ((∃ n ∈ zs, t.acc ≤ n) ∨ (∃ n < 16, bitOf v (16 + n) = true ∧ bitOf v n = false) →
      raises (.accZero d) s t j w { code := .illegal }) ∧
    ((∀ n ∈ zs, n < t.acc) → (∀ n < 16, bitOf v (16 + n) = true → bitOf v n = true) →
      ((∀ o ∈ s.ops, o.team = t.uid → ∀ z ∈ o.tiles, z ∉ zs) →
        exec (.accZero d) s = .next (onlyWarp ((s.updTeam t.uid fun y => (y.setKinds zs false).setKinds ones true).updTeam
          t.uid fun y => y.zeroTiles zs) t j w.advance)) ∧
      ((∃ o ∈ s.ops, o.team = t.uid ∧ ∃ z ∈ o.tiles, z ∈ zs) →
        launches (.accZero d) s t j w (s.updTeam t.uid fun y => (y.setKinds zs false).setKinds ones true)
          (engineOp t j w none none 0 0 (.tensor (tensorOf (s.world t.world).sg .zero [] [])) [] [] zs)))

/-- R252 to R258: `mma` and `bswap` wait while another team holds the core's banks; LOADB records the bank it fills; MUL names the
active bank and sets its tile's KIND unless it accumulates; `bswap` selects the active bank. The model's own choices in it:
log 8. -/
def Obligations.MatrixIssue : Prop :=
  (∀ s t j w kn d h, s.curWarp = some (t, j, w) → roomFor w .t kn → (s.coreSt t.core).holder = some h → h ≠ t.uid →
    (d % 2 = 0 → holds (.mma kn d) s) ∧ holds (.bswap d) s) ∧
  (∀ s t j w kn d q sg s0 s1 a pa b bs x m y pages, s.curWarp = some (t, j, w) → sees s t j false q sg s0 → roomFor w .t kn →
    ((s.coreSt t.core).holder = none ∧ bs = Banks.empty ∨
      (s.coreSt t.core).holder = some t.uid ∧ bs = (s.coreSt t.core).banks) →
    blockAt s0 s1 q w d 64 64 a pa b → inBlock b 0 1 = 1 → slotsReady s1 q [(slotIn b 4, false)] →
    x = { tensorOf sg .mma b [(0, q.tmap (slotIn b 4))] with bank := 1 - bs.actb } → loadbLegal x = true →
    fewIvs [mmaOperand x] = true → tagOk x.sg (x.map 0).tag = true → (mmaFlag x 3 = true → (x.map 0).tag = 0) →
    (if mmaFlag x 5 then (x.map 0).genSlot (q.slotNat (slotIn b 4) 0 8) (inBlock b 34 2) else some (x.map 0)) = some m →
    y = { x with maps := [(0, m)] } → operandsReady s1 q [mmaOperand y] [] [] pages →
    launches (.mma kn d) s t j w
      ((s1.walkedOperands q [mmaOperand y] [] []).setBanks t (bs.setBank (1 - bs.actb) { bs.bank (1 - bs.actb) with
        loaded := true, k := mmaK x, n := mmaN x, ty := mmaType x, tag := (x.map 0).tag,
        gen := if mmaFlag x 5 then inBlock b 34 2 else (x.map 0).curGen }))
      (tensorOp t j w kn a pa y pages [mmaOperand y] [])) ∧
  (∀ s t j w kn d q sg s0 s1 a pa b bs x m y ops pages, s.curWarp = some (t, j, w) → sees s t j false q sg s0 →
    roomFor w .t kn → (s.coreSt t.core).holder = some t.uid → bs = (s.coreSt t.core).banks → blockAt s0 s1 q w d 64 64 a pa b →
    inBlock b 0 1 ≠ 1 → slotsReady s1 q (if bitOf (inBlock b 2 1) 1 then [] else [(slotIn b 3, false)]) →
    x = { tensorOf sg .mma b (if bitOf (inBlock b 2 1) 1 then [] else [(0, q.tmap (slotIn b 3))]) with
      bank := bs.actb, kinds := [t.tileKind (slotIn b 3)] } →
    mulLegal q x (bs.bank bs.actb) = true → tagOk x.sg (mulTag x) = true → (bs.bank bs.actb).tag = mulTag x →
    (mmaFlag x 2 = true → mulTag x = 0) →
    (if mmaFlag x 4 then (x.map 0).genSlot (q.slotNat (slotIn b 3) 0 8) (inBlock b 32 2) else some (x.map 0)) = some m →
    y = (if bitOf (inBlock b 2 1) 1 then x else { x with maps := [(0, m)] }) →
    ops = (if bitOf (inBlock b 2 1) 1 then [] else [mmaOperand y]) →
    fewIvs (if bitOf (inBlock b 2 1) 1 then [] else [mmaOperand x]) = true → operandsReady s1 q ops [] [] pages →
    launches (.mma kn d) s t j w
      (((s1.walkedOperands q ops [] []).setBanks t bs).updTeam t.uid fun y =>
        if mmaFlag x 0 then y else y.setKinds [mmaZd x] (mmaType x == 1))
      (tensorOp t j w kn a pa y pages ops (mmaZd x :: if bitOf (inBlock b 2 1) 1 then [slotIn b 3] else []))) ∧
  (∀ s t j w d bs, s.curWarp = some (t, j, w) →
    ((s.coreSt t.core).holder = none ∧ bs = Banks.empty ∨
      (s.coreSt t.core).holder = some t.uid ∧ bs = (s.coreSt t.core).banks) →
    ((w.sget d).toNat ≤ 1 → exec (.bswap d) s = .next (onlyWarp (s.setCore t.core { s.coreSt t.core with
      holder := some t.uid, banks := { bs with actb := (w.sget d).toNat } }) t j w.advance)) ∧
    (1 < (w.sget d).toNat → raises (.bswap d) s t j w { code := .illegal }))

/-- R260 to R267, R282: a layer instruction whose handle grants a VALID region issues with the region's generation and shape held;
it sets its tiles' KIND, moves ASTOP by the activation record it pushes, gives its tap's slot the plain tag, and is noted in
the world's log; a handle that grants none is F_REGION, and a push without room F_ACTSTACK. The model's own choices in it: log
41. -/
def Obligations.LayerIssue : Prop :=
  ∀ p ∈ layers, ∀ s t j w kn d q sg s0 s1 a pa b x, s.curWarp = some (t, j, w) → sees s t j false q sg s0 → roomFor w .t kn →
    blockAt s0 s1 q w d 128 128 a pa b → slotsReady s1 q ((layerSlots b).map fun e => (e.2.1, e.2.2)) →
    x = tensorOf sg p.2.1 b ((layerSlots b).map fun e => (e.1, q.tmap e.2.1)) → layerLegal q x = true →
    (s1.grantedRegion t.world (inBlock b 0 2) = none →
      raisesOn (p.1 kn d) s s1 t j w { code := .region, opaddr := a }) ∧
    (∀ r h maps, s1.grantedRegion t.world (inBlock b 0 2) = some r → h = holdOf r (s1.region r) →
      layerIn x h ≤ (x.map 0).dim 0 → (∀ z ∈ layerStrip x h, z < t.acc) → fewIvs (layerOperands x h) = true →
      layerTagsOk x h = true → layerMaps q x = some maps →
      (layerFlag x 1 = true → ¬ (t.stackOk = true ∧ t.astop.toNat + recLen x h ≤ t.aslimit.toNat) →
        raisesOn (p.1 kn d) s s1 t j w { code := .actStack, opaddr := a }) ∧
      (∀ len pages y, len = (if layerFlag x 1 then recLen x h else 0) →
        (layerFlag x 1 = true → t.stackOk = true ∧ t.astop.toNat + len ≤ t.aslimit.toNat) →
        y = { x with maps := maps, kinds := (layerStrip x h).map t.tileKind, astop := t.astop.toNat, gena := (x.map 1).curGen,
                     genb := (x.map 2).curGen, layer := some h } →
        operandsReady s1 q (layerOperands y h) [] (if layerFlag x 1 then [(t.astop.toNat, len)] else []) pages →
        ∃ s2, (s2 = (s1.walkedOperands q (layerOperands y h) []
              (if layerFlag x 1 then [(t.astop.toNat, len)] else [])).updTeam t.uid fun u =>
            { u.setKinds (layerStrip x h) (p.2.1 == .layerP) with astop := u.astop + BitVec.ofNat 64 len }) ∧
          launches (p.1 kn d) s t j w
            ((if layerFlag x 2 then s2.setSlotTag t.uid (y.map 3).slot 0 else s2).noteLog t.world 1 (logAgent 2 t.core) p.2.2
              (inBlock b 0 2) 1 (inBlock b 16 2))
            (tensorOp t j w kn a pa y pages (layerOperands y h) (layerStrip x h))))

/-- R269 to R275: a row instruction whose block, maps and plain tags pass issues with its operands' intervals and changes nothing
at issue. -/
def Sys2Proof.Spec.RowIssue : Prop :=
  ∀ p ∈ reels, ∀ s t j w kn d q sg s0 s1 a pa b u named x pages, s.curWarp = some (t, j, w) → sees s t j false q sg s0 →
    roomFor w .t kn → blockAt s0 s1 q w d 64 64 a pa b → u = reelUses p.2 (bitOf (inBlock b 24 1) 1) →
    named = (List.range 7).filter (fun i => (decide (i ∈ u.1) || decide (i ∈ u.2)) && !bitOf (inBlock b i 1) 7) →
    slotsReady s1 q (named.map fun i => (slotIn b i, i == 1 || i == 5)) →
    x = tensorOf sg p.2 b (named.map fun i => (i, q.tmap (slotIn b i))) → reelLegal q x = true →
    (∀ m ∈ x.maps, m.2.tag = 0) → operandsReady s1 q (reelOperands x) [] [] pages →
    launches (p.1 kn d) s t j w (s1.walkedOperands q (reelOperands x) [] []) (tensorOp t j w kn a pa x pages (reelOperands x) [])

/-- R176, R266, R268: `apush` and `apop` move ASTOP at issue by the bytes they copy; a move past ASLIMIT or below ASBASE is F_ACTSTACK
with nothing done. Of ASBASE, ASLIMIT and ASTOP the warp sees the current values, or, each separately, one that a `setsr` of another
warp replaced and no barrier orders it after. -/
def Sys2Proof.Spec.StackCopyIssue : Prop :=
  ∀ s t j w kn d a (push : Bool) n m q sg s0, s.curWarp = some (t, j, w) → sees s t j true q sg s0 → roomFor w .c kn →
    (w.sget d).toNat < 16 → n = (w.sget a).toNat → n % 64 = 0 → 64 ≤ n → n ≤ 2 ^ 24 →
    slotsReady s0 q [((w.sget d).toNat, !push)] →
    m = q.tmap (w.sget d).toNat → m.wrap = 0 → (m.scratch = true → m.base % 64 = 0) →
    (q.stackOk = false ∨ (if push then q.aslimit.toNat < q.astop.toNat + n else q.astop.toNat < q.asbase.toNat + n) →
      raisesOn (if push then .apush kn d a else .apop kn d a) s s0 t j w { code := .actStack }) ∧
    (∀ pages stack far iv rd wr, q.stackOk = true →
      (if push then q.astop.toNat + n ≤ q.aslimit.toNat else q.asbase.toNat + n ≤ q.astop.toNat) →
      stack = (if push then q.astop.toNat else q.astop.toNat - n) → far = (if m.scratch then [] else [(m.base, n)]) →
      iv = (if m.scratch then [(m.base / 64, (m.base + n) / 64)] else []) →
      rd = (if push then far else [(stack, n)]) → wr = (if push then [(stack, n)] else far) →
      s0.holdOperands q [] rd wr = .ok pages →
      (m.scratch = true → m.base + n ≤ t.scratchSize ∧ s0.scoreboardFull t.core = false) →
      launches (if push then .apush kn d a else .apop kn d a) s t j w
        ((s0.walkedOperands q [] rd wr).updTeam t.uid fun y =>
          { y with astop := BitVec.ofNat 64 (if push then q.astop.toNat + n else stack) })
        (engineOp t j w (some kn) (some .c) 0 0
          (.stackCopy { push := push, map := m, stack := stack, pages := pages, bytes := n, next := 0 })
          (if push then iv else []) (if push then [] else iv) []))

/-- R304, R306, R307, R314, R315: `pimld` starts a program load, `pimx` a command block in a world that may use the near banks, `mark`
orders what the team has outstanding, and `pimwait` holds until the warp's own near-bank operations have ended. -/
def Sys2Proof.Spec.NearBankIssue : Prop :=
  ∀ s t j w, s.curWarp = some (t, j, w) →
    (∀ kn d a n va, roomFor w .c kn → d % 2 = 0 → n = (w.sget a).toNat → 1 ≤ n → n ≤ 256 → va = (w.sget64 d).toNat →
      va % 64 = 0 → s.checkRange t.core t.world va (4 * n) .read = .ok () →
      ∃ pas, pas.length = n ∧ (∀ i < n, ∀ pa, s.translate t.core t.world (va + 4 * i) .read = .ok pa → pas[i]? = some pa) ∧
        launches (.pimld kn d a) s t j w (s.walked t.core t.world (pageStarts va (4 * n))) (engineOp t j w (some kn) (some .c) va 0 (.pimld va n pas) [] [] [])) ∧
    (∀ kn d a, d % 2 = 0 → (w.sget a).toNat = 0 ∨ 256 < (w.sget a).toNat →
      raises (.pimld kn d a) s t j w { code := .illegal, opaddr := (w.sget64 d).toNat }) ∧
    (∀ kn d a pa h b s1 s2 cmds prog, roomFor w .c kn → s.teamHas t.uid OpKind.isPimld = false →
      blockAt s s1 t w d 64 64 a pa h → s1.checkRange t.core t.world a (64 + 16 * inBlock h 0 2) .atomic = .ok () →
      s1.readVirt t.core t.world (some (logAgent 0 t.core)) a (64 + 16 * inBlock h 0 2) = (.ok b, s2) → pimHeaderOk b = true →
      (List.range (inBlock h 0 2)).map (readCommand b) = cmds.map some → (s.world t.world).pimok = true →
      (bitOf (inBlock b 2 1) 0 = true → inBlock b 3 1 ≤ t.barsMax) →
      ((∃ m, t.uprog = some m ∧ m.valid = true ∧ prog = some m) ∨
        (∀ m, t.uprog = some m → m.valid = false) ∧ prog = none ∧ ∀ c ∈ cmds, c.fill = true) →
      launches (.pimx kn d) s t j w s2 (engineOp t j w (some kn) (some .c) a pa (.pimx
        { cmds := cmds, prog := prog, baren := bitOf (inBlock b 2 1) 0, bar := inBlock b 3 1, cmd := 0, pages := none, row := 0,
          pend := [], faults := [], acc := [0, 0, 0, 0], bpAcc := [], stopped := false, status := 0 }) [] [] [])) ∧
    (∀ kn, w.token kn < 63 → ∃ before,
      (∀ n, n ∈ before ↔ ∃ o ∈ s.ops, o.id = n ∧ o.team = t.uid ∧ o.kind.marked = true) ∧
      launches (.mark kn) s t j w s (engineOp t j w (some kn) none 0 0 (.mark before) [] [] [])) ∧
    ((∀ o ∈ s.ops, o.team = t.uid → o.warp = j → ¬ ∃ k, o.kind = .mark k) →
      (∀ o ∈ s.ops, o.team = t.uid → o.warp = j → ¬ ∃ k, o.kind = .pimx k) →
      (∀ o ∈ s.ops, o.team = t.uid → o.warp = j → o.kind.isPimld = false) → leaves .pimwait s t j w) ∧
    ((∃ o ∈ s.ops, o.team = t.uid ∧ o.warp = j ∧
        (o.kind.isPimld = true ∨ (∃ k, o.kind = .mark k) ∨ ∃ k, o.kind = .pimx k)) → holds .pimwait s)


namespace Sys2Proof.Spec

/-! ### Events on outstanding accesses (R181, R183, R186 to R191, R215 to R217, R223, R224, R326) -/

/-- The event comes about and leaves a state of which `p` holds. -/
def yields (e : Instr) (s : State) (p : State → Prop) : Prop := ∃ s', exec e s = .next s' ∧ p s'

/-- Operation `o` is outstanding under number `id`, and its warp `w` of team `t` is there. -/
def outstanding (s : State) (id : Nat) (o : Op) (t : Team) (w : Warp) : Prop :=
  s.findOp id = some o ∧ s.findTeam o.team = some t ∧ t.warps[o.warp]? = some w

/-- The operation's own counter and token are one lower, every other as it was (R183). -/
def lowered (w w' : Warp) (o : Op) : Prop :=
  (∀ c, w'.ctr c = w.ctr c - (if o.ctr = some c then 1 else 0)) ∧
  ∀ k, w'.token k = w.token k - (if o.kn = some k then 1 else 0)

/-- The operation has ended: it alone is no longer in flight, and its counter and token have fallen. -/
def ended (s s' : State) (o : Op) (w : Warp) : Prop :=
  s'.ops = s.ops.filter (fun x => x.id != o.id) ∧
  ∃ t' w', s'.findWarp o.team o.warp = some (t', w') ∧ lowered w w' o

/-- The units of the access that are left stay in flight as `o` with `k`; with none left the operation has ended (R183, R187). -/
def goesOn (s s' : State) (o : Op) (w : Warp) (k : OpKind) (left : List LaneAcc) : Prop :=
  (left = [] → ended s s' o w) ∧
  (left ≠ [] → s'.ops = s.ops.map (fun x => if x.id = o.id then { o with kind := k } else x) ∧
    ∃ t' w', s'.findWarp o.team o.warp = some (t', w') ∧ (∀ c, w'.ctr c = w.ctr c) ∧ ∀ n, w'.token n = w.token n)

/-- A unit of an access that an event names; those that it names, and the others. -/
def named (units : List Nat) (a : LaneAcc) : Bool := units.contains (2 * a.lane + a.part)
def nowOf (us : List LaneAcc) (units : List Nat) : List LaneAcc := us.filter (named units)
def leftOf (us : List LaneAcc) (units : List Nat) : List LaneAcc := us.filter fun a => !named units a

/-- Warp `w` as it was, but for what it has learnt of writes to its lines, or woken by one at `waitmon` (R195). -/
def asBefore (w w' : Warp) : Prop :=
  w' = { w with watched := w'.watched } ∨ w.status = .waitmon ∧ w' = { Warp.wake w with watched := w'.watched }

/-- Warps other than the operation's own are as before. -/
def othersKeep (s s' : State) (o : Op) : Prop :=
  ∀ u i t w, (u, i) ≠ (o.team, o.warp) → s.findWarp u i = some (t, w) → ∃ t' w', s'.findWarp u i = some (t', w') ∧ asBefore w w'

/-- No warp but the operation's own differs. -/
def othersSame (s s' : State) (o : Op) : Prop :=
  ∀ u i, (u, i) ≠ (o.team, o.warp) → (s'.findWarp u i).map Prod.snd = (s.findWarp u i).map Prod.snd

/-- No byte of memory changes but gathered ones that reach it, and those of lines that a packet was lost of. -/
def keepsMemory (s s' : State) : Prop :=
  ∀ x, s.badPackets.contains (x / 128) = false → (∀ g ∈ s.gathers, g.addr ≠ x) →
    Sparse.get memDefault s'.mem x = Sparse.get memDefault s.mem x

/-- Stores that L2s have gathered stay so or leave; none comes. -/
def gathersOut (s s' : State) : Prop := ∀ g ∈ s'.gathers, g ∈ s.gathers

/-- A gathered byte on its way to the line's home: its L2 does not own the line (R216, R333). -/
def goesHome (s : State) (g : Gathered) : Prop :=
  ∀ x ∈ s.l2, x.cluster = g.cluster → x.world = g.world → x.line = g.addr / 128 → x.state = .s

/-- Register `i` of the group a loaded value `v` goes to (R89, R186). -/
def loadedWord (ty : MemTy) (v i : Nat) : Word :=
  match ty with
  | .i8 => BitVec.ofInt 32 (signExt 8 v)
  | .i16 => BitVec.ofInt 32 (signExt 16 v)
  | _ => BitVec.ofNat 32 (v / 2 ^ (32 * i))

/-- Registers of a unit of a load from `d`. -/
def unitRegsOf (ty : MemTy) (d : Nat) (a : LaneAcc) : List Nat :=
  match ty with
  | .b128 => [d + 2 * a.part, d + 2 * a.part + 1]
  | _ => regsOf ty d

/-- Bytes of a unit. -/
def unitBytes (ty : MemTy) : Nat := min 8 (sizeOf' ty)

/-- Units of one access: each once, two for a lane only of 16-byte accesses, each in one line. -/
def unitsOk (ty : MemTy) (us : List LaneAcc) : Prop :=
  (us.map fun a => (a.lane, a.part)).Nodup ∧
    ∀ a ∈ us, a.lane < 32 ∧ a.part < (if ty = .b128 then 2 else 1) ∧ a.pa % unitBytes ty = 0

/-- Each unit performed of a load has its value in its registers, or the mark of its data fault on them with the registers as they
were; other registers and lanes keep theirs, L is one lower once no unit is left, and the rest of the warp is as before. -/
def loads (w w' : Warp) (o : Op) (ty : MemTy) (d : Nat) (now left : List LaneAcc) (f : LaneAcc → Nat × Option DataFault) : Prop :=
  (∀ a ∈ now, ∀ i r, (unitRegsOf ty d a)[i]? = some r →
    ((f a).2 = none → w'.vget r a.lane = loadedWord ty (f a).1 i ∧ KMap.find w'.poison (vkey r a.lane) = none) ∧
    (∀ x, (f a).2 = some x → w'.vget r a.lane = w.vget r a.lane ∧
      KMap.find w'.poison (vkey r a.lane) = some { hdr := o.hdr, idx := o.idx, addr := a.va, fault := x })) ∧
  (∀ r l, l < 32 → (∀ a ∈ now, a.lane = l → r ∉ unitRegsOf ty d a) →
    w'.vget r l = w.vget r l ∧ KMap.find w'.poison (vkey r l) = KMap.find w.poison (vkey r l)) ∧
  ∃ x, asBefore w x ∧
    w' = { x with vregs := w'.vregs, poison := w'.poison, cntL := if left = [] then w.cntL - 1 else w.cntL }

/-- Lanes of an access are named once each. -/
def lanesOnce (lanes : List LaneAcc) : Prop := (lanes.map LaneAcc.lane).Nodup ∧ ∀ a ∈ lanes, a.lane < 32

/-- The state in which the home reads a line for a load at address `va`: no copy in the core's L1, the read noted in the world's log, and
the bytes that the line's owner has gathered merged into it (R216, R222, R341). -/
def homeReads (s : State) (o : Op) (line va : Nat) : State :=
  ((s.dropL1Line o.core o.world line).noteMem o.core o.world (logAgent 0 o.core) logRead va (128 * line) 1).snoopOwner line

/-- The fault that a read of the line below the L2s delivers, the owner's gathered bytes merged: a packet that fails its tag (R333), a poisoned line, or what the cells
hold where DRAM is read (R335); a PIM page has neither MAC nor ECC (R297), and a line marked Z is delivered before any check. -/
def lineFault (s : State) (world line : Nat) : Option DataFault :=
  if s.badPackets.contains line then some .integrity
  else if s.potPim (line / 128) then none
  else if (s.lineMeta line).p then some .integrity
  else if (s.lineMeta line).z || s.cachedLine world line then none
  else (KMap.find s.cellFaults line).bind CellFault.fault

/-- The cluster's L2 holds the line for the world; the world has no way in it. -/
def l2Holds (s : State) (cluster world line : Nat) : Bool :=
  s.l2.any fun x => x.cluster == cluster && x.world == world && x.line == line
def noWays (s : State) (world : Nat) : Bool := (s.wayMasks world).1 == 0

/-- What a unit of a global load sees, or none while it waits for its line: the core's L1 copy when that serves it, what the cluster
has gathered over its line, its L2's line (with the fault of a poisoned one), or, for a PIM page and under `.bypass`, the line at its
home; a line that the cluster has not got is asked for, unless its read delivers a fault. `va` is the first of the line's addresses. -/
def loadSees (s : State) (o : Op) (hit : Bool) (hint : Hint) (n va : Nat) (a : LaneAcc) : Option (Nat × Option DataFault) :=
  let line := a.pa / 128
  let cl := o.core / 8
  let part := fun (bs : List Byte) => leVal ((bs.drop (a.pa % 128)).take n)
  let cluster := part (s.clusterRead cl o.world (128 * line) 128)
  let h := homeReads s o line va
  let fails := fun (f : Option DataFault) => f.map fun x => ((0, some x) : Nat × Option DataFault)
  match (if hit then s.l1.find? fun x => x.core == o.core && x.world == o.world && x.line == line else none) with
  | some x => some (part x.data, none)
  | none =>
    if s.potPim (line / 128) then
      some ((fails (lineFault h o.world line)).getD (part (h.readMem (128 * line) 128), none))
    else if s.gatheredWhole cl o.world line then some (cluster, none)
    else if l2Holds s cl o.world line then some (if (s.lineMeta line).p then (0, some .integrity) else (cluster, none))
    else if hint = .bypass ∨ noWays s o.world = true then 
      some ((fails (lineFault h o.world line)).getD (part (h.clusterRead cl o.world (128 * line) 128), none))
    else if s.requested cl line then none
    else fails (lineFault h o.world line)

/-- Address `x` lies in the `n` bytes of lane `a`. -/
def inLane (n : Nat) (a : LaneAcc) (x : Nat) : Prop := a.pa ≤ x ∧ x < a.pa + n

/-- Of the lanes that write address `x`, lane `a` is the last, that is, the highest (R187). -/
def lastAt (lanes : List LaneAcc) (n x : Nat) (a : LaneAcc) : Prop :=
  ∃ pre post, lanes = pre ++ a :: post ∧ inLane n a x ∧ ∀ b ∈ post, ¬ inLane n b x

/-- The byte lane `a` writes at `x`. -/
def byteAt (a : LaneAcc) (x : Nat) : Byte := BitVec.ofNat 8 (a.op1 / 256 ^ (x - a.pa))

/-- The bytes `m'` after a store by the lanes into `m`: what the lanes write, and nothing else but in the lines of `lost`. -/
def storesInto (d : Byte) (m m' : Sparse Byte) (lanes : List LaneAcc) (n : Nat) (lost : List Nat) : Prop :=
  (∀ x a, lastAt lanes n x a → Sparse.get d m' x = byteAt a x) ∧
  ∀ x, (∀ a ∈ lanes, ¬ inLane n a x) → lost.contains (x / 128) = false → Sparse.get d m' x = Sparse.get d m x

/-- What an atomic leaves of an old value (R189). -/
def atomLeaves (aop : AtomOp) (ty : AtomTy) (old op1 op2 : Nat) : Nat :=
  let n := if atomWide ty then 64 else 32
  let key := fun (v : Nat) => if ty = .i32 ∨ ty = .i64 then signExt n v else (v : Int)
  match aop with
  | .ld => old
  | .st => op1
  | .exch => op1
  | .cas => if old = op1 then op2 else old
  | .add => (old + op1) % 2 ^ n
  | .min => if key op1 < key old then op1 else old
  | .max => if key old < key op1 then op1 else old
  | .band => old &&& op1
  | .bor => old ||| op1

/-- Whether it writes: a load does not, nor a compare that fails. -/
def atomStores (aop : AtomOp) (old op1 : Nat) : Bool := aop != .ld && (aop != .cas || old == op1)

/-- Atomics of some lanes on a store one after the other, and each lane's old value (R189). -/
def atomChain (aop : AtomOp) (ty : AtomTy) : Sparse Byte → List LaneAcc → Sparse Byte × List (Nat × Nat)
  | m, [] => (m, [])
  | m, a :: r =>
    let n := if atomWide ty then 8 else 4
    let old := leVal (Sparse.getN 0 m a.pa n)
    let m1 := if atomStores aop old a.op1 then Sparse.setN 0 m a.pa (leBytes n (atomLeaves aop ty old a.op1 a.op2)) else m
    ((atomChain aop ty m1 r).1, (a.lane, old) :: (atomChain aop ty m1 r).2)

/-- Old values taken into the registers of their lanes from `d` on; other registers and lanes keep theirs. -/
def takesOld (w w' : Warp) (ty : AtomTy) (d : Nat) (olds : List (Nat × Nat)) : Prop :=
  (∀ p ∈ olds, w'.vget d p.1 = BitVec.ofNat 32 p.2 ∧
    (atomWide ty = true → w'.vget (d + 1) p.1 = BitVec.ofNat 32 (p.2 / 2 ^ 32))) ∧
  ∀ r l, l < 32 → ((r ≠ d ∧ (atomWide ty = true → r ≠ d + 1)) ∨ ∀ p ∈ olds, p.1 ≠ l) → w'.vget r l = w.vget r l

/-- Before a wide or sequentially consistent release, the world's gathered stores of the cluster reach memory (R217). -/
def atomFirst (s : State) (o : Op) (scope : Scope) (ord : Order) : State :=
  if (ord = .rel ∨ ord = .acqrel ∨ ord = .sc) ∧ (scope = .dev ∨ scope = .sys ∨ ord = .sc)
    then s.drainWorld (o.core / 8) o.world else s

/-- An atomic of device scope or wider is performed at the line's home, as is one on a PIM page and one of a world whose lines no L2
takes, unless its L2 still has the line in E or M; any other in the cluster's L2 (R182, R191, R330). -/
def wideAtom (scope : Scope) (ord : Order) (pro : Bool) : Bool := scope == .dev || scope == .sys || ord == .sc || pro
def atHomeFor (s : State) (o : Op) (scope : Scope) (ord : Order) (pro : Bool) (line : Nat) : Bool :=
  wideAtom scope ord pro || s.potPim (line / 128) || (noWays s o.world &&
    !(match s.l2.find? fun y => y.cluster == o.core / 8 && y.world == o.world && y.line == line with
      | some x => x.state == .m || x.state == .e
      | none => false))

/-- The line can be held exclusively where the atomic is performed (R191, R222): at an idle home with no grant on its way, or in E
or M in the cluster's L2. -/
def heldAlone (s : State) (o : Op) (scope : Scope) (ord : Order) (pro : Bool) (line : Nat) : Prop :=
  if atHomeFor s o scope ord pro line then
    (s.dirEntry line).busy = .idle ∧ ∀ m ∈ s.coh, m.line = line → ∀ st d, m.kind ≠ .grant st d
  else
    ∃ x, s.l2.find? (fun y => y.cluster == o.core / 8 && y.world == o.world && y.line == line) = some x ∧
      (x.state = .m ∨ x.state = .e)

/-- The operation, and the operations in flight, once it has its ticket (R224); none with an older one is outstanding. -/
def ticketOf (s : State) (o : Op) (ord : Order) : Op := if ord = .sc ∧ o.ticket = none then { o with ticket := some s.ticket } else o
def withTicket (s : State) (o : Op) (ord : Order) : List Op :=
  if ord = .sc ∧ o.ticket = none then s.ops.map fun x => if x.id = o.id then ticketOf s o ord else x else s.ops
def firstTicket (s : State) (o : Op) (ord : Order) : Prop :=
  ∀ n, (ticketOf s o ord).ticket = some n → ∀ x ∈ withTicket s o ord, ∀ m, x.ticket = some m → n ≤ m

/-- A read of the line finds no fault: none of its packets fails, it is not poisoned, and its cells hold no more than what the ECC corrects. -/
def lineClean (s : State) (line : Nat) : Prop :=
  s.badPackets.contains line = false ∧ (s.lineMeta line).p = false ∧ (KMap.find s.cellFaults line).bind CellFault.fault = none

/-- Records of a source of a world that have not entered its queue. -/
def recordsWaiting (s : State) (world source : Nat) : Nat :=
  ((KMap.find s.sources (sourceKey world source)).getD Source.reset).pending.length

/-- A line's last release is narrower than device scope (R223). -/
def narrowRelease (s : State) (line : Nat) : Prop := (s.dirEntry line).lrs = some .team ∨ (s.dirEntry line).lrs = some .clu

end Sys2Proof.Spec

/-- R181 to R183, R186 to R188, R215, R216, R222, R297, R333, R335: the units of a load that an event names are performed, those
of one line together: each has its value, or its registers are marked poisoned; a unit whose line the cluster has not got
waits for it, the cluster having asked; L falls by one when none is left; memory keeps its bytes, but that stores gathered for
the line may reach it, and every other warp is as before. The model's own choices in it: log 16, 19, 23, 53, 85. -/
def Obligations.LoadCompletion : Prop :=
  ∀ s id o t w ty hint d us units hit, outstanding s id o t w → o.ctr = some .l → o.kn = none → unitsOk ty us →
    (o.kind = .load true ty hint d us → s.scratchOlder o = false →
      yields (.loadComplete id units hit) s fun s' => s'.mem = s.mem ∧ othersSame s s' o ∧
        goesOn s s' o w (.load true ty hint d (leftOf us units)) (leftOf us units) ∧
        ∃ t' w', s'.findWarp o.team o.warp = some (t', w') ∧ t'.scratch = t.scratch ∧
          w' = { w with vregs := w'.vregs, poison := w'.poison, cntL := w'.cntL } ∧
          loads w w' o ty d (nowOf us units) (leftOf us units) fun a => (leVal (t.scratchRead a.pa (unitBytes ty)), none)) ∧
    (∀ line va got left, o.kind = .load false ty hint d us → s.markBlocked o = false →
      (∀ a ∈ nowOf us units, a.pa / 128 = line) → va = ((nowOf us units).head?.map LaneAcc.va).getD 0 →
      got = (nowOf us units).filter (fun a => (loadSees s o hit hint (unitBytes ty) va a).isSome) →
      left = us.filter (fun a => !(named units a && (loadSees s o hit hint (unitBytes ty) va a).isSome)) →
      yields (.loadComplete id units hit) s fun s' => keepsMemory s s' ∧ gathersOut s s' ∧ othersKeep s s' o ∧
        (∀ x, x / 128 ≠ line → s.badPackets.contains (x / 128) = false →
          Sparse.get memDefault s'.mem x = Sparse.get memDefault s.mem x) ∧
        goesOn s s' o w (.load false ty hint d left) left ∧
        (got = [] → nowOf us units ≠ [] → s'.requested (o.core / 8) line = true) ∧
        ∃ t' w', s'.findWarp o.team o.warp = some (t', w') ∧ t'.scratch = t.scratch ∧
          loads w w' o ty d got left fun a => (loadSees s o hit hint (unitBytes ty) va a).getD (0, none))

/-- The units of a store that are performed together: those named, and all of a line that the store writes whole (R181). -/
def Sys2Proof.Spec.storedNow (us : List LaneAcc) (n : Nat) (units : List Nat) : List LaneAcc :=
  us.filter fun a => named units a || us.any fun b => named units b && b.pa / 128 == a.pa / 128 && wholeLine us n (a.pa / 128)

/-- R181, R183, R187, R188, R216, R333, R383: the units of a store that are performed write each byte of their lanes, the highest
lane's where lanes meet, and no other: in the scratchpad; on a PIM page in memory; elsewhere their cluster reads the bytes
from then on, and gathered bytes reach memory at some time. One whose packet fails on its link writes nothing, counts, and
posts a record, on a PIM page at once and elsewhere when it leaves the gathering buffer. The model's own choices in it: log
16, 25, 27. -/
def Obligations.StoreCompletion : Prop :=
  (∀ s id o t w ty hint us units now left, outstanding s id o t w → unitsOk ty us →
    (o.kind = .store true ty hint us → s.scratchOlder o = false →
      yields (.storeComplete id units) s fun s' => s'.mem = s.mem ∧
        goesOn s s' o w (.store true ty hint (leftOf us units)) (leftOf us units) ∧
        ∃ t', s'.findTeam o.team = some t' ∧ storesInto 0 t.scratch t'.scratch (nowOf us units) (unitBytes ty) []) ∧
    (o.kind = .store false ty hint us → s.markBlocked o = false → now = storedNow us (unitBytes ty) units →
      left = us.filter (fun a => decide (a ∉ now)) →
      ((∀ a ∈ now, s.potPim (a.pa / 16384) = true ∧ s.badPackets.contains (a.pa / 128) = false) →
        yields (.storeComplete id units) s fun s' => goesOn s s' o w (.store false ty hint left) left ∧
          s'.gathers = s.gathers ∧ storesInto memDefault s.mem s'.mem now (unitBytes ty) s.badPackets) ∧
      ((∀ a ∈ now, s.potPim (a.pa / 16384) = false ∧ s.badPackets.contains (a.pa / 128) = false ∧
          ∀ g ∈ s.gathers, inLane (unitBytes ty) a g.addr → g.cluster = o.core / 8 ∧ g.world = o.world) →
        yields (.storeComplete id units) s fun s' => goesOn s s' o w (.store false ty hint left) left ∧
          (∀ x a, lastAt now (unitBytes ty) x a → s'.clusterByte (o.core / 8) o.world x = byteAt a x) ∧
          ∀ x, (∀ a ∈ now, ¬ inLane (unitBytes ty) a x) → (∀ g ∈ s.gathers, g.addr ≠ x) → s.badPackets.contains (x / 128) = false →
            Sparse.get memDefault s'.mem x = Sparse.get memDefault s.mem x) ∧
      (∀ a, now = [a] → s.potPim (a.pa / 16384) = true → s.badPackets.contains (a.pa / 128) = true →
        yields (.storeComplete id units) s fun s' => goesOn s s' o w (.store false ty hint left) left ∧ s'.mem = s.mem ∧
          s'.gathers = s.gathers ∧ s'.soft.link = s.soft.link + 1 ∧
          s'.nextSeq o.world hubSource = (s.nextSeq o.world hubSource + 1) % 2 ^ 32))) ∧
  (∀ s cluster lines, yields (.gatherBufferDrain cluster lines) s fun s' => gathersOut s s' ∧
    (∀ g ∈ s.gathers, g.cluster = cluster → g.addr / 128 ∈ lines → g ∉ s'.gathers) ∧
    (∀ g ∈ s.gathers, g ∉ s'.gathers → g.cluster = cluster ∧
      (s.badPackets.contains (g.addr / 128) = false ∨ ¬ goesHome s g → (∀ h ∈ s.gathers, h.addr = g.addr → h = g) →
        Sparse.get memDefault s'.mem g.addr = g.val) ∧
      (s.badPackets.contains (g.addr / 128) = true → goesHome s g → s.soft.link < s'.soft.link ∧
        recordsWaiting s g.world hubSource < recordsWaiting s' g.world hubSource)) ∧
    (∀ x, s.badPackets.contains (x / 128) = true → (∀ g ∈ s.gathers, g.addr = x → goesHome s g) →
      Sparse.get memDefault s'.mem x = Sparse.get memDefault s.mem x) ∧
    ∀ x, (∀ g ∈ s.gathers, g.cluster = cluster → g.addr ≠ x) →
      Sparse.get memDefault s'.mem x = Sparse.get memDefault s.mem x)

/-- R181 to R183, R189 to R191, R217, R220, R222 to R224, R335: the lanes of an atomic that an event names are performed in its
order, each leaving the value R189 gives and returning the old one, in the scratchpad or in memory, after a wide release's
drain; `.sc` first takes a ticket and waits for older ones; a lane whose line cannot be held exclusively waits, the cluster
having asked for it; a promoted acquire whose line's last release is narrow first asks for a drain; a poisoned line poisons
the destination and is not written; a store whose packet to the home fails is not performed, and a record is posted. The
model's own choices in it: log 17, 18, 26, 108. -/
def Obligations.AtomicCompletion : Prop :=
  ∀ s id o t w aop ty scope ord pro d lanes order now left, outstanding s id o t w → o.ctr ≠ none → lanesOnce lanes →
    now = lanes.filter (fun a => order.contains a.lane) → left = lanes.filter (fun a => !order.contains a.lane) →
    (o.kind = .atomic true aop ty scope ord pro d lanes → s.scratchOlder o = false →
      yields (.atomicComplete id order) s fun s' => s'.mem = s.mem ∧
        goesOn s s' o w (.atomic true aop ty scope ord pro d left) left ∧
        ∃ t' w' ls, s'.findWarp o.team o.warp = some (t', w') ∧ ls.Perm now ∧
          t'.scratch = (atomChain aop ty t.scratch ls).1 ∧
          takesOld w w' ty d (if aop = .st then [] else (atomChain aop ty t.scratch ls).2)) ∧
    (∀ s1 o1 tk, o.kind = .atomic false aop ty scope ord pro d lanes → s.markBlocked o = false →
      (∀ a ∈ lanes, a.pa % (if atomWide ty then 8 else 4) = 0) → s1 = atomFirst s o scope ord → o1 = ticketOf s o ord →
      tk = (if ord = .sc ∧ o.ticket = none then s.ticket + 1 else s.ticket) →
      (¬ firstTicket s o ord → yields (.atomicComplete id order) s fun s' => s'.mem = s.mem ∧ s'.ticket = tk ∧
        s'.ops = withTicket s o ord) ∧
      (firstTicket s o ord → pro = false → (∀ a ∈ now, heldAlone s o scope ord pro (a.pa / 128) ∧
          s1.badPackets.contains (a.pa / 128) = false ∧ (aop = .st ∨ lineClean s1 (a.pa / 128)) ∧
          ∀ g ∈ s1.gathers, g.addr / 128 ≠ a.pa / 128) →
        yields (.atomicComplete id order) s fun s' => s'.ticket = tk ∧
          goesOn s s' o1 w (.atomic false aop ty scope ord pro d left) left ∧
          ∃ t' w' ls, s'.findWarp o.team o.warp = some (t', w') ∧ ls.Perm now ∧
            (∀ x, s1.badPackets.contains (x / 128) = false →
              Sparse.get memDefault s'.mem x = Sparse.get memDefault (atomChain aop ty s1.mem ls).1 x) ∧
            takesOld w w' ty d (if aop = .st then [] else (atomChain aop ty s1.mem ls).2)) ∧
      (∀ a line, firstTicket s o ord → now = [a] → line = a.pa / 128 →
        (pro = true → narrowRelease s line →
          yields (.atomicComplete id order) s fun s' => s'.ticket = tk ∧ s'.mem = s1.mem ∧
            goesOn s s' o1 w (.atomic false aop ty scope ord pro d lanes) lanes ∧ (s'.dirEntry line).draining.isSome = true) ∧
        ((pro = false ∨ ¬ narrowRelease s line) → ¬ heldAlone s o scope ord pro line →
          (atHomeFor s o scope ord pro line = false → l2Holds s (o.core / 8) o.world line = false →
            s.requested (o.core / 8) line = true ∨ aop = .st ∨
              lineFault (s1.snoopOwner line) o.world line = none) →
          yields (.atomicComplete id order) s fun s' => s'.ticket = tk ∧ keepsMemory s1 s' ∧
            goesOn s s' o1 w (.atomic false aop ty scope ord pro d lanes) lanes ∧
            (atHomeFor s o scope ord pro line = false → s'.requested (o.core / 8) line = true) ∧
            ∃ t' w', s'.findWarp o.team o.warp = some (t', w') ∧ w'.vregs = w.vregs ∧ w'.poison = w.poison) ∧
        ((pro = false ∨ ¬ narrowRelease s line) → heldAlone s o scope ord pro line → aop ≠ .st →
          (s1.lineMeta line).p = true → s.potPim (line / 128) = false → (∀ g ∈ s1.gathers, g.addr / 128 ≠ line) →
          yields (.atomicComplete id order) s fun s' => s'.ticket = tk ∧ keepsMemory s1 s' ∧
            goesOn s s' o1 w (.atomic false aop ty scope ord pro d left) left ∧
            ∃ t' w', s'.findWarp o.team o.warp = some (t', w') ∧ w'.vregs = w.vregs ∧
              KMap.find w'.poison (vkey d a.lane) = some { hdr := o.hdr, idx := o.idx, addr := a.va, fault := .integrity }) ∧
        ((pro = false ∨ ¬ narrowRelease s line) → heldAlone s o scope ord pro line → aop = .st →
          atHomeFor s o scope ord pro line = true → s1.badPackets.contains line = true →
          yields (.atomicComplete id order) s fun s' => s'.ticket = tk ∧ s'.mem = s1.mem ∧
            goesOn s s' o1 w (.atomic false aop ty scope ord pro d left) left ∧ s'.soft.link = s1.soft.link + 1 ∧
            recordsWaiting s' o.world hubSource = recordsWaiting s1 o.world hubSource + 1)))

namespace Sys2Proof.Spec

/-! ### Coherence, drains, directory entries and translations (R223, R232 to R235, R326) -/

/-- The first message in flight of a kind between a home and a cluster about a line. -/
def inFlight (s : State) (line cluster : Nat) (k : CohKind) (m : CohMsg) : Prop :=
  s.coh.find? (fun x => x.line == line && x.cluster == cluster && x.kind == k) = some m

/-- From `s`, the line's entry becomes `e` and messages are sent, each a packet with its own nonce (R333); nothing else changes. -/
def homeTakes (s s' : State) (line : Nat) (e : DirEntry) (msgs : List CohMsg) : Prop :=
  s' = { s with coh := s.coh ++ msgs, dir := KMap.put s.dir line e, nonces := s'.nonces } ∧ (msgs = [] → s'.nonces = s.nonces)

/-- The same with message `m` taken out of flight. -/
def homeAnswers (s s' : State) (m : CohMsg) (line : Nat) (e : DirEntry) (msgs : List CohMsg) : Prop :=
  homeTakes { s with coh := s.coh.erase m } s' line e msgs

/-- A message of the home to a cluster. -/
def tellTo (line cluster world : Nat) (hint : Hint) (k : CohKind) : CohMsg :=
  { kind := k, line := line, cluster := cluster, world := world, hint := hint }

/-- The line has one owner, and no sharers. -/
def ownedBy (e : DirEntry) (cluster world : Nat) : DirEntry :=
  { e with state := .x, owner := cluster, sharers := [], world := world, busy := .idle }

/-- SA entered for request `m`: invalidations to the other holders, or the line passes at once when there are none. -/
def entersSa (s s' : State) (m : CohMsg) (line : Nat) (e : DirEntry) (data : Bool) : Prop :=
  (e.others m.cluster = [] →
    homeTakes s s' line (ownedBy e m.cluster m.world) [tellTo line m.cluster m.world m.hint (.grant .m data)]) ∧
  (e.others m.cluster ≠ [] →
    homeTakes s s' line { e with busy := .sa m.cluster data (e.others m.cluster), world := m.world, hint := m.hint }
      ((e.others m.cluster).map fun c => tellTo line c m.world m.hint .inv))

/-- FD entered: the owner is asked to forward. -/
def entersFd (s s' : State) (m : CohMsg) (line : Nat) (e : DirEntry) (write : Bool) : Prop :=
  homeTakes s s' line { e with busy := .fd m.cluster write e.owner, world := m.world, hint := m.hint }
    [tellTo line e.owner m.world m.hint (.fwd write m.cluster)]

/-- A request to write served at an idle line. -/
def servesGetm (s s' : State) (m : CohMsg) (line : Nat) (e : DirEntry) : Prop :=
  (e.state = .i → homeTakes s s' line { e with busy := .id m.cluster true, world := m.world, hint := m.hint } []) ∧
  (e.state = .s ∨ e.state = .o → entersSa s s' m line e true) ∧
  (e.state = .x → e.owner = m.cluster → entersSa s s' m line e true) ∧
  (e.state = .x → e.owner ≠ m.cluster → entersFd s s' m line e true)

/-- A request of kind `k` served at an idle line, from `s` with the line's entry `e` (R232 to R234). -/
def serves (s s' : State) (k : CohKind) (m : CohMsg) (line : Nat) (e : DirEntry) : Prop :=
  (k = .getS →
    (e.state = .i → homeTakes s s' line { e with busy := .id m.cluster false, world := m.world, hint := m.hint } []) ∧
    (e.state = .s → homeTakes s s' line
      { e with sharers := if m.cluster ∈ e.sharers then e.sharers else e.sharers ++ [m.cluster] }
      [tellTo line m.cluster m.world m.hint (.grant .s true)]) ∧
    (e.state = .x ∨ e.state = .o → e.owner = m.cluster → ∃ n, s' = { s with
      coh := s.coh ++ [tellTo line m.cluster m.world m.hint (.grant .s true)], nonces := n }) ∧
    (e.state = .x ∨ e.state = .o → e.owner ≠ m.cluster → entersFd s s' m line e false)) ∧
  (k = .getM → servesGetm s s' m line e) ∧
  (k = .upg →
    ((e.state = .s ∨ e.state = .o) ∧ m.cluster ∈ e.sharers ∨ e.state = .o ∧ e.owner = m.cluster → entersSa s s' m line e false) ∧
    (¬ ((e.state = .s ∨ e.state = .o) ∧ m.cluster ∈ e.sharers ∨ e.state = .o ∧ e.owner = m.cluster) →
      servesGetm s s' m line e))

/-- The cluster is the line's owner at the home. -/
def isOwner (e : DirEntry) (cluster : Nat) : Prop := (e.state = .x ∨ e.state = .o) ∧ e.owner = cluster

/-- A Put, and a grant, of a line between a cluster and its home are on their way. -/
def putGoes (s : State) (line cluster : Nat) : Prop :=
  ∃ x ∈ s.coh, x.line = line ∧ x.cluster = cluster ∧ (x.kind = .putE ∨ x.kind = .putM ∨ x.kind = .putO)
def grantGoes (s : State) (line cluster : Nat) : Prop :=
  ∃ x ∈ s.coh, x.line = line ∧ x.cluster = cluster ∧ ∃ st d, x.kind = .grant st d

/-- A request that the home cannot serve yet: another is being served, or the requester's own Put is on its way. -/
def waitsAtHome (s : State) (line cluster : Nat) : Prop := (s.dirEntry line).busy ≠ .idle ∨ putGoes s line cluster

/-- The cluster holds, or is being given, another world's copy of the line. -/
def holdsOther (s : State) (line cluster : Nat) : Prop :=
  (∃ x ∈ s.l2, x.cluster = cluster ∧ x.line = line) ∨ grantGoes s line cluster

/-- The entry after the owner's Put, the holders left being `sh`: S while there are any, else I. -/
def afterPut (e : DirEntry) (sh : List Nat) : DirEntry := { e with state := if sh = [] then .i else .s, sharers := sh, owner := 0 }

end Sys2Proof.Spec

/-- R232 to R235, R330, R333: the home serves requests for a line one at a time, through ID, SA and FD, those that cannot be
served waiting in their order of arrival, and takes Puts and acknowledgements at once; the owner's own request for another
world's copy is granted; a Put with data from the owner goes into the LLC, or is lost with a record when its packet fails, and
one from a former owner is discarded. The model's own choices in it: log 19, 24, 94, 107. -/
def Obligations.HomeEvents : Prop :=
  ∀ s line cluster m e, s.dirEntry line = e →
    (∀ k ∈ ([(.homeGets line cluster, .getS), (.homeGetm line cluster, .getM), (.homeUpg line cluster, .upg)] :
        List (Instr × CohKind)),
      (e.queue = [] → inFlight s line cluster k.2 m → ¬ waitsAtHome s line cluster →
        yields k.1 s fun s' => serves { s with coh := s.coh.erase m } s' k.2 m line e) ∧
      (e.queue = [] ∨ (∃ x r, e.queue = x :: r ∧ ¬ (x.cluster = cluster ∧ x.kind = k.2)) → inFlight s line cluster k.2 m →
        e.queue ≠ [] ∨ waitsAtHome s line cluster →
        yields k.1 s fun s' => homeAnswers s s' m line { e with queue := e.queue ++ [m] } []) ∧
      (∀ r, e.queue = m :: r → m.cluster = cluster → m.line = line → m.kind = k.2 →
        (¬ waitsAtHome s line cluster → yields k.1 s fun s' =>
          serves { s with dir := KMap.put s.dir line { e with queue := r } } s' k.2 m line { e with queue := r }) ∧
        (waitsAtHome s line cluster → exec k.1 s = .next s))) ∧
    (∀ k ∈ ([(.homePute line cluster, .putE, false), (.homePutm line cluster, .putM, true),
        (.homePuto line cluster, .putO, true)] : List (Instr × CohKind × Bool)), inFlight s line cluster k.2.1 m →
      (isOwner e cluster → ∃ sh s1, (∀ c, c ∈ sh ↔ c ≠ cluster ∧ c ∈ e.sharers ∨ c = cluster ∧ holdsOther s line cluster) ∧
        homeAnswers s s1 m line (afterPut e sh) [] ∧
        (k.2.2 = false → exec k.1 s = .next s1) ∧
        (k.2.2 = true → s.badPackets.contains line = false → exec k.1 s = .next (s1.useLlc m.world line m.hint true)) ∧
        (k.2.2 = true → s.badPackets.contains line = true → yields k.1 s fun s' =>
          (∀ x, x / 128 ≠ line → Sparse.get memDefault s'.mem x = Sparse.get memDefault s.mem x) ∧
          s'.soft.link = s.soft.link + 1 ∧ s'.dir = s1.dir ∧ s'.coh = s1.coh ∧
          recordsWaiting s' m.world hubSource = recordsWaiting s m.world hubSource + 1)) ∧
      (¬ isOwner e cluster → exec k.1 s = .next { s with coh := s.coh.erase m })) ∧
    (∀ r write, e.busy = .id r write → yields (.homeMemoryData line) s fun s' =>
      homeTakes s s' line (ownedBy e r e.world) [tellTo line r e.world e.hint (.grant (if write then .m else .e) true)]) ∧
    (∀ r data acks, inFlight s line cluster .invAck m → e.busy = .sa r data acks →
      yields (.homeInvalidationAck line cluster) s fun s' =>
        ((∀ c ∈ acks, c = cluster) → putGoes s line r → s' = s) ∧
        ((∀ c ∈ acks, c = cluster) → ¬ putGoes s line r →
          homeAnswers s s' m line (ownedBy e r e.world) [tellTo line r e.world e.hint (.grant .m data)]) ∧
        ((∃ c ∈ acks, c ≠ cluster) → homeAnswers s s' m line
          { e with busy := .sa r data (acks.filter fun c => c != cluster), sharers := e.sharers.filter fun c => c != cluster } [])) ∧
    (∀ r write owner wasE, s.coh.find? (fun x => x.line == line && x.cluster == cluster && (x.kind == .confirm true ||
        x.kind == .confirm false)) = some m → m.kind = .confirm wasE → e.busy = .fd r write owner →
      yields (.homeForwardConfirm line cluster) s fun s' =>
        (write = true → homeAnswers s s' m line { e with state := .x, owner := r, sharers := [], busy := .idle } []) ∧
        (write = false → (e.state = .x ∨ e.state = .o) → ∃ sh, (∀ c, c ∈ sh ↔ c = owner ∨ c ∈ e.sharers ∨ c = r) ∧
          homeAnswers s s' m line { e with state := if wasE then .s else .o, owner := if wasE then 0 else owner,
                                           sharers := sh, busy := .idle } []) ∧
        (write = false → (e.state = .i ∨ e.state = .s) → ∃ sh, (∀ c, c ∈ sh ↔ c ∈ e.sharers ∨ c = r) ∧
          homeAnswers s s' m line { e with state := .s, owner := 0, sharers := sh, busy := .idle } []))

/-- R223, R232 to R235, R326: an L2 that has what it was granted drops a line it is told to and acknowledges, forwards what it
owns or has in its write-back buffer and confirms, and holds a granted line in the state granted; drains merge a world's
gathered stores, and one of a line's last release makes it device-wide; an entry of a line no L2 holds goes, after the drain
it needs; a page walk that both stages allow fills the core's and its cluster's TLB. The model's own choices in it: log 19,
24, 27, 94, 107, 113. -/
def Obligations.CacheEvents : Prop :=
  (∀ s line cluster, grantGoes s line cluster → exec (.l2Invalidation line cluster) s = .next s ∧
    exec (.l2ForwardedRequest line cluster) s = .next s) ∧
  (∀ s line cluster m, inFlight s line cluster .inv m → ¬ grantGoes s line cluster →
    yields (.l2Invalidation line cluster) s fun s' => (∀ x ∈ s'.l2, ¬ (x.cluster = cluster ∧ x.line = line)) ∧
      (∀ x ∈ s.l2, ¬ (x.cluster = cluster ∧ x.line = line) → x ∈ s'.l2) ∧
      s'.coh = s.coh.erase m ++ [tellTo line cluster m.world m.hint .invAck] ∧ s'.dir = s.dir) ∧
  (∀ s line cluster m write dest, inFlight s line cluster (.fwd write dest) m →
    (∀ x ∈ s.coh, x.line = line → x.cluster = cluster → ∀ v u, x.kind = .fwd v u → v = write ∧ u = dest) →
    ¬ grantGoes s line cluster → yields (.l2ForwardedRequest line cluster) s fun s' => s'.mem = (s.mergeLine cluster line).mem ∧
      (∃ wasE, s'.coh = s.coh.erase m ++ [tellTo line dest m.world m.hint (.grant (if write then .m else .s) true),
          tellTo line cluster m.world m.hint (.confirm wasE)] ∧
        (wasE = true ↔ (∀ x ∈ s.l2, x.cluster = cluster → x.line = line → x.state = .e ∨ x.state = .s) ∧
          ∀ x ∈ s.coh, x.line = line → x.cluster = cluster → x.kind ≠ .putM ∧ x.kind ≠ .putO)) ∧
      (write = true → ∀ x ∈ s'.l2, ¬ (x.cluster = cluster ∧ x.line = line)) ∧
      (write = false → ∀ x ∈ s'.l2, x.cluster = cluster → x.line = line → x.state ≠ .m ∧ x.state ≠ .e)) ∧
  (∀ s line cluster st data m x, inFlight s line cluster (.grant st data) m →
    (∀ y ∈ s.coh, y.line = line → y.cluster = cluster → ∀ a b, y.kind = .grant a b → a = st ∧ b = data) →
    s.l2.find? (fun y => y.cluster == cluster && y.world == m.world && y.line == line) = some x →
    yields (.l2Grant line cluster) s fun s' => s'.coh = s.coh.erase m ∧ { x with state := st } ∈ s'.l2 ∧ s'.mem = s.mem ∧
      s'.dir = s.dir) ∧
  (∀ s line cluster st data m, inFlight s line cluster (.grant st data) m →
    (∀ y ∈ s.coh, y.line = line → y.cluster = cluster → ∀ a b, y.kind = .grant a b → a = st ∧ b = data) →
    s.l2.find? (fun y => y.cluster == cluster && y.world == m.world && y.line == line) = none →
    exec (.l2Grant line cluster) s = .next ((s.takeMsg m).fillL2 cluster m.world line m.hint st)) ∧
  (∀ s world cluster, (∃ m ∈ s.drains, m.world = world ∧ m.cluster = cluster ∧ m.acked = false) →
    yields (.promotionDrain world cluster) s fun s' => s'.mem = (s.drainWorld cluster world).mem ∧
      (∀ g ∈ s'.gathers, ¬ (g.cluster = cluster ∧ g.world = world)) ∧
      s'.drains = s.drains.map fun m => if m.world = world ∧ m.cluster = cluster then { m with acked := true } else m) ∧
  (∀ s world cluster, yields (.drainAck world cluster) s fun s' => s'.mem = s.mem ∧ s'.teams = s.teams ∧
    (∀ m ∈ s.drains, ∀ n, m.world = world → m.cluster = cluster → m.acked = true → m.line = some n →
      m ∉ s'.drains ∧ ((s.dirEntry n).draining = some m.no →
        (s'.dirEntry n).lrs = some .dev ∧ (s'.dirEntry n).draining = none)) ∧
    (∀ n, (∀ m ∈ s.drains, m.world = world → m.cluster = cluster → m.acked = true → m.line = some n →
      (s.dirEntry n).draining ≠ some m.no) → s'.dirEntry n = s.dirEntry n) ∧
    ∀ m ∈ s.drains, ¬ (m.world = world ∧ m.cluster = cluster ∧ m.acked = true ∧ m.line.isSome = true) → m ∈ s'.drains) ∧
  (∀ s line, (s.dirEntry line).busy = .idle → (s.dirEntry line).queue = [] → (s.dirEntry line).state = .i →
    (s.dirEntry line).draining = none → (∀ m ∈ s.coh, m.line ≠ line) →
    (¬ narrowRelease s line → exec (.directoryEntryDrop line) s = .next { s with dir := KMap.erase s.dir line }) ∧
    (narrowRelease s line → yields (.directoryEntryDrop line) s fun s' => ∃ m, s'.drains = s.drains ++ [m] ∧
      m.line = some line ∧ m.cluster = (s.dirEntry line).lrc ∧ m.acked = false ∧
      (s'.dirEntry line).draining = some m.no)) ∧
  (∀ s core world va e, core < 128 → va < 2 ^ 58 → (s.world world).state = .active → s.walkPage core world va = .ok e →
    s.potAllows world e.ppage .read = true →
    yields (.pageWalk core world va) s fun s' => s' = { (s.pageWalk core world va).2 with tlb := s'.tlb } ∧
      s'.tlbFind core world (va / 16384) = some e ∧ { e with cluster := true, unit := core / 8 } ∈ s'.tlb)

namespace Sys2Proof.Spec

/-! ### Progress and ends of copies and of the engines' operations (R200, R205 to R211, R242, R254, R255, R268, R283) -/

/-- A barrier after `k` arrivals: its phase turns once the expected count is there (R54). -/
def arrived (b : Barrier) (k : Nat) : Barrier :=
  match b.e with
  | none => { b with a := min 4095 (b.a + k) }
  | some e =>
    if e ≤ min 4095 (b.a + k) then { phase := !b.phase, a := min 4095 (b.a + k) - e, e := none }
    else { b with a := min 4095 (b.a + k) }

/-- Element `e` of a copy: its address at the destination (R206). -/
def dstAddr (c : Copy) (e : Nat) : Nat := unitAddr c.dst (addCoords c.dorg (coordsOf c.box c.src.rank e))

/-- Elements a beat of 64 bytes carries from the copy's next one on. -/
def beatElems (c : Copy) : List Nat :=
  (List.range (min (64 / c.src.esize) (c.total - c.next))).map fun i => c.next + i

/-- Fields of a world's CPYBW (R210). -/
def cpybwField (x : World) (hi lo : Nat) : Nat := field x.cpybw.toNat hi lo

/-- A world's account on a cluster after one hub cycle (R211): half the rate at most pays the debt, the rest fills the bucket up
to its depth. -/
def tick (x : World) (a : CopyAccount) : CopyAccount :=
  let pay := min a.debt (cpybwField x 47 38 / 2)
  { a with debt := a.debt - pay, bucket := min (64 * cpybwField x 37 24) (a.bucket + cpybwField x 47 38 - pay) }

/-- Whether a copy's target still takes elements. -/
def takes (g : CopyTgt) : Prop := g.state = .waiting ∨ g.state = .registered

/-- An operation replaced under its number. -/
def becomes (s s' : State) (o o' : Op) : Prop := s'.ops = s.ops.map fun x => if x.id = o.id then o' else x

/-- The fault that an engine's read of a line delivers: none where the cluster has gathered the line whole; a poisoned line's in its
L2; else what its read below delivers, to which its packets go. -/
def loadFault (s : State) (cluster world line : Nat) : Option DataFault :=
  if s.gatheredWhole cluster world line then none
  else if l2Holds s cluster world line then (if (s.lineMeta line).p then some .integrity else none)
  else lineFault ((if cluster < 16 then s.homeTrip cluster world line false else s).snoopOwner line) world line

/-- Lines read one after another until one delivers a fault: that line and its fault. -/
def readsInTurn (cluster world : Nat) : State → List Nat → Option (Nat × DataFault)
  | _, [] => none
  | s, l :: r =>
    match loadFault s cluster world l with
    | some f => some (l, f)
    | none => readsInTurn cluster world (State.loadLine cluster world s l).2 r

/-- The first address of byte ranges, line by line, whose read delivers a data fault, with the fault (R242). -/
def spansFault (s : State) (o : Op) (pages : KMap Nat) (spans : List (Nat × Nat)) : Option (Nat × DataFault) :=
  let line := fun a => heldPa pages a / 128
  (readsInTurn (o.core / 8) o.world s ((spanLines spans).map line)).bind fun f =>
    ((spanLines spans).find? fun a => line a == f.1).map fun a => (a, f.2)

/-- The operation's global operands are read, noted in the world's log: the data fault met, of them or of a packet on a link with an
AD (R242, R333), and the state then. -/
def operandsRead (s : State) (o : Op) (x : Tensor) (f : Option (Nat × DataFault)) (s2 : State) : Prop :=
  ∃ g, (s.noteSpans o x.pages (logAgent 2 o.core) logRead x.readSpans).readSpans o x.pages x.readSpans = (g, s2) ∧
    f = (if g = none ∧ (x.layer.map LayerHold.linkFault).getD false = true then some (0, .integrity) else g)

/-- The bytes that an effect puts into memory, with STATUS `st`, each at its physical address, in order (R242). -/
def bytesAt (a : Nat) (bs : List Byte) : List (Nat × Byte) := (bs.zip (List.range bs.length)).map fun b => (a + b.2, b.1)
def effectBytes (o : Op) (x : Tensor) (e : Effect) (st : Nat) : List (Nat × Byte) :=
  (e.mem.flatMap fun p => if p.1 then [] else (bytesAt p.2.1 p.2.2).map fun b => (heldPa x.pages b.1, b.2)) ++
    (e.block.flatMap fun p => bytesAt (o.blkpa + p.1) p.2) ++ [(o.blkpa + x.kind.statusAt, BitVec.ofNat 8 st)]

/-- Each address holds the last of the bytes put there; another keeps its byte, as `keepsMemory` says. -/
def holdsLast (s s' : State) (l : List (Nat × Byte)) : Prop :=
  (∀ a b pre post, l = pre ++ (a, b) :: post → (∀ q ∈ post, q.1 ≠ a) → Sparse.get memDefault s'.mem a = b) ∧
  ∀ a, (∀ q ∈ l, q.1 ≠ a) → s.badPackets.contains (a / 128) = false → (∀ g ∈ s.gathers, g.addr ≠ a) →
    Sparse.get memDefault s'.mem a = Sparse.get memDefault s.mem a

/-- No line of global memory that the effect writes has a packet that fails. -/
def writesGo (s : State) (x : Tensor) (e : Effect) : Prop :=
  ∀ p ∈ e.mem, p.1 = false → ∀ i < p.2.2.length, s.badPackets.contains (heldPa x.pages (p.2.1 + i) / 128) = false

/-- The operation has ended with its whole effect: its results in memory, scratchpad, tiles, row state and bank, its flags merged and
STATUS `st` (R242). -/
def performed (s s' : State) (o : Op) (t : Team) (w : Warp) (x : Tensor) (e : Effect) (st : Nat) : Prop :=
  ended s s' o w ∧ holdsLast s s' (effectBytes o x e st) ∧
    ((s'.coreSt o.core).banks.bank x.bank).elems =
      e.bank.foldl (fun y p => Sparse.set 0 y p.1 p.2) ((s.coreSt o.core).banks.bank x.bank).elems ∧
    ∃ t' w', s'.findWarp o.team o.warp = some (t', w') ∧ w'.fpstat = w.fpstat ||| e.flags ∧
      t'.tiles = (e.tiles.foldl (fun y p => y.setTile p.1 p.2.1 p.2.2) t).tiles ∧
      t'.reel = e.reel.foldl (fun y p => Sparse.set 0 y p.1 p.2) t.reel ∧
      t'.scratch = (e.mem.filter fun p => p.1).foldl (fun y p => Sparse.setN 0 y p.2.1 p.2.2) t.scratch

/-- Where a stack copy reads byte `i` of its range and where it writes it: a scratchpad offset, or a virtual address. -/
def stackSrc (c : StackCopy) (i : Nat) : Nat := (if c.push then c.map.base else c.stack) + i
def stackDst (c : StackCopy) (i : Nat) : Nat := (if c.push then c.stack else c.map.base) + i
def srcLocal (c : StackCopy) : Prop := c.push = true ∧ c.map.scratch = true
def dstLocal (c : StackCopy) : Prop := c.push = false ∧ c.map.scratch = true

/-- A stack copy in whole pieces of 64 bytes, whose global lines are told apart and lose no packet. -/
def stackPlain (s : State) (c : StackCopy) : Prop :=
  c.next % 64 = 0 ∧ c.bytes % 64 = 0 ∧ c.next ≤ c.bytes ∧ stackSrc c 0 % 64 = 0 ∧ stackDst c 0 % 64 = 0 ∧
    stackSrc c c.bytes < 2 ^ 64 ∧
    (¬ dstLocal c → (∀ i < c.bytes, s.badPackets.contains (heldPa c.pages (stackDst c i) / 128) = false) ∧
      (∀ i < c.bytes, ∀ k < c.bytes, heldPa c.pages (stackDst c i) = heldPa c.pages (stackDst c k) → i = k) ∧
      (¬ srcLocal c → ∀ i < c.bytes, ∀ k < c.bytes,
        heldPa c.pages (stackSrc c i) / 128 ≠ heldPa c.pages (stackDst c k) / 128))

/-- Bytes `c.next` to `n` of a stack copy, as read in `s`, are in place in `s'`, and no other of the team's scratchpad or of memory
changes but as `keepsMemory` says (R268). -/
def stackMoved (s s' : State) (o : Op) (t : Team) (c : StackCopy) (n : Nat) : Prop :=
  ∃ (t' : Team) (b : Nat → Byte), s'.findTeam o.team = some t' ∧
    (∀ i, b i = if c.push = true ∧ c.map.scratch = true then Sparse.get 0 t.scratch (stackSrc c i)
      else s.clusterByte (t.core / 8) t.world (heldPa c.pages (stackSrc c i))) ∧
    (dstLocal c → (∀ i, c.next ≤ i → i < n → Sparse.get 0 t'.scratch (stackDst c i) = b i) ∧
      (∀ k, (∀ i, c.next ≤ i → i < n → k ≠ stackDst c i) → Sparse.get 0 t'.scratch k = Sparse.get 0 t.scratch k) ∧
      s'.mem = s.mem) ∧
    (¬ dstLocal c → t'.scratch = t.scratch ∧
      (∀ i, c.next ≤ i → i < n → Sparse.get memDefault s'.mem (heldPa c.pages (stackDst c i)) = b i) ∧
      ∀ a, (∀ i, c.next ≤ i → i < n → a ≠ heldPa c.pages (stackDst c i)) → s.badPackets.contains (a / 128) = false →
        (∀ g ∈ s.gathers, g.addr ≠ a) → Sparse.get memDefault s'.mem a = Sparse.get memDefault s.mem a)

/-- A copy whose next elements may move: its read phase may go, an element is left, and no NQ4 record is in part moved. -/
def beatReady (s : State) (o : Op) (c : Copy) : Prop :=
  s.beatWaits o = true ∧ c.src.fmt ≠ .nq4 ∧ (c.multi = true ∨ c.flight = [] ∨ s.mayWrite o = false)

/-- As `beatReady`, and the path grants a beat. -/
def beatGoes (s : State) (o : Op) (c : Copy) (s1 : State) : Prop :=
  beatReady s o c ∧ s.grantBeat (o.core / 8) o.world = some s1

/-- TPROG of a copy that parks (R355). -/
def progressOf (o : Op) (c : Copy) : DWord :=
  BitVec.ofNat 64 (2 ^ 63 + (if c.multi then 2 else 1) * 2 ^ 60 + o.kn.getD 0 * 2 ^ 57 + c.next % 2 ^ 48)

end Sys2Proof.Spec

/-- R200, R205 to R211, R219, R223, R225, R242, R335, R353, R355: a read of a line by an engine delivers what R335 says, and
memory keeps its bytes but for those gathered that reach it; `tmld` fills its slot or leaves its fault there; a granted beat
moves the next elements, or, while the write phase may not start, reads them; a copy that meets a fault parks and one that
meets a data fault stops, with no beat charged, once nothing is in flight; each hub cycle fills the expert worlds' buckets; a
copy that has moved all writes arrival word, STATUS and SMASK and arrives on its barrier; a multicast beat is written at a
target that still stands, and drops one that does not. The model's own choices in it: log 30, 31, 45, 47, 48, 95, 96. -/
def Obligations.CopyEvents : Prop :=
  (∀ (s : State) cluster world line f s2, State.loadLine cluster world s line = (f, s2) →
    f = loadFault s cluster world line ∧ keepsMemory s s2 ∧ gathersOut s s2 ∧ s2.ops = s.ops ∧
    ∀ x, x / 128 ≠ line → Sparse.get memDefault s2.mem x = Sparse.get memDefault s.mem x) ∧
  (∀ s id o t w slot va pa f s2, outstanding s id o t w → o.kind = .tmld slot va pa → s.mayRun o = true →
    State.loadLine (o.core / 8) o.world (s.noteMem o.core o.world (logAgent 0 o.core) logRead va pa 128) (pa / 128) = (f, s2) →
    yields (.tmldComplete id o.team) s fun s' => ended s s' o w ∧ s'.mem = s2.mem ∧ ∃ t', s'.findTeam o.team = some t' ∧
      (f = none →
        (∀ i < 128, Sparse.get 0 t'.slots (slot * 128 + i) = s2.clusterByte (o.core / 8) o.world (pa + i)) ∧
        (∀ k, k < slot * 128 ∨ slot * 128 + 128 ≤ k → Sparse.get 0 t'.slots k = Sparse.get 0 t.slots k) ∧
        (∀ i off n v, ¬ maySee t'.old i (.field slot off n) v) ∧ KMap.find t'.slotFaults slot = none) ∧
      ∀ e, f = some e →
        t'.slots = t.slots ∧ KMap.find t'.slotFaults slot = some { hdr := o.hdr, idx := o.idx, addr := va, fault := e }) ∧
  (∀ s id o t w c s1 (bs : Nat → List Byte), outstanding s id o t w → o.kind = .copy c → beatGoes s o c s1 →
    c.dst.scratch = true → c.src.scratch = false → (∀ e ∈ beatElems c, (s.readUnit o c e).1 = .bytes (bs e)) →
    yields (.copyBeat id) s fun s' => keepsMemory s s' ∧ s'.accounts = s1.accounts ∧ ∃ t' o' c',
      s'.findTeam o.team = some t' ∧ s'.findOp id = some o' ∧ o'.kind = .copy c' ∧ c'.next = c.next + (beatElems c).length ∧
      (c.multi = false → s.mayWrite o = true → c'.flight = [] ∧
        c'.bytes = c.bytes + ((beatElems c).map fun e => (bs e).length).sum ∧
        t'.scratch = (beatElems c).foldl (fun m e => Sparse.setN 0 m (dstAddr c e) (bs e)) t.scratch) ∧
      (c.multi = true ∨ s.mayWrite o = false → c'.bytes = c.bytes ∧ t'.scratch = t.scratch ∧
        ∀ e ∈ beatElems c, KMap.find c'.flight e = some (bs e))) ∧
  (∀ s id o t w c, outstanding s id o t w → o.kind = .copy c → c.multi = false → c.dst.scratch = true → c.flight ≠ [] →
    s.mayWrite o = true → yields (.copyBeat id) s fun s' => s'.mem = s.mem ∧ ∃ t' o' c', s'.findTeam o.team = some t' ∧
      s'.findOp id = some o' ∧ o'.kind = .copy c' ∧ c'.flight = [] ∧ c'.next = c.next ∧
      c'.bytes = c.bytes + (c.flight.map fun p => p.2.length).sum ∧
      t'.scratch = c.flight.foldl (fun m p => Sparse.setN 0 m (dstAddr c p.1) p.2) t.scratch) ∧
  (∀ s id o t w c code a, outstanding s id o t w → o.kind = .copy c → beatReady s o c → c.flight ≠ [] →
    (s.readUnit o c c.next).1 = .parks code a ∨ (s.readUnit o c c.next).1 = .stops code a → exec (.copyBeat id) s = .next s) ∧
  (∀ s id o t w c code a, outstanding s id o t w → o.kind = .copy c → beatReady s o c → c.flight = [] →
    ((s.readUnit o c c.next).1 = .parks code a → yields (.copyBeat id) s fun s' => keepsMemory s s' ∧ s'.accounts = s.accounts ∧
      ∃ t' w' o' c',
      s'.findWarp o.team o.warp = some (t', w') ∧ w'.tprog = progressOf o c ∧ s'.findOp id = some o' ∧
      o'.kind = .copy c' ∧ c'.next = c.next ∧ o'.parked.isSome = true ∧ o'.inTprog = true ∧ t'.scratch = t.scratch) ∧
    ((s.readUnit o c c.next).1 = .stops code a → yields (.copyBeat id) s fun s' => keepsMemory s s' ∧ s'.accounts = s.accounts ∧
      ∃ t' o' c',
      s'.findTeam o.team = some t' ∧ t'.scratch = t.scratch ∧ s'.findOp id = some o' ∧ o'.kind = .copy c' ∧
      c'.next = c.total ∧ 2 ≤ c'.status ∧
      (o.core < 128 →
        s'.nextSeq o.world (copySource o.core) = (s.nextSeq o.world (copySource o.core) + 1) % 2 ^ 32))) ∧
  (∀ s, (s.worlds.map Prod.fst).Nodup → yields .copyBucketTick s fun s' => s'.hubTime = s.hubTime + 1 ∧
    ∀ w x, (w, x) ∈ s.worlds → ∀ k < 16,
      s'.account w k = (if bitOf x.cpybw.toNat 63 = true ∧ x.state = .active then tick x (s.account w k) else s.account w k)) ∧
  (∀ s id o t w c, outstanding s id o t w → o.kind = .copy c → o.parked = none → o.paused = false → c.multi = false →
    c.total ≤ c.next → c.flight = [] →
    yields (.cpyComplete id) s fun s' => ended s s' o w ∧ s'.readMem (o.blkpa + 5) 2 = [BitVec.ofNat 8 c.status, 0] ∧
      ∃ t' w', s'.findWarp o.team o.warp = some (t', w') ∧ w'.tprog = (if o.inTprog then 0 else w.tprog) ∧
        t'.barrier c.bar = (if c.baren then arrived (t.barrier c.bar) 1 else t.barrier c.bar) ∧
        (c.awen = true → c.awsp = true → leVal (t'.scratchRead c.awaddr 8) = (leVal (t.scratchRead c.awaddr 8) + c.bytes) % 2 ^ 64) ∧
        (c.awen = true → c.awsp = false → c.awpa % 8 = 0 → c.awpa / 128 ≠ (o.blkpa + 5) / 128 →
          c.awpa / 128 ≠ (o.blkpa + 6) / 128 →
          leVal (s'.readMem c.awpa 8) = (leVal
            (((s.drainWorld (o.core / 8) o.world).snoopOwner (c.awpa / 128)).readMem c.awpa 8) + c.bytes) % 2 ^ 64 ∧
          (s'.dirEntry (c.awpa / 128)).lrs = some .dev ∧ (s'.dirEntry (c.awpa / 128)).lrc = o.core / 8)) ∧
  (∀ s id o t w c k g tg, outstanding s id o t w → o.kind = .copy c → c.multi = true → o.parked = none → o.paused = false →
    c.targets[k]? = some g → takes g → g.got < c.next →
    (s.targetHere o g = false → yields (.cpymBeatArrival id k) s fun s' => s'.mem = s.mem ∧ s'.teams = s.teams ∧
      ∃ o' c' g', s'.findOp id = some o' ∧ o'.kind = .copy c' ∧ c'.targets[k]? = some g' ∧ g'.state = .dropped ∧
        bitOf c'.smask k = true ∧ 1 ≤ c'.status) ∧
    (s.targetHere o g = true → s.findTeam g.team = some tg → c.src.fmt ≠ .nq4 → g.state = .registered →
      s.mustWait g.team g.reg [] g.writes = false → min c.next (g.got + 64 / c.src.esize) < c.total →
      yields (.cpymBeatArrival id k) s fun s' => s'.mem = s.mem ∧ ∃ t' o' c' g', s'.findTeam g.team = some t' ∧
        s'.findOp id = some o' ∧ o'.kind = .copy c' ∧ c'.targets[k]? = some g' ∧
        g'.got = min c.next (g.got + 64 / c.src.esize) ∧
        t'.scratch = (c.flight.filter fun p => decide (g.got ≤ p.1) && decide (p.1 < g'.got)).foldl
          (fun m p => Sparse.setN 0 m (dstAddr c p.1) p.2) tg.scratch)) ∧
  (∀ s id o t w c, outstanding s id o t w → o.kind = .copy c → o.parked = none → o.paused = false → c.multi = true →
    (∀ g ∈ c.targets, ¬ takes g) →
    yields (.cpymComplete id) s fun s' => ended s s' o w ∧
      s'.readMem (o.blkpa + 5) 2 = [BitVec.ofNat 8 c.status, BitVec.ofNat 8 c.smask] ∧
      ∃ t' w', s'.findWarp o.team o.warp = some (t', w') ∧ w'.tprog = (if o.inTprog then 0 else w.tprog))

/-- R225, R242, R248, R249, R254, R259, R268, R283, R285, R333: an engine reads its operands line by line to the first that
delivers a data fault. A tensor operation that may be performed puts its results into memory, scratchpad, tiles, row state and
bank, merges its flags, writes STATUS, counts the chunks it recomputed and ends, its writes held while an older entry holds
them; a data fault of a global operand, or a lost packet of an AD or of a result, gives STATUS 2 and a failed check STATUS 4,
with a record. A tile evaluation delivers 12-bit codes, and no mismatch where every group is sound and no code was clamped. A
stack copy moves its bytes, or those before the first line with a data fault, with a record. The model's own choices in it:
log 15, 39, 43, 45, 109, 110, 116. -/
def Obligations.EngineEvents : Prop :=
  (∀ (s : State) o pages spans f s2, s.readSpans o pages spans = (f, s2) → f = spansFault s o pages spans ∧ keepsMemory s s2 ∧
    gathersOut s s2 ∧ s2.ops = s.ops) ∧
  (∀ s id o t w x retries, outstanding s id o t w → o.kind = .tensor x → x.result = none → s.tensorReady o x = true →
    (x.kind = .zero → ∀ failed, yields (.tensorOpComplete id ⟨retries, failed⟩) s fun s' => ended s s' o w ∧ s'.mem = s.mem ∧
      ∃ t', s'.findTeam o.team = some t' ∧ (∀ z ∈ o.tiles, ∀ p, t'.tileElem z p = 0) ∧
        ∀ z, z ∉ o.tiles → KMap.find t'.tiles z = KMap.find t.tiles z) ∧
    (x.kind ≠ .zero → ∀ f s2 failed, operandsRead s o x f s2 →
      (s.mayWrite o = false → yields (.tensorOpComplete id ⟨retries, failed⟩) s fun s' => s'.mem = s2.mem ∧
        ∃ o' x' r t', s'.findOp id = some o' ∧ o'.kind = .tensor x' ∧ x'.result = some r ∧ o'.readDone = true ∧
          s'.findTeam o.team = some t' ∧ t'.tiles = t.tiles ∧ t'.scratch = t.scratch ∧ t'.reel = t.reel ∧
          (f = none → failed = none → r.effect = tensorEffect s2 o t x none ∧ r.status = 0 ∧ r.fault = none ∧ r.open' = false)) ∧
      (s.mayWrite o = true →
        (∀ e, f = none → failed = none → e = tensorEffect s2 o t x none → (∀ p ∈ e.mem, p.2.2.length ≤ 16384) →
          (writesGo s2 x e → yields (.tensorOpComplete id ⟨retries, failed⟩) s fun s' => performed s2 s' o t w x e 0 ∧
            s'.soft.matrix = s.soft.matrix + (retries.eraseDups.filter fun c => decide (c < x.chunks)).length) ∧
          (¬ writesGo s2 x e → yields (.tensorOpComplete id ⟨retries, failed⟩) s fun s' => ended s s' o w ∧
            s'.readMem (o.blkpa + x.kind.statusAt) 1 = [2] ∧ (o.core < 128 →
              s'.nextSeq o.world (tensorSource o.core) = (s.nextSeq o.world (tensorSource o.core) + 1) % 2 ^ 32))) ∧
        (∀ e, f = some e → yields (.tensorOpComplete id ⟨retries, failed⟩) s fun s' => ended s s' o w ∧
          s'.readMem (o.blkpa + x.kind.statusAt) 1 = [2] ∧
          (o.core < 128 → s'.nextSeq o.world (tensorSource o.core) = (s.nextSeq o.world (tensorSource o.core) + 1) % 2 ^ 32)) ∧
        (∀ k, k < x.chunks → failed = some k → f = none →
          yields (.tensorOpComplete id ⟨retries, failed⟩) s fun s' => ended s s' o w ∧
            s'.readMem (o.blkpa + x.kind.statusAt) 1 = [4] ∧
            s'.soft.matrix = s.soft.matrix + (retries.eraseDups.filter fun c => decide (c < k)).length ∧
            (o.core < 128 →
              s'.nextSeq o.world (tensorSource o.core) = (s.nextSeq o.world (tensorSource o.core) + 1) % 2 ^ 32))))) ∧
  (∀ s id o t w x r retries failed, outstanding s id o t w → o.kind = .tensor x → x.result = some r → x.kind ≠ .zero →
    (s.mayWrite o = true → writesGo s x r.effect → (∀ p ∈ r.effect.mem, p.2.2.length ≤ 16384) →
      yields (.tensorOpComplete id ⟨retries, failed⟩) s fun s' => ended s s' o w ∧
        s'.readMem (o.blkpa + x.kind.statusAt) 1 = [BitVec.ofNat 8 r.status] ∧
        (r.open' = false → performed s s' o t w x r.effect r.status)) ∧
    (s.mayWrite o = false → exec (.tensorOpComplete id ⟨retries, failed⟩) s = .next s)) ∧
  (∀ s id o t w x h vector tile tc, outstanding s id o t w → o.kind = .tensor x → x.layer = some h → s.mayRead o = true →
    vector < layerM x → tile < tileRows h.k * tileCols h.n → vector * 65536 + tile ∉ h.evaluated → tc = tile % tileCols h.n →
    yields (.tileEvaluation id vector tile) s fun s' => keepsMemory s s' ∧
      (s'.region h.region).evals = (s.region h.region).evals + 1 ∧
      ∃ o' x' h', s'.findOp id = some o' ∧ o'.kind = .tensor x' ∧ x'.layer = some h' ∧
        h'.evaluated = h.evaluated ++ [vector * 65536 + tile] ∧ h.chkmis ≤ h'.chkmis ∧ h'.chkmis ≤ h.chkmis + 4 ∧
        (x.kind ≠ .layerF ∨ (∀ q < 4, soundGroup (s.region h.region) h tc q = true) ∧ h'.clamped = h.clamped →
          h'.chkmis = h.chkmis) ∧
        (∀ a, a = entryAd ((s.region h.region).placement.getD tile 0) →
          (s.badPackets.contains (adLink a) = false → h'.linkFault = h.linkFault) ∧
          (s.badPackets.contains (adLink a) = true → (∀ g ∈ s.gathers, g.addr / 128 ≠ adLink a) → h'.linkFault = true) ∧
          (s'.ad a).errors.length = (s.ad a).errors.length + (h'.chkmis - h.chkmis)) ∧
        (∀ l < tileLines x h (tile / tileCols h.n) tc,
          -2048 ≤ Sparse.get 0 h'.codes (codeKey vector tile l) ∧ Sparse.get 0 h'.codes (codeKey vector tile l) ≤ 2047)) ∧
  (∀ s id o t w c, outstanding s id o t w → o.kind = .stackCopy c → s.mayRun o = true →
    (srcLocal c → stackPlain s c → yields (.stackCopyComplete id) s fun s' => ended s s' o w ∧ stackMoved s s' o t c c.bytes) ∧
    (∀ f s2, ¬ srcLocal c → stackPlain s c → s.readSpans o c.pages [(stackSrc c c.next, c.bytes - c.next)] = (f, s2) →
      (f = none → yields (.stackCopyComplete id) s fun s' => ended s s' o w ∧ stackMoved s2 s' o t c c.bytes) ∧
      (∀ a e, f = some (a, e) → yields (.stackCopyComplete id) s fun s' => ended s s' o w ∧
        stackMoved s2 s' o t c (c.next + (a - stackSrc c c.next) / 64 * 64) ∧
        (o.core < 128 → s'.nextSeq o.world (copySource o.core) = (s.nextSeq o.world (copySource o.core) + 1) % 2 ^ 32))))

/-- R255: an INT8 MUL whose A comes from a map gives each element of its tile the earlier value (zero unless it accumulates)
plus the exact sum of the products, modulo 2^64. -/
def Sys2Proof.Spec.IntegerProduct : Prop :=
  ∀ s t core x p, mmaType x = 1 → mmaFlag x 1 = false →
    (p ∈ (mulEffect s t core x none).tiles ↔ ∃ i < mmaM x, ∃ j < mmaN x,
      p = (mmaZd x, 64 * i + j, (if mmaFlag x 0 then t.tileElem (mmaZd x) (64 * i + j) else 0) +
        BitVec.ofInt 64 ((List.range (mmaK x)).map fun k =>
          signExt 8 (s.elemBits t x.pages (x.map 0) (mmaCoord x 16 (mmaFlag x 2) k i)) *
            signExt 8 (Sparse.get 0 ((s.coreSt core).banks.bank x.bank).elems (k * 64 + j))).sum))

namespace Sys2Proof.Spec

/-! ### What the engines compute (R124 to R127, R245 to R275) -/

/-- The value written at a map's element, when it lies inside. -/
def placed (m : TMap) (c : List Nat) (v : Nat) (p : MemWrite) : Prop :=
  m.inside c = true ∧ p = (m.scratch, m.addr c, leBytes m.esize v)

/-! #### Sums of the matrix unit (R124, R126, R127) -/

/-- `chunk_sum` of 2^n products: neighbours first. -/
def chunk : Nat → (Nat → XR) → XR
  | 0, p => p 0
  | n + 1, p => rnd fp64 (plus (chunk n p) (chunk n fun i => p (i + 2 ^ n)))

/-- The first `c` chunks of `K` products accumulated. -/
def accumulated (K : Nat) (p : Nat → XR) (c : Nat) (acc : XR) : XR :=
  (List.range c).foldl (fun a c => rnd fp64 (plus a (chunk 5 fun i => if 32 * c + i < K then p (32 * c + i) else fp64.val false 0)))
    acc

/-- A product of two BF16 values. -/
def product (a b : XR) : XR := rnd fp64 (times a b)

/-- Slice 0, 1 or 2 of an FP32 value: hi, mid, lo, each with its sign. -/
def slice (x : XR) (i : Nat) : XR :=
  let cut := fun (v : XR) => Machine.bf16.val false (v.abs.round Machine.bf16 .rtz false).1
  let hi := cut x
  let r := minus x.abs hi
  let v := if i = 0 then hi else if i = 1 then cut r else cut (minus r (cut r))
  match x with
  | .fin true _ _ => v.neg
  | _ => v

/-- A pair's product in a pass. -/
def passOf (p : Nat × Nat) (a b : XR) : XR :=
  if a.isFin = true ∧ b.isFin = true then product (slice a p.1) (slice b p.2)
  else if p = (0, 0) then product a b
  else fp64.val false 0

def passOrder : List (Nat × Nat) := [(0, 0), (0, 1), (1, 0), (0, 2), (1, 1), (2, 0), (1, 2), (2, 1), (2, 2)]

/-- The first `c` chunks accumulated pass by pass. -/
def accumulated32 (ps : List (Nat × Nat)) (K : Nat) (a b : Nat → XR) (c : Nat) (acc : XR) : XR :=
  (List.range c).foldl (fun acc c => ps.foldl (fun acc p => rnd fp64 (plus acc (chunk 5 fun i =>
    if 32 * c + i < K then passOf p (a (32 * c + i)) (b (32 * c + i)) else fp64.val false 0))) acc) acc

/-! #### Operands -/

/-- Element (i, k) of A of a MUL: of its map, or of its tile through the down-converter (R255, R256). -/
def matrixA (s : State) (t : Team) (x : Tensor) (i k : Nat) : XR :=
  let f := if mmaType x = 2 ∨ mmaType x = 3 then fp32 else Machine.bf16
  if mmaFlag x 1 = true then
    let v := fun k => tileVal (x.kinds.headD false) (t.tileElem (mmaATile x) (64 * i + k))
    let c := rotBlk (x.nat 7 1)
    if c = 0 then rnd f (v k) else f.val false (floatBits f (rotated true v (blkSize c) 0 (x.seed (rotSeed (x.nat 7 1))) 24 k))
  else f.val false (s.elemBits t x.pages (x.map 0) (mmaCoord x 16 (mmaFlag x 2) k i))

/-- A source element of `rot` or `irot` in a row (R245, R246). -/
def rotSource (s : State) (t : Team) (x : Tensor) (n : Nat) (tail : List Nat) (e : Nat) : XR :=
  let c := ((rotSorg x).getD 0 0 + e) :: tailAt (rotSorg x) tail
  let v := s.elemVal t x.pages (x.map 0) c
  match x.kind, (x.map 0).fmt with
  | .irot, .i8 => times v (s.elemVal t x.pages (x.map 2)
      ((if rotGroup (x.nat 3 1) = true then 0 else ((rotSorg x).getD 0 0 + e) / n) :: tailAt (rotSorg x) tail))
  | .irot, .nq4 => rnd fp32 v
  | _, _ => v

/-- v[p] of R251. -/
def storedVal (s : State) (t : Team) (x : Tensor) (p : Nat) : XR :=
  let v := tileVal (x.kinds.headD false) (t.tileElem (x.nat 1 1 + p / 4096) (p % 4096))
  let sc := fun (k i : Nat) => if x.has k = true then f32 (s.elemBits t x.pages (x.map k) [i, 0, 0, 0, 0]) else .fin false 1 1
  times (times (times v (f32 (x.nat 24 4))) (sc 2 (accOrg1 x + p / accLen x))) (sc 3 (accOrg0 x + p % accLen x))

/-! #### Rows (R269 to R275) -/

/-- A row operation writes `y r i` in element i of row r of Y, and the entry `ent r`. -/
def rowsGive (x : Tensor) (e : Effect) (y : Nat → Nat → Nat) (ent : Nat → Option (DWord × DWord)) : Prop :=
  (∀ p, p ∈ e.mem ↔ ∃ r < reelRows x, ∃ i < reelL x, placed (x.map 1) [i, reelOrg x + r, 0, 0, 0] (y r i) p) ∧
  (∀ q, q ∈ e.reel ↔ ∃ r < reelRows x, ∃ a b, ent r = some (a, b) ∧
    (q = (2 * (reelRow0 x + r), a) ∨ q = (2 * (reelRow0 x + r) + 1, b)))

/-- Element i of row r of map k, and of a vector with the value that a missing one reads as. -/
def rowElem (s : State) (t : Team) (x : Tensor) (k r i : Nat) : XR := s.elemVal t [] (x.map k) [i, reelOrg x + r, 0, 0, 0]
def vecElem (s : State) (t : Team) (x : Tensor) (k i : Nat) (none : XR) : XR :=
  if x.has k = true then s.elemVal t [] (x.map k) [i, 0, 0, 0, 0] else none

/-- vld of a row, z[i], ex[i] for a maximum, and the running sum of `n` terms. -/
def validOf (s : State) (t : Team) (x : Tensor) (r : Nat) : Nat :=
  if x.has 6 = true then min (reelL x) (s.elemBits t [] (x.map 6) [reelOrg x + r, 0, 0, 0, 0]) else reelL x
def zOf (s : State) (t : Team) (x : Tensor) (r i : Nat) : XR := rnd fp32 (times (f32 (x.nat 16 4)) (rowElem s t x 0 r i))
def exOf (z m : XR) : XR := rnd fp32 (rnd fp32 (times (rnd fp32 (minus z m)) (f32 0x3FB8_AA3B))).exp2
def running (n : Nat) (v : Nat → XR) : XR := (List.range n).foldl (fun a i => rnd fp64 (plus a (v i))) (.fin false 0 1)

/-- A value's bits in a format, and an FP64 entry. -/
def bitsIn (f : Fmt) (v : XR) : Nat := (v.round f .rne false).1
def dbl (v : XR) : DWord := BitVec.ofNat 64 (bitsIn fp64 v)
def qnan64 : DWord := 0x7FF8_0000_0000_0000

/-- One row of `reel.smax`. -/
def softmaxRow (s : State) (t : Team) (x : Tensor) (r : Nat) (y : Nat → Nat) (ent : Option (DWord × DWord)) : Prop :=
  let z := zOf s t x r
  let n := validOf s t x r
  ((∃ i < n, (z i).isNaN = true ∨ z i = .inf false) → (∀ i < reelL x, y i = (reelFmt x).qnan) ∧ ent = some (qnan64, qnan64)) ∧
  ((∀ i < n, z i = .inf true) → (∀ i < reelL x, y i = 0) ∧ ent = some (0xFFF0_0000_0000_0000, 0)) ∧
  ((∀ i < n, (z i).isNaN = false ∧ z i ≠ .inf false) → (∃ i < n, z i ≠ .inf true) → ∃ m, (∃ i < n, z i = m) ∧
    (∀ i < n, XR.le (z i) m = true) ∧
    (∀ i < reelL x, y i = if i < n then bitsIn (reelFmt x) (over' (exOf (z i) m) (running n fun i => exOf (z i) m)) else 0) ∧
    ent = some (dbl m, dbl (running n fun i => exOf (z i) m)))

/-- One row of `reel.dsmax`. -/
def softmaxGradRow (s : State) (t : Team) (x : Tensor) (r : Nat) (y : Nat → Nat) : Prop :=
  let z := zOf s t x r
  let n := validOf s t x r
  let s1 := fp64.val false (reelEntry t x r 0).toNat
  let s2 := fp64.val false (reelEntry t x r 1).toNat
  let yv := fun i => rnd fp64 (over' (exOf (z i) s1) s2)
  let d := running n fun i => times (yv i) (rowElem s t x 2 r i)
  (s1.isNaN = true ∨ s2.isNaN = true → ∀ i < reelL x, y i = (reelFmt x).qnan) ∧
  (s1.isNaN = false → s2.isNaN = false →
    (s1 = .inf true → ∀ i < reelL x, y i = 0) ∧
    (s1 ≠ .inf true → (∃ i < n, (z i).isNaN = true ∨ z i = .inf false) → ∀ i < reelL x, y i = (reelFmt x).qnan) ∧
    (s1 ≠ .inf true → (∀ i < n, (z i).isNaN = false ∧ z i ≠ .inf false) → ∀ i < reelL x, y i = if i < n then
      bitsIn (reelFmt x) (times (times (f32 (x.nat 16 4)) (yv i)) (rnd fp64 (minus (rowElem s t x 2 r i) d))) else 0))

/-- mu, d[i], v and rs of a row of `reel.norm`. -/
def meanOf (s : State) (t : Team) (x : Tensor) (r : Nat) : XR :=
  if reelRms x = true then .fin false 0 1 else rnd fp64 (over' (running (reelL x) (rowElem s t x 0 r)) (XR.ofInt (reelL x)))
def devOf (s : State) (t : Team) (x : Tensor) (mu : XR) (r i : Nat) : XR := rnd fp64 (minus (rowElem s t x 0 r i) mu)
def rsOf (s : State) (t : Team) (x : Tensor) (r : Nat) : XR :=
  let d := devOf s t x (meanOf s t x r) r
  let v := rnd fp64 (over' (running (reelL x) fun i => times (d i) (d i)) (XR.ofInt (reelL x)))
  rnd fp64 (spRsq (plus v (f32 (x.nat 20 4)))).1

/-- xh[i] and g[i] of a row of `reel.dnorm`, and dx[i]. -/
def xhOf (s : State) (t : Team) (x : Tensor) (r i : Nat) : XR :=
  rnd fp64 (times (devOf s t x (fp64.val false (reelEntry t x r 0).toNat) r i) (fp64.val false (reelEntry t x r 1).toNat))
def gradOf (s : State) (t : Team) (x : Tensor) (r i : Nat) : XR :=
  rnd fp64 (times (rowElem s t x 2 r i) (vecElem s t x 3 i (.fin false 1 1)))
def normGrad (s : State) (t : Team) (x : Tensor) (r i : Nat) : XR :=
  let L := XR.ofInt (reelL x)
  let g := gradOf s t x r
  let xh := xhOf s t x r
  let mg := if reelRms x = true then .fin false 0 1 else rnd fp64 (over' (running (reelL x) g) L)
  let mx := rnd fp64 (over' (running (reelL x) fun i => times (g i) (xh i)) L)
  times (fp64.val false (reelEntry t x r 1).toNat) (minus (minus (g i) mg) (times (xh i) mx))

/-- DGB(i, k) after `n` rows. -/
def gradSum (s : State) (t : Team) (x : Tensor) (i k n : Nat) : XR :=
  (List.range n).foldl (fun a r => rnd fp64 (plus a (if k = 0 then times (rowElem s t x 2 r i) (xhOf s t x r i)
    else rowElem s t x 2 r i))) (s.elemVal t [] (x.map 5) [i, k, 0, 0, 0])

/-! #### Layers (R262 to R264, R267) -/

/-- An input vector's element bits, as read when it drove the array. -/
def layerBits (s : State) (t : Team) (x : Tensor) (h : LayerHold) (m : Nat) : List Nat :=
  (KMap.find h.inputs m).getD (vectorBits s t x h m)

/-- An input element; the exact input and the rotated one, whichever of them the tag says was read (R262, R263). -/
def inputOf (s : State) (t : Team) (x : Tensor) (h : LayerHold) (f : Fmt) (m k : Nat) : XR :=
  f.val false ((layerBits s t x h m).getD k 0)
def sideBlk (x : Tensor) (h : LayerHold) : Nat := blkSize (if x.kind = .layerT then h.rotn else h.rotk)
def sideSeed (x : Tensor) (h : LayerHold) : Word := BitVec.ofNat 32 (if x.kind = .layerT then h.seedn else h.seedk)
def plainIn (s : State) (t : Team) (x : Tensor) (h : LayerHold) (f : Fmt) (m k : Nat) : XR :=
  if tagRotated (x.map 0).tag = true then rotated false (inputOf s t x h f m) (sideBlk x h) 0 (sideSeed x h) 48 k
  else inputOf s t x h f m k
def turnedIn (s : State) (t : Team) (x : Tensor) (h : LayerHold) (f : Fmt) (m k : Nat) : XR :=
  if tagRotated (x.map 0).tag = true then inputOf s t x h f m k
  else rotated true (inputOf s t x h f m) (sideBlk x h) 0 (sideSeed x h) 24 k

/-- The column or row sum of a vector's delivered codes. -/
def columnSum (h : LayerHold) (m j : Nat) : Int :=
  ((List.range (tileRows h.k)).map fun r => Sparse.get (0 : Int) h.codes (codeKey m (r * tileCols h.n + j / 512) (j % 512))).sum
def rowSum (h : LayerHold) (m k : Nat) : Int :=
  ((List.range (tileCols h.n)).map fun c => Sparse.get (0 : Int) h.codes (codeKey m (k / 1024 * tileCols h.n + c) (k % 1024))).sum

/-- A BF16 pattern's value, and an FP32 number in FP64. -/
def bf (n : Nat) : XR := Machine.bf16.val false n
def w32 (n : Nat) : XR := rnd fp64 (f32 n)

/-- An R124 sum of `n` products from +0. -/
def dot (n : Nat) (a b : Nat → XR) : XR := accumulated n (fun k => product (a k) (b k)) (ceilDiv n 32) (fp64.val false 0)

/-- A and B of the adapter. -/
def adA (s : State) (t : Team) (x : Tensor) (i k : Nat) : XR := bf (s.elemBits t x.pages (x.map 1) [k, i, 0, 0, 0])
def adB (s : State) (t : Team) (x : Tensor) (j i : Nat) : XR := bf (s.elemBits t x.pages (x.map 2) [i, j, 0, 0, 0])

/-- xb[k], hb[i], and out[j] of R262 before ACCUM. -/
def xbOf (s : State) (t : Team) (x : Tensor) (h : LayerHold) (f : Fmt) (m k : Nat) : Nat := bitsIn Machine.bf16 (plainIn s t x h f m k)
def hbOf (s : State) (t : Team) (x : Tensor) (h : LayerHold) (f : Fmt) (m i : Nat) : Nat :=
  bitsIn Machine.bf16 (dot h.k (fun k => bf (xbOf s t x h f m k)) (adA s t x i))
def forward (s : State) (t : Team) (x : Tensor) (h : LayerHold) (f : Fmt) (m j : Nat) : XR :=
  let sx := (narrowI8 ((List.range h.k).map (turnedIn s t x h f m))).2.1
  let q := fun j =>
    let c := h.cols.getD j default
    let u := rnd fp64 (plus (rnd fp64 (times (XR.scale2 h.ec (XR.ofInt (columnSum h m j))) (f32 c.g))) (w32 c.o))
    rnd fp64 (times (rnd fp64 (times u (w32 c.cs))) (w32 sx))
  let ad := if layerNoad x = true then fp64.val false 0
    else rnd fp64 (times (w32 (x.nat 20 4)) (dot (layerRank x) (fun i => bf (hbOf s t x h f m i)) (adB s t x j)))
  rnd fp64 (plus (fp64.val false (floatBits fp64 (rotated false q (blkSize h.rotn) 0 (BitVec.ofNat 32 h.seedn) 48 j))) ad)

/-- vb[i] of R263, what VMAP takes of it, and out[k] before ACCUM. -/
def vbOf (s : State) (t : Team) (x : Tensor) (h : LayerHold) (f : Fmt) (m i : Nat) : Nat :=
  bitsIn Machine.bf16 (dot h.n (fun j => bf (bitsIn Machine.bf16 (plainIn s t x h f m j))) (fun j => adB s t x j i))
def vmapOf (s : State) (t : Team) (x : Tensor) (h : LayerHold) (f : Fmt) (m i : Nat) : Nat :=
  if ∀ j < h.n, (plainIn s t x h f m j).isFin = true then vbOf s t x h f m i else 0x7FC0
def backward (s : State) (t : Team) (x : Tensor) (h : LayerHold) (f : Fmt) (m k : Nat) : XR :=
  let w := fun j => let c := h.cols.getD j default; times (times (turnedIn s t x h f m j) (f32 c.cs)) (f32 c.g)
  let sw := (narrowI8 ((List.range h.n).map w)).2.1
  let q := fun k => rnd fp64 (times (rnd fp64 (XR.scale2 h.ej (XR.ofInt (rowSum h m k)))) (w32 sw))
  let ad := if layerNoad x = true then fp64.val false 0
    else rnd fp64 (times (w32 (x.nat 20 4)) (dot (layerRank x) (fun i => bf (vbOf s t x h f m i)) (fun i => adA s t x i k)))
  rnd fp64 (plus (fp64.val false (floatBits fp64 (rotated false q (blkSize h.rotk) 0 (BitVec.ofNat 32 h.seedk) 48 k))) ad)

/-- A layer operation writes values `v m j` to its strip, on the old ones under ACCUM. -/
def stripGets (t : Team) (x : Tensor) (h : LayerHold) (e : Effect) (v : Nat → Nat → XR) : Prop :=
  let L := layerOut x h
  let at' := fun m j => (layerZd x + (m * L + j) / 4096, (m * L + j) % 4096)
  let new := fun m j => if layerFlag x 0 = true then
      rnd fp64 (plus (tileVal (x.kinds.getD ((m * L + j) / 4096) false) (t.tileElem (at' m j).1 (at' m j).2)) (v m j))
    else v m j
  (∀ m < layerM x, ∀ j < L, ∃ b : DWord, fp64.val false b.toNat = new m j ∧ ((at' m j).1, (at' m j).2, b) ∈ e.tiles) ∧
  (∀ p ∈ e.tiles, ∃ m < layerM x, ∃ j < L, (p.1, p.2.1) = at' m j ∧ fp64.val false p.2.2.toNat = new m j)

/-- The bytes of an activation record (R267). -/
def recordIs (s : State) (t : Team) (x : Tensor) (h : LayerHold) (f : Fmt) (b : List Byte) : Prop :=
  let xs := (2 * h.k + 63) / 64 * 64
  let hs := if layerNoad x = true then 0 else 128
  let len := 64 + layerM x * xs + layerM x * hs
  let field := fun (off n : Nat) => leVal ((b.drop off).take n)
  b.length = len ∧ field 0 4 = len ∧ field 4 4 = h.k ∧ field 8 2 = layerM x ∧ field 10 2 = layerRank x ∧
    field 12 2 = (if layerNoad x = true then 0 else x.gena) ∧ field 14 2 = (if layerNoad x = true then 0 else x.genb) ∧
    field 16 2 = layerHandle x ∧ field 18 2 = h.gen ∧ field 20 4 = 64 ∧ field 24 4 = 64 + layerM x * xs ∧ field 28 36 = 0 ∧
    ∀ m < layerM x,
      (∀ i < xs / 2, field (64 + m * xs + 2 * i) 2 = if i < h.k then xbOf s t x h f m i else 0) ∧
      (∀ i < hs / 2, field (64 + layerM x * xs + m * hs + 2 * i) 2 = if i < layerRank x then hbOf s t x h f m i else 0)

end Sys2Proof.Spec

/-- R130, R131, R133: what the forward and the inverse rotation make of a block of 2^k values, with their flags. -/
def Sys2Proof.Spec.RotatedBlocks : Prop :=
  ∀ xs k seed bi W, xs.length = 2 ^ k → (∀ x ∈ xs, proper x) →
    turned true xs k seed bi W (gavotteFwd xs seed bi W) ∧ turned false xs k seed bi W (gavotteInv xs seed bi W)

/-- R123, R132: `narrow_i8` of a scale group, and `nq4_superscale`, `nq4_superblock` and the record of a superblock. -/
def Sys2Proof.Spec.NarrowedGroups : Prop :=
  (∀ ys r, (∀ y ∈ ys, proper y) → narrowI8 ys = r →
    ((∃ y ∈ ys, y.isNaN = true) → r = (ys.map fun _ => 0, 0x7FC0_0000, flagNV)) ∧
    ((∀ y ∈ ys, y.isZero = true) → r = (ys.map fun _ => 0, 0x3F80_0000, 0)) ∧
    ((∀ y ∈ ys, y.isNaN = false) → (∃ y ∈ ys, y.isFin = false) → r = (ys.map fun _ => 0, 0x7FC0_0000, flagNV ||| flagOF)) ∧
    (∀ E u, (∀ y ∈ ys, y.isFin = true) → topExp ys E → u = max (E - 6) (-149) →
      (127 < u → r = (ys.map fun _ => 0, 0x7FC0_0000, flagNV ||| flagOF)) ∧
      (u ≤ 127 → r.1 = ys.map (fun y => max (-128) (min 127 ((XR.scale2 (-u) y).toInt .rne))) ∧ r.2.1 = scaleBits u ∧
        ((∃ p ∈ ys.zip r.1, XR.eqv (XR.scale2 (-u) p.1) (XR.ofInt p.2) = false) → r.2.2 = flagNX) ∧
        ((∀ p ∈ ys.zip r.1, XR.eqv (XR.scale2 (-u) p.1) (XR.ofInt p.2) = true) → r.2.2 = 0)))) ∧
  (∀ xs, (∀ x ∈ xs, proper x ∧ x.isFin = true) → xs ≠ [] → ∃ x ∈ xs, largest xs (mag (rat x)) ∧
    nq4Superscale xs = (x.abs.round fp32 .rup false).1) ∧
  (∀ fresh xs S codes qs S' fl, (∀ x ∈ xs, proper x) → nq4Superblock fresh xs S = (codes, qs, S', fl) →
    ((f32 S).isFin = false ∨ (∃ x ∈ xs, x.isFin = false) → (∀ c ∈ codes, c = 8) ∧ (∀ q ∈ qs, q = 0) ∧ S' = 0x7FC0_0000 ∧ fl = flagNV) ∧
    ((f32 S).isFin = true → 0 ≤ rat (f32 S) → (∀ x ∈ xs, x.isFin = true) → S' = S ∧ codes.length = xs.length ∧
      (∀ b a, 64 * b < xs.length → largest (blockOf xs b) a →
        qs[b]? = some (if rat (f32 S) = 0 then 0 else min 255 (255 * a / rat (f32 S)).ceil.toNat)) ∧
      (∀ (i c q : Nat) (x : XR), xs[i]? = some x → codes[i]? = some c → qs[i / 64]? = some q → c < 16 ∧ (q = 0 → c = 8) ∧
        (q ≠ 0 → ∀ t : Rat, t = rat x / (((q : Rat) / 255) * rat (f32 S)) → ∀ k < 16,
          codeGap t c < codeGap t k ∨ (codeGap t c = codeGap t k ∧ (nq4Code c).natAbs ≤ (nq4Code k).natAbs))) ∧
      (fl = flagNX ∨ fl = 0) ∧
      (fl = 0 ↔ ∀ (i c q : Nat) (x : XR), xs[i]? = some x → codes[i]? = some c → qs[i / 64]? = some q →
        rat x = (nq4Code c : Rat) / 128 * ((q : Rat) / 255) * rat (f32 S)))) ∧
  (∀ codes qs S, codes.length ≤ 16384 → qs.length ≤ 256 → (nq4Record codes qs S).length = 8512 ∧
    (∀ i < 8192, (nq4Record codes qs S)[i]? = some (BitVec.ofNat 8 (codes.getD (2 * i) 8 + 16 * codes.getD (2 * i + 1) 8))) ∧
    (∀ b < 256, (nq4Record codes qs S)[8192 + b]? = some (BitVec.ofNat 8 (qs.getD b 0))) ∧
    ((nq4Record codes qs S).drop 8448).take 4 = leBytes 4 S ∧ leVal ((nq4Record codes qs S).drop 8452) = 0)

/-- R245, R246: what `rot` and `irot` write: a row's values as they stand, or rotated block by block, rounded to the destination's
format, as codes with their scales, or as superblock records. -/
def Sys2Proof.Spec.RotationResults : Prop :=
  ∀ s o t x e src dst c n d0 b0 row at', x.kind = .rot ∨ x.kind = .irot → tensorEffect s o t x none = e → src = x.map 0 → dst = x.map 1 →
    c = (if x.kind = .rot then rotBlk (x.nat 3 1) else tagBlk src.tag) → n = blkSize c → b0 = (rotBox x).getD 0 0 → b0 % n = 0 →
    d0 = (rotDorg x).getD 0 0 → at' = (fun tail k => (d0 + k) :: tailAt (rotDorg x) tail) →
    row = (fun tail => if x.kind = .rot then
        rotated true (rotSource s t x n tail) n (d0 / n) (x.seed (rotSeed (x.nat 3 1))) 24
      else rotated false (rotSource s t x n tail) n ((rotSorg x).getD 0 0 / n) (x.seed (tagSlot src.tag))
        (if dst.fmt = .f64 then 48 else 24)) →
    (∀ f, dst.fmt.float = some f → x.kind = .rot → c = 0 → ∀ p, p ∈ e.mem ↔ ∃ tail ∈ rowTails (rotBox x) src.rank, ∃ k < b0,
      placed dst (at' tail k) (bitsIn f (rotSource s t x n tail k)) p) ∧
    (∀ f, dst.fmt.float = some f → c ≠ 0 → ∀ p, p ∈ e.mem ↔ ∃ tail ∈ rowTails (rotBox x) src.rank, ∃ k < b0,
      placed dst (at' tail k) (floatBits f (row tail k)) p) ∧
    (∀ g, x.kind = .rot → c ≠ 0 → dst.fmt = .i8 → 0 < b0 → g = (if rotGroup (x.nat 3 1) = true then b0 else n) → ∀ p, p ∈ e.mem ↔
      ∃ tail ∈ rowTails (rotBox x) src.rank, ∃ q < b0 / g, ∃ r, r = narrowI8 ((List.range g).map fun i => row tail (q * g + i)) ∧
        ((∃ i < g, placed dst (at' tail (q * g + i)) (r.1.getD i 0 % 256).toNat p) ∨
          placed (x.map 2) ((if rotGroup (x.nat 3 1) = true then 0 else d0 / n + q) :: tailAt (rotDorg x) tail) r.2.1 p)) ∧
    (∀ ys, x.kind = .rot → c ≠ 0 → dst.fmt = .nq4 → ys = (rowTails (rotBox x) src.rank).flatMap (fun tail => (List.range b0).map (row tail)) →
      ∀ p, p ∈ e.mem ↔ ∃ k, 16384 * k < ys.length ∧ ∃ xs r, xs = (ys.drop (16384 * k)).take 16384 ∧
        r = nq4Superblock (s.fresh + 16384 * k) xs (nq4Superscale xs) ∧
        p = (dst.scratch, dst.base + 8512 * k, nq4Record r.1 r.2.1 r.2.2.1))

/-- R250, R251: the tile elements that `acc.ld` makes of its map's, and what `acc.st` writes of its tiles'. -/
def Sys2Proof.Spec.TileTransferResults : Prop :=
  (∀ s o t x q, x.kind = .accLd → (q ∈ (tensorEffect s o t x none).tiles ↔ ∃ p < accCount x, ∃ b v,
    b = s.elemBits t x.pages (x.map 0) (accCoord x p) ∧ v = s.elemVal t x.pages (x.map 0) (accCoord x p) ∧
    q = (x.nat 1 1 + p / 4096, p % 4096, match (x.map 0).fmt with
      | .f64 => BitVec.ofNat 64 b
      | .f32 | .bf16 | .nq4 => dbl v
      | f => BitVec.ofInt 64 (f.int b)))) ∧
  (∀ s o t x e (m : TMap), x.kind = .accSt → tensorEffect s o t x none = e → m = x.map 0 → 0 < accLen x →
    (m.fmt = .i64 ∨ m.fmt = .i32 → ∀ w, w ∈ e.mem ↔ ∃ p < accCount x, ∃ v : Int,
      v = (t.tileElem (x.nat 1 1 + p / 4096) (p % 4096)).toInt ∧
      placed m (accCoord x p) ((if m.fmt = ElemFmt.i32 then max (-2 ^ 31) (min (2 ^ 31 - 1) v) else v) % 2 ^ 64).toNat w) ∧
    (∀ f, m.fmt.float = some f → rotBlk (x.nat 3 1) = 0 → ∀ w, w ∈ e.mem ↔ ∃ p < accCount x,
      placed m (accCoord x p) (bitsIn f (storedVal s t x p)) w) ∧
    (∀ n row W, rotBlk (x.nat 3 1) ≠ 0 → n = blkSize (rotBlk (x.nat 3 1)) → accLen x % n = 0 → accCount x % n = 0 →
      W = (if m.fmt = .f64 then 48 else 24) →
      row = (fun r => rotated true (fun i => storedVal s t x (r * accLen x + i)) n (accOrg0 x / n) (x.seed (rotSeed (x.nat 3 1))) W) →
      (∀ f, m.fmt.float = some f → ∀ w, w ∈ e.mem ↔ ∃ p < accCount x,
        placed m (accCoord x p) (floatBits f (row (p / accLen x) (p % accLen x))) w) ∧
      (m.fmt = .i8 → ∀ w, w ∈ e.mem ↔ ∃ r, r * accLen x < accCount x ∧ ∃ l g, l = min (accLen x) (accCount x - r * accLen x) ∧
        g = (if rotGroup (x.nat 3 1) = true then l else n) ∧ ∃ q < l / g, ∃ c, c = narrowI8 ((List.range g).map fun i => row r (q * g + i)) ∧
          ((∃ i < g, placed m [accOrg0 x + (q * g + i), accOrg1 x + r, 0, 0, 0] (c.1.getD i 0 % 256).toNat w) ∨
            placed (x.map 1) [if rotGroup (x.nat 3 1) = true then 0 else accOrg0 x / n + q, accOrg1 x + r, 0, 0, 0] c.2.1 w))))

/-- R254 to R256, R259: LOADB fills the bank with B's elements, NQ4 ones rounded to BF16; a BF16 or NQ4 MUL sums by R124, the FP32
modes by R127, from the tile's earlier value or +0; stopped at a chunk, it holds the chunks before it. -/
def Sys2Proof.Spec.MatrixSums : Prop :=
  (∀ s o t x q, x.kind = .mma → mmaIsLoad x = true → (q ∈ (tensorEffect s o t x none).bank ↔ ∃ k < mmaK x, ∃ j < mmaN x, ∃ c,
    c = mmaCoord x 24 (mmaFlag x 3) k j ∧ q = (k * 64 + j, if (x.map 0).fmt = .nq4 then
      bitsIn Machine.bf16 (s.elemVal t x.pages (x.map 0) c) else s.elemBits t x.pages (x.map 0) c))) ∧
  (∀ s o t x stop c e b f old sum, x.kind = .mma → mmaIsLoad x = false → mmaType x ≠ 1 → tensorEffect s o t x stop = e →
    (stop = none ∧ c = ceilDiv (mmaK x) 32 ∨ stop = some c ∧ c ≤ ceilDiv (mmaK x) 32) →
    f = (if mmaType x = 2 ∨ mmaType x = 3 then fp32 else Machine.bf16) →
    b = (fun k j => f.val false (Sparse.get 0 ((s.coreSt o.core).banks.bank x.bank).elems (k * 64 + j))) →
    old = (fun i j => fp64.val false (if mmaFlag x 0 = true then (t.tileElem (mmaZd x) (64 * i + j)).toNat else 0)) →
    sum = (fun i j => if mmaType x = 2 then accumulated32 passOrder (mmaK x) (matrixA s t x i) (fun k => b k j) c (old i j)
      else if mmaType x = 3 then accumulated32 (passOrder.take 6) (mmaK x) (matrixA s t x i) (fun k => b k j) c (old i j)
      else accumulated (mmaK x) (fun k => product (matrixA s t x i k) (b k j)) c (old i j)) →
    (mmaFlag x 1 = true → mmaK x % blkSize (rotBlk (x.nat 7 1)) = 0) →
    (∀ i < mmaM x, ∀ j < mmaN x, ∃ v : DWord, (mmaZd x, 64 * i + j, v) ∈ e.tiles) ∧
    (∀ p ∈ e.tiles, ∃ i < mmaM x, ∃ j < mmaN x, (p.1, p.2.1) = (mmaZd x, 64 * i + j) ∧ fp64.val false p.2.2.toNat = sum i j ∧
      (0 < c → sum i j = .nan → p.2.2 = qnan64)))

/-- R271 to R275: what the row instructions write and leave in their entries. -/
def Sys2Proof.Spec.RowResults : Prop :=
  (∀ s o t x e, x.kind = .smax → tensorEffect s o t x none = e → ∃ y ent, rowsGive x e y ent ∧
    ∀ r < reelRows x, softmaxRow s t x r (y r) (ent r)) ∧
  (∀ s o t x e, x.kind = .dsmax → tensorEffect s o t x none = e → ∃ y, rowsGive x e y (fun _ => none) ∧
    ∀ r < reelRows x, softmaxGradRow s t x r (y r)) ∧
  (∀ s o t x e, x.kind = .norm → tensorEffect s o t x none = e → rowsGive x e
    (fun r i => bitsIn (reelFmt x) (plus (times (times (devOf s t x (meanOf s t x r) r i) (rsOf s t x r))
      (vecElem s t x 3 i (.fin false 1 1))) (vecElem s t x 4 i (.fin false 0 1))))
    fun r => some (dbl (meanOf s t x r), dbl (rsOf s t x r))) ∧
  (∀ s o t x e, x.kind = .dnorm → tensorEffect s o t x none = e → ∃ e1, rowsGive x e1 (fun r i => bitsIn (reelFmt x) (normGrad s t x r i))
      (fun _ => none) ∧ e.reel = e1.reel ∧
    (x.has 5 = false → e.mem = e1.mem) ∧
    (x.has 5 = true → (x.map 5).fmt = .f64 → ∃ l, e.mem = e1.mem ++ l ∧
      ∀ p, p ∈ l ↔ ∃ i < reelL x, ∃ k < 2, placed (x.map 5) [i, k, 0, 0, 0] (bitsIn fp64 (gradSum s t x i k (reelRows x))) p)) ∧
  (∀ s o t x e, x.kind = .stat → tensorEffect s o t x none = e →
    (reelImport x.blk = false → e.reel = [] ∧ ∀ p, p ∈ e.mem ↔ ∃ r < reelRows x, ∃ k < 2,
      placed (x.map 1) [k, reelOrg x + r, 0, 0, 0] (reelEntry t x r k).toNat p) ∧
    (reelImport x.blk = true → e.mem = [] ∧ ∀ q, q ∈ e.reel ↔ ∃ r < reelRows x, ∃ k < 2,
      q = (2 * (reelRow0 x + r) + k, BitVec.ofNat 64 (s.elemBits t [] (x.map 0) [k, reelOrg x + r, 0, 0, 0])))) ∧
  (∀ s o t x e, x.kind = .clr → tensorEffect s o t x none = e → e.mem = [] ∧
    ∀ q, q ∈ e.reel ↔ ∃ r < reelRows x, ∃ k < 2, q = (2 * (reelRow0 x + r) + k, 0))

/-- R262 to R264, R267: a layer operation's outputs from the codes delivered; the record of `layer.f` with PUSH, and the vector
that `layer.t` writes with VOUT. -/
def Sys2Proof.Spec.LayerResults : Prop :=
  (∀ s o t x h e, x.kind = .layerP → x.layer = some h → (x.map 0).fmt = .i8 → tensorEffect s o t x none = e →
    ∀ q, q ∈ e.tiles ↔ ∃ m < layerM x, ∃ j < h.n, q = (layerZd x + (m * h.n + j) / 4096, (m * h.n + j) % 4096,
      BitVec.ofInt 64 (columnSum h m j * 2 ^ h.ec))) ∧
  (∀ s o t x h f e, x.kind = .layerF → x.layer = some h → (x.map 0).fmt.float = some f → tensorEffect s o t x none = e →
    h.cols.length = h.n → (∀ m < layerM x, (layerBits s t x h m).length = h.k) → h.k % sideBlk x h = 0 →
    h.n % blkSize h.rotn = 0 → layerFlag x 2 = false →
    stripGets t x h e (forward s t x h f) ∧
    (layerFlag x 1 = false → e.mem = []) ∧
    (layerFlag x 1 = true → layerRank x ≤ 64 → layerM x ≤ 64 → layerHandle x < 65536 → h.gen < 65536 → x.gena < 65536 → x.genb < 65536 →
      h.k < 2 ^ 24 → ∃ b, recordIs s t x h f b ∧
        ∀ p, p ∈ e.mem ↔ ∃ i, 64 * i < b.length ∧ p = (false, x.astop + 64 * i, (b.drop (64 * i)).take 64))) ∧
  (∀ s o t x h f e, x.kind = .layerT → x.layer = some h → (x.map 0).fmt.float = some f → tensorEffect s o t x none = e →
    h.cols.length = h.n → (∀ m < layerM x, (layerBits s t x h m).length = h.n) → h.n % sideBlk x h = 0 →
    h.k % blkSize h.rotk = 0 → layerFlag x 1 = false →
    stripGets t x h e (backward s t x h f) ∧
    (layerFlag x 2 = false → e.mem = []) ∧
    (layerFlag x 2 = true → layerNoad x = false → ∀ p, p ∈ e.mem ↔ ∃ m < layerM x, ∃ i < layerRank x,
      placed (x.map 3) [i, m, 0, 0, 0] (vmapOf s t x h f m i) p))

namespace Sys2Proof.Spec

/-! ### Near-bank work (R300, R304, R305, R308 to R314) -/

/-- An operation issued before by the team's `pimld`s is outstanding. -/
def earlierPimld (s : State) (o : Op) : Prop := ∃ x ∈ s.ops, x.team = o.team ∧ x.kind.isPimld = true ∧ x.id < o.id

/-- The words a `pimld` has read. -/
def programRead (s : State) (o : Op) (pas : List Nat) : List Word :=
  pas.map fun pa => BitVec.ofNat 32 (leVal (s.clusterRead (o.core / 8) o.world pa 4))

/-- The lines a `pimld` reads, each once, and the state in which it reads them: the reads noted in the world's log (R341). -/
def programLines (pas : List Nat) : List Nat := (pas.map fun pa => pa / 128).eraseDups
def firstIn (pas : List Nat) (line : Nat) : Option Nat := (List.range pas.length).find? fun i => pas.getD i 0 / 128 == line
def programNoted (s : State) (o : Op) (va : Nat) (pas : List Nat) : State :=
  (programLines pas).foldl (fun x l => x.noteMem o.core o.world (logAgent 0 o.core) logRead
    (va + 4 * (firstIn pas l).getD 0) (128 * l) 1) s

/-- A page a command may cover: stage 2 gives it for writing, its entry is an owned PIM page of the world (R308). -/
def pimPageOk (s : State) (world gpa page : Nat) : Prop :=
  ∃ l, s.stage2 world gpa = some l ∧ l.page = page ∧ l.w = true ∧ page < usablePages ∧ s.potWorld page = world ∧
    s.potState page = 1 ∧ s.potPim page = true

/-- The first word of a `pimld` whose read delivers a data fault, with the fault's code (R181). -/
def codeOf (f : DataFault) : FaultCode := if f = .integrity then .integrity else .uncorr
def programFault (s : State) (o : Op) (va : Nat) (pas : List Nat) : Option (Nat × FaultCode) :=
  (readsInTurn (o.core / 8) o.world (programNoted s o va pas) (programLines pas)).bind fun f =>
    (firstIn pas f.1).map fun i => (i, codeOf f.2)

/-- Row `p` of command `c` is the only one of the block dispatched and not run, and every row is dispatched. -/
def lastRow (o : Op) (b : PimBlock) (c : PimCmd) (p : Nat × Nat) (ps : List Nat) : Prop :=
  o.paused = false ∧ b.cmds[b.cmd]? = some c ∧ b.pages = some ps ∧ b.pend = [p] ∧ b.row = c.nrows ∧ b.stopped = false

/-- One more request queued at a bank. -/
def oneMore (x : BankShare) : BankShare := { x with queued := x.queued + 1 }

/-- Bits [hi:lo] of a micro-operation (R301). -/
def ubits (w : Word) (hi lo : Nat) : Nat := w.toNat / 2 ^ lo % 2 ^ (hi + 1 - lo)

/-- `y` is X′ of `x` (R300): bit (p + BOFF) mod 48 of X′ is bit p of X for p below 48; bits [63:48] are those of X. -/
def boffed (x : DWord) (boff : Nat) (y : DWord) : Prop :=
  (∀ p < 48, y.getLsbD ((p + boff) % 48) = x.getLsbD p) ∧ ∀ p, 48 ≤ p → p < 64 → y.getLsbD p = x.getLsbD p

/-- TAG[f] and F_f of a bank processor; EL_e of a field as a signed number, its residue code R_e (R298, R299). -/
def tagAt (b : BpState) (f : Nat) : Bool := b.tags.getD f false
def fieldAt (b : BpState) (f : Nat) : DWord := b.row.getD f 0
def element (b : BpState) (f e : Nat) : Int :=
  let v := (fieldAt b f).toNat / 2 ^ (16 * e) % 65536
  if v < 32768 then v else (v : Int) - 65536
def code (b : BpState) (f e : Nat) : Nat := (fieldAt b f).toNat / 2 ^ (48 + 2 * e) % 4

/-- Only the tags differ; only the row does. -/
def newTags (b c : BpState) (g : Nat → Bool) : Prop :=
  c = { b with tags := c.tags } ∧ c.tags.length = 256 ∧ ∀ f < 256, tagAt c f = g f
def newRow (b c : BpState) : Prop := c = { b with row := c.row } ∧ c.row.length = 256

/-- Residue codes of the tagged fields become what `g` gives, and no other bit of the row changes. -/
def newCodes (b c : BpState) (named : Nat → Bool) (g : Nat → Nat → Nat) : Prop :=
  newRow b c ∧ ∀ f < 256,
    (∀ e < 3, code c f e = if tagAt b f && named e then g f e else code b f e) ∧
    ∀ p, p < 48 ∨ 54 ≤ p → (fieldAt c f).getLsbD p = (fieldAt b f).getLsbD p

/-- A residue source in a tagged field is 0b11. -/
def noCode (b : BpState) (f e : Nat) : Bool := tagAt b f && code b f e == 3

/-- The row stops at the lowest tagged field with a 0b11 source, operand A's element before operand B's; with none, `p`. -/
def orStops (b c : BpState) (x y : Nat) (p : Prop) : Prop :=
  (∀ f < 256, (∀ g < f, noCode b g x = false ∧ noCode b g y = false) → noCode b f x = true ∨ noCode b f y = true →
    c = { b with stop := some (f, if noCode b f x then x else y) }) ∧
  ((∀ f < 256, noCode b f x = false ∧ noCode b f y = false) → p)

/-- A named element of a tagged field whose residue code is not its residue. -/
def mismatch (b : BpState) (w : Word) (f e : Nat) : Bool :=
  tagAt b f && w.getLsbD (25 + e) && decide ((code b f e : Int) ≠ element b f e % 3)

/-- A micro-operation other than LOOP takes a bank processor from `b` to `c` (R302); none does anything once the row's rest is skipped
or a residue fault has stopped it. -/
def microStep (b : BpState) (w : Word) (c : BpState) : Prop :=
  if b.skip = true ∨ b.stop ≠ none then c = b
  else match ubits w 31 28 with
  | 0x0 =>
    let put := fun (r r' : DWord) => ∀ p < 64, r'.getLsbD p =
      if 16 * ubits w 25 24 ≤ p ∧ p < 16 * ubits w 25 24 + 16 then w.getLsbD (p - 16 * ubits w 25 24) else r.getLsbD p
    (ubits w 27 26 = 0 → c = { b with k := c.k } ∧ put b.k c.k) ∧ (ubits w 27 26 = 1 → c = { b with cm := c.cm } ∧ put b.cm c.cm) ∧
      (ubits w 27 26 = 2 → c = { b with wm := c.wm } ∧ put b.wm c.wm)
  | 0x1 => ∀ k cm, boffed b.k b.boff k → boffed b.cm b.boff cm → newTags b c fun f =>
      let m := (List.range 64).all fun p => !cm.getLsbD p || (fieldAt b f).getLsbD p == k.getLsbD p
      match ubits w 27 26 with
      | 0 => m
      | 1 => tagAt b f && m
      | 2 => tagAt b f || m
      | _ => tagAt b f && !m
  | 0x2 => ∀ k wm, boffed b.k b.boff k → boffed b.wm b.boff wm → newRow b c ∧ ∀ f < 256, ∀ p < 64,
      (fieldAt c f).getLsbD p = if tagAt b f && wm.getLsbD p then k.getLsbD p else (fieldAt b f).getLsbD p
  | 0x3 => newTags b c fun f =>
      match ubits w 27 26 with
      | 0 => false
      | 1 => true
      | _ => !tagAt b f
  | 0x4 => c = { b with boff := ubits w 5 0 }
  | 0x6 => c = { b with acc := c.acc } ∧ c.acc.length = 4 ∧ ∀ i < 4, (c.acc.getD i 0).toNat =
      if i = ubits w 27 26 then ((b.acc.getD i 0).toNat + ((List.range 256).filter (tagAt b)).length) % 2 ^ 32
      else (b.acc.getD i 0).toNat
  | 0x7 => newTags b c fun f => if w.getLsbD 27 = false then decide (f < 255) && tagAt b (f + 1) else decide (0 < f) && tagAt b (f - 1)
  | 0x8 => ((∃ f < 256, tagAt b f = true) → c = b) ∧ ((∀ f < 256, tagAt b f = false) → c = { b with skip := true })
  | 0x9 => newCodes b c (fun e => w.getLsbD (25 + e)) fun f e => (element b f e % 3).toNat
  | 0xA =>
    (∀ f < 256, ∀ e < 3, mismatch b w f e = true →
      (∀ g < 256, ∀ d < 3, g < f ∨ g = f ∧ d < e → mismatch b w g d = false) → c = { b with stop := some (f, e) }) ∧
    ((∀ f < 256, ∀ e < 3, mismatch b w f e = false) → c = b)
  | 0xB => orStops b c (ubits w 25 24) (ubits w 23 22) <| newCodes b c (fun e => e == ubits w 27 26) fun f _ =>
      (code b f (ubits w 25 24) + code b f (ubits w 23 22)) % 3
  | 0xC => orStops b c (ubits w 25 24) (ubits w 23 22) <| newCodes b c (fun e => e == ubits w 27 26) fun f _ =>
      (((code b f (ubits w 25 24) : Int) - code b f (ubits w 23 22)) % 3).toNat
  | 0xD => orStops b c (ubits w 25 24) (ubits w 25 24) <| newCodes b c (fun e => e == ubits w 27 26) fun f _ =>
      code b f (ubits w 25 24) * ubits w 21 20 % 3
  | _ => c = b

/-- Micro-operations one after the other. -/
def microSteps : List Word → BpState → BpState → Prop
  | [], b, c => c = b
  | w :: r, b, c => ∃ d, microStep b w d ∧ microSteps r d c

/-- The body of a LOOP run `n` times; after each run BOFF moves on by STEP, modulo 48 (R302). -/
def bodyRuns (body : List Word) (step : Nat) : Nat → BpState → BpState → Prop
  | 0, b, c => c = b
  | n + 1, b, c => ∃ d, microSteps body b d ∧
      bodyRuns body step n (if d.skip = true ∨ d.stop ≠ none then d else { d with boff := (d.boff + step) % 48 }) c

/-- An assigned word with its reserved fields zero that is no LOOP. -/
def plainWord (w : Word) : Prop := uopOk w = true ∧ ubits w 31 28 ≠ 5

end Sys2Proof.Spec

/-- R304, R308, R310 to R312, R314: `pimld` ends with its program valid, or invalid and a record; a command starts once its pages
check; a dispatched row runs to its end, and one with a residue fault stops the block with a record; a block ends by writing its sums, FIRST, ROWDONE and STATUS; ordinary requests queue behind
a row and are served in the yield window; a `mark` ends when what it waits for has. -/
def Sys2Proof.Spec.NearBankProgress : Prop :=
  (∀ (s : State) o va pas f s2, s.readWords o va pas = (f, s2) →
    f = programFault s o va pas ∧ keepsMemory s s2 ∧ gathersOut s s2 ∧ s2.ops = s.ops) ∧
  (∀ s id o t w va n pas f s2, outstanding s id o t w → o.kind = .pimld va n pas → s.markBlocked o = false → ¬ earlierPimld s o →
    s.readWords o va pas = (f, s2) →
    (f = none → offending (programRead s2 o pas) = none → yields (.pimldComplete id o.team) s fun s' => ended s s' o w ∧
      s'.mem = s2.mem ∧ ∃ t', s'.findTeam o.team = some t' ∧ t'.uprog = some { valid := true, words := programRead s2 o pas }) ∧
    (∀ i c, f = none ∧ offending (programRead s2 o pas) = some i ∧ c = .illegal ∨ f = some (i, c) →
      yields (.pimldComplete id o.team) s fun s' => ended s s' o w ∧
      s'.mem = s2.mem ∧ s'.nextSeq o.world nearBankSource = (s.nextSeq o.world nearBankSource + 1) % 2 ^ 32 ∧
      ∃ t', s'.findTeam o.team = some t' ∧ t'.uprog = some { valid := false, words := [] })) ∧
  (∀ s id o t w before, outstanding s id o t w → o.kind = .mark before →
    ((∀ x ∈ s.ops, x.id ∉ before) → yields (.markComplete id) s fun s' => ended s s' o w ∧ s'.mem = s.mem) ∧
    ((∃ x ∈ s.ops, x.id ∈ before) → exec (.markComplete id) s = .next s)) ∧
  (∀ s id o t w b c, outstanding s id o t w → o.kind = .pimx b → b.cmds[b.cmd]? = some c → o.paused = false →
    b.stopped = false → b.pages = none → s.markBlocked o = false →
    (∀ ps, ps.length = c.npages → (∀ i < ps.length, pimPageOk s o.world (c.pageGpa i) (ps.getD i 0)) →
      yields (.pimCommandStart id) s fun s' => keepsMemory s s' ∧ (∀ x ∈ s'.llc, x.line / 128 ∉ ps) ∧
        ∃ o' b', s'.findOp id = some o' ∧ o'.kind = .pimx b' ∧ b' = { b with pages := some ps }) ∧
    (∀ e, s.pimPages o.world c c.npages = .error e → yields (.pimCommandStart id) s fun s' => keepsMemory s s' ∧
      s'.nextSeq o.world nearBankSource = (s.nextSeq o.world nearBankSource + 1) % 2 ^ 32 ∧
      ∃ o' b', s'.findOp id = some o' ∧ o'.kind = .pimx b' ∧ b'.stopped = true ∧ b'.status = 2)) ∧
  (∀ s id o t w b c p ps, outstanding s id o t w → o.kind = .pimx b → lastRow o b c p ps →
    (c.fill = true → c.pat < 2 ^ 32 → yields (.bpFillRow id) s fun s' =>
      (∀ f < 256, s'.readNat (b.rowPa c p.2 + 8 * f) 8 = c.pat + 2 ^ 32 * c.pat) ∧
      (∀ x, x < b.rowPa c p.2 ∨ b.rowPa c p.2 + 2048 ≤ x → Sparse.get memDefault s'.mem x = Sparse.get memDefault s.mem x) ∧
      ∃ o' b', s'.findOp id = some o' ∧ o'.kind = .pimx b' ∧ b'.cmd = b.cmd + 1 ∧ b'.row = 0 ∧ b'.pend = [] ∧
        b'.pages = none) ∧
    (c.fill = false → ∀ m r, b.prog = some m →
      r = runRow m.words ((KMap.find b.bpAcc (bankOf (b.rowPage c p.2))).getD [0, 0, 0, 0]) (s.readRow (b.rowPa c p.2)) →
      yields (.bpRow id) s fun s' =>
        s'.mem = Sparse.setN memDefault s.mem (b.rowPa c p.2) (rowBytes r.row) ∧
        ∃ o' b', s'.findOp id = some o' ∧ o'.kind = .pimx b' ∧ b'.pend = [] ∧
          KMap.find b'.bpAcc (bankOf (b.rowPage c p.2)) = some r.acc ∧
          (r.stop = none → b'.cmd = b.cmd + 1 ∧ b'.row = 0 ∧ s'.sources = s.sources) ∧
          (∀ x, r.stop = some x → b'.cmd = b.cmd ∧ b'.row = b.row ∧ b'.stopped = true ∧ b'.status = 5 ∧
            s'.nextSeq o.world nearBankSource = (s.nextSeq o.world nearBankSource + 1) % 2 ^ 32))) ∧
  (∀ s id o t w b, outstanding s id o t w → o.kind = .pimx b → o.paused = false → b.pend = [] → o.blkpa % 64 = 0 →
    b.stopped = true ∨ b.cmds.length ≤ b.cmd →
    yields (.pimBlockComplete id) s fun s' => ended s s' o w ∧ s'.readMem (o.blkpa + 4) 1 = [BitVec.ofNat 8 b.status] ∧
      s'.readMem (o.blkpa + 8) 8 = leBytes 4 b.cmd ++ leBytes 4 b.row ∧
      (∀ i < 4, ∀ v, b.addSets.acc[i]? = some v → s'.readNat (o.blkpa + 16 + 4 * i) 4 = v.toNat) ∧
      ∃ t', s'.findTeam o.team = some t' ∧
        t'.barrier b.bar = (if b.baren then arrived (t.barrier b.bar) 1 else t.barrier b.bar)) ∧
  (∀ s bank, (bank < 2048 → s.bankQueue bank ≠ [] → exec (.ordinaryBankRequest bank) s =
      .next { s with banks := KMap.put s.banks bank (oneMore ((KMap.find s.banks bank).getD { queued := 0, yielding := false })) }) ∧
    (s.bankQueue bank = [] → exec (.ordinaryBankRequest bank) s = .next s) ∧
    (∀ x, KMap.find s.banks bank = some x → x.yielding = true → yields (.bpYieldWindowExpire bank) s fun s' =>
      (∀ k, k ≠ bank → KMap.find s'.banks k = KMap.find s.banks k) ∧
      (KMap.find s'.banks bank = none ∨
        ∃ q, 0 < q ∧ q ≤ x.queued ∧ KMap.find s'.banks bank = some { queued := q, yielding := false })))

/-- R298 to R302, R305: a program runs its micro-operations one after the other from a zero K, CM, WM, TAG and BOFF; what each does to
the row, its residues and the tags; a LOOP runs its body N times. -/
def Sys2Proof.Spec.MicroOperations : Prop :=
  ∀ p acc row, offending p = none → acc.length = 4 → row.length = 256 →
    runRow [] acc row = { k := 0, cm := 0, wm := 0, tags := List.replicate 256 false, boff := 0, acc := acc, row := row, stop := none,
                          skip := false } ∧
    (∀ w, plainWord w → microStep (runRow p acc row) w (runRow (p ++ [w]) acc row)) ∧
    ∀ l body, uopOk l = true → ubits l 31 28 = 5 → body.length = ubits l 21 18 + 1 → (∀ w ∈ body, plainWord w) →
      bodyRuns body (ubits l 17 12) (if (runRow p acc row).skip = true ∨ (runRow p acc row).stop ≠ none then 0 else ubits l 27 22 + 1)
        (runRow p acc row) (runRow (p ++ l :: body) acc row)

namespace Sys2Proof.Spec

/-! ### Warps, dispatch, pre-emption (R33 to R47, R52, R53, R147, R178, R195, R196, R359 to R364) -/

/-- Warp `w` of team `t` stands at index `j` of a resident team. -/
def resident (s : State) (u j : Nat) (t : Team) (w : Warp) : Prop := s.findWarp u j = some (t, w) ∧ t.place = .resident

/-- Every counter and token of the warp is zero. -/
def quiet (w : Warp) : Prop := (∀ c, w.ctr c = 0) ∧ ∀ k < 8, w.token k = 0

/-- The warp as it goes on past the instruction it was blocked at; a YIELD of its clause took effect as it blocked (R67). -/
def passes (w : Warp) : Warp := { Warp.advance { w with status := .running } with yielded := w.yielded }

/-- The state in which a warp blocked at `waitge` reads its words again. -/
def rereads (s : State) (u j : Nat) (w : Warp) : State :=
  { (s.updWarp u j fun _ => { w with status := .running }) with cur := some (u, j) }

/-! #### A rendezvous (R52, R53) -/

/-- Warp `j` of the team waits at the `br.rg` of address `a`; where the thread of its lane `l` goes. -/
def waitsAt (t : Team) (a : DWord) (j : Nat) : Prop :=
  ∃ w p tgt ft, t.warps[j]? = some w ∧ w.status = .regroup p tgt ft ∧ w.wordAddr = a
def bound (t : Team) (j l : Nat) : Option DWord :=
  match t.warps[j]? with
  | none => none
  | some w =>
    match w.status with
    | .regroup p tgt ft => if w.active.getLsbD l then some (if (w.pget p).getLsbD l then tgt else ft) else none
    | _ => none

/-- Warps of the team in strictly ascending slot, those that `q` holds of. -/
def inSlotOrder (t : Team) (q : Nat → Prop) (l : List Nat) : Prop :=
  (∀ j, j ∈ l ↔ j < t.warps.length ∧ q j) ∧
    l.Pairwise fun i j => ∀ w x, t.warps[i]? = some w → t.warps[j]? = some x → w.slot < x.slot

/-- `list[d][l]` of R53 for the participants `ps`, and the rows of the destinations `ds`: `n[d]` of each, in order. -/
def threadList (t : Team) (ps : List Nat) (d : DWord) (l : Nat) : List Nat := ps.filter fun j => bound t j l == some d
def needs (t : Team) (ps : List Nat) (d : DWord) : Nat := ((List.range 32).map fun l => (threadList t ps d l).length).foldl max 0
def rowsOf (t : Team) (ps : List Nat) (ds : List DWord) : List (DWord × Nat) :=
  ds.flatMap fun d => (List.range (needs t ps d)).map fun i => (d, i)

/-- Every warp of the team waits at the `br.rg` of one address, drained, or does not run (R52): its participants `ps`, their
destinations `ds` ascending, and the slots `free` that it may fill. -/
def oneRendezvous (t : Team) (a : DWord) (ps : List Nat) (ds : List DWord) (free : List Nat) : Prop :=
  ps ≠ [] ∧ inSlotOrder t (waitsAt t a) ps ∧
    (∀ j ∈ ps, ∀ w, t.warps[j]? = some w → w.stack = [] ∧ w.park = none ∧ w.intrap = false) ∧
    (∀ w ∈ t.warps, w.status ≠ .running ∧ ∀ p tgt ft, w.status = .regroup p tgt ft → w.wordAddr = a ∧ quiet w) ∧
    (∀ d, d ∈ ds ↔ ∃ j ∈ ps, ∃ l < 32, bound t j l = some d) ∧ ds.Pairwise (fun d e => d.toNat < e.toNat) ∧
    inSlotOrder t (fun j => j ∈ ps ∨ ∃ w, t.warps[j]? = some w ∧ w.live = 0) free

/-- The new warp of row `i` of destination `d`: each lane's thread keeps its vector and predicate registers and their poison marks; the
leader's scalars, return stack and FPMODE; every participant's flags; no counter, token, stack or record. -/
def packed (t : Team) (ps : List Nat) (leader w' : Warp) (d : DWord) (i : Nat) : Prop :=
  w'.status = .running ∧ w'.hdr = d ∧ w'.idx = 0 ∧ w'.clause = none ∧ w'.active = w'.live ∧
    (∀ l < 32, w'.live.getLsbD l = (threadList t ps d l)[i]?.isSome) ∧
    (∀ l < 32, ∀ x wx, (threadList t ps d l)[i]? = some x → t.warps[x]? = some wx →
      (∀ r, w'.vget r l = wx.vget r l) ∧ (∀ q < 8, (w'.pget q).getLsbD l = (wx.pget q).getLsbD l) ∧
      ((wx.poison.map Prod.fst).Nodup → ∀ r, KMap.find w'.poison (vkey r l) = KMap.find wx.poison (vkey r l))) ∧
    (∀ r, w'.sget r = leader.sget r) ∧ w'.rstack = leader.rstack ∧ w'.rspill = leader.rspill ∧ w'.fpmode = leader.fpmode ∧
    w'.fpstat = (ps.filterMap fun j => (t.warps[j]?).map Warp.fpstat).foldl (· ||| ·) 0 ∧ quiet w' ∧ w'.stack = [] ∧ w'.park = none ∧ w'.arrivals = [] ∧
    w'.tprog = 0 ∧ w'.repcnt = 0 ∧ w'.intrap = false

/-- The record of a queue, and the queue's descriptor fields. -/
def recordAt (d : List Byte) : Nat := inBlock d 0 8 + 128 * (inBlock d 16 8 % 2 ^ inBlock d 8 1)

/-- A valid descriptor of a queue that is not empty (R34, R35). -/
def queueReady (d : List Byte) : Prop :=
  inBlock d 0 8 % 128 = 0 ∧ inBlock d 0 8 < 2 ^ 58 ∧ inBlock d 9 7 = 0 ∧ 4 ≤ inBlock d 8 1 ∧ inBlock d 8 1 ≤ 16 ∧
    0 < (inBlock d 24 8 + 2 ^ 64 - inBlock d 16 8) % 2 ^ 64 ∧
    (inBlock d 24 8 + 2 ^ 64 - inBlock d 16 8) % 2 ^ 64 ≤ 2 ^ inBlock d 8 1

/-! #### Placement (R41, R44 to R46, R62, R360) -/

/-- Warp slots, register bytes, team entries, scratchpad bytes and tiles: of a core, of a world's share of it (R44), that a team takes,
that a team of a launch needs. -/
def coreHas : List Nat := [64, 524288, 16, 4194304, 16]
def shareHas (x : World) : List Nat :=
  let n := x.xallot.toNat / 2 ^ 10 % 128
  [n, 8192 * n, n / 4, 65536 * n, n / 4]
def teamHas (t : Team) : List Nat := [t.warps.length, 128 * t.warps.length * t.nregs, 1, t.scratchSize, t.acc]
def launchAsks (l : Launch) : List Nat := [l.nwarps, 128 * l.nwarps * l.tregs, 1, l.scratch, l.acc]

/-- What resident teams have of resource `r` of a core, all of `ts` or one world's. -/
def inUse (ts : List Team) (core r : Nat) : Nat :=
  ((ts.filter fun t => t.place == .resident && t.core == core).map fun t => (teamHas t).getD r 0).sum
def inUseBy (ts : List Team) (world core r : Nat) : Nat := inUse (ts.filter fun t => t.world == world) core r

/-- Core `core`, where of all teams `ts` stand, has room for `m` teams of the launch: of every resource that it needs, and, with `own`, in
its world's share; and the world's quota has (R41, R44, R62). -/
def room (s : State) (own : Bool) (ts : List Team) (l : Launch) (core m : Nat) : Prop :=
  (∀ r < 5, (launchAsks l).getD r 0 ≠ 0 →
    inUse ts core r + m * (launchAsks l).getD r 0 ≤ coreHas.getD r 0 ∧
    (own = true → inUseBy ts l.world core r + m * (launchAsks l).getD r 0 ≤ (shareHas (s.world l.world)).getD r 0)) ∧
  inUseBy ts l.world core 3 + m * l.scratch ≤ 16384 * ((s.world l.world).xallot.toNat / 2 ^ 26 % 512)

/-- `cnt` gives each core's free-slot count; a cluster's is the sum over its cores (R41). -/
def slotCounts (s : State) (own : Bool) (ts : List Team) (l : Launch) (cnt : Nat → Nat) : Prop :=
  ∀ core < 128, ∀ m, m ≤ cnt core ↔ m = 0 ∨ room s own ts l core m
def clusterSum (cnt : Nat → Nat) (cl : Nat) : Nat := ((List.range 8).map fun i => cnt (8 * cl + i)).sum
def moduleSum (cnt : Nat → Nat) : Nat := ((List.range 16).map (clusterSum cnt)).sum

/-- The cluster with the largest free-slot count, ties to the lowest (R45). -/
def bestCluster (cnt : Nat → Nat) (c : Nat) : Prop :=
  c < 16 ∧ ∀ d < 16, clusterSum cnt d < clusterSum cnt c ∨ clusterSum cnt d = clusterSum cnt c ∧ c ≤ d

/-- Of the cluster's cores that can hold a team, the one with the most free warp slots, ties to the lowest (R45). -/
def bestCore (s : State) (own : Bool) (ts : List Team) (l : Launch) (c core : Nat) : Prop :=
  core / 8 = c ∧ room s own ts l core 1 ∧
    ∀ d, d / 8 = c → room s own ts l d 1 → inUse ts core 0 < inUse ts d 0 ∨ inUse ts core 0 = inUse ts d 0 ∧ core ≤ d

/-- Each warp in ascending j has the lowest free slot of the scheduler with the fewest resident warps, ties to the lowest (R46). -/
def slotsGiven (ts : List Team) (t : Team) : Prop :=
  ∀ (j : Nat) w, t.warps[j]? = some w →
    ∃ taken : List Nat, taken = ((ts.filter fun u => u.place == .resident && u.core == t.core).flatMap fun u => u.warps.map Warp.slot) ++
        (t.warps.take j).map Warp.slot ∧
      w.slot < 64 ∧ w.slot ∉ taken ∧ (∀ v < w.slot, v % 4 = w.slot % 4 → v ∈ taken) ∧
      ∀ q < 4, (taken.filter fun v => v % 4 == w.slot % 4).length < (taken.filter fun v => v % 4 == q).length ∨
        (taken.filter fun v => v % 4 == w.slot % 4).length = (taken.filter fun v => v % 4 == q).length ∧ w.slot % 4 ≤ q

/-- A place of the world's context pool that no area of its teams `ts` overlaps; a new team's area is the lowest (R360). -/
def areaFits (s : State) (ts : List Team) (world size a : Nat) : Prop :=
  (s.world world).ctxBase ≤ a ∧ a + size ≤ (s.world world).ctxBase + (s.world world).ctxLen ∧
    ∀ u ∈ ts, u.world = world → u.ctxLen ≠ 0 → a + size ≤ u.ctxBase ∨ u.ctxBase + u.ctxLen ≤ a
def firstArea (s : State) (ts : List Team) (l : Launch) (t : Team) : Prop :=
  t.ctxLen = l.area ∧ areaFits s ts l.world l.area t.ctxBase ∧ ∀ b < t.ctxBase, ¬ areaFits s ts l.world l.area b

/-- Team `n` of the launch as it starts: its resources, and its warps at ENTRY with TEAMID, ARGS and their threads' numbers (R33, R39). -/
def teamStarts (l : Launch) (n : Nat) (t : Team) : Prop :=
  t.world = l.world ∧ t.launch = l.uid ∧ t.teamId = n ∧ t.place = .resident ∧ t.nregs = l.tregs ∧ t.acc = l.acc ∧
    t.scratchSize = l.scratch ∧ t.warps.length = l.nwarps ∧
    ∀ (j : Nat) (w : Warp), t.warps[j]? = some w → w.hdr = BitVec.ofNat 64 l.entry ∧ w.idx = 0 ∧ w.status = .running ∧
      w.active = w.live ∧ w.sget 0 = BitVec.ofNat 32 n ∧ w.sget64 2 = BitVec.ofNat 64 l.args ∧ quiet w ∧
      ∀ i < 32, w.live.getLsbD i = decide (32 * j + i < l.threads) ∧
        (32 * j + i < l.threads → w.vget 0 i = BitVec.ofNat 32 (32 * j + i))

/-- `part` is one batch of the launch, of which `sent` teams have been dispatched, on a module where the teams `ts` stand: min(64, the
best cluster's free-slot count, the teams left), in ascending TEAMID, each on its best core (R45). -/
def oneBatch (s : State) (own : Bool) (ts : List Team) (l : Launch) (sent : Nat) (part : List Team) : Prop :=
  ∃ cnt c, slotCounts s own ts l cnt ∧ bestCluster cnt c ∧ part.length = min 64 (min (clusterSum cnt c) (l.teams - sent)) ∧
    ∀ (i : Nat) t, part[i]? = some t → teamStarts l (sent + i) t ∧ bestCore s own (ts ++ part.take i) l c t.core ∧
      slotsGiven (ts ++ part.take i) t ∧ firstArea s (ts ++ part.take i) l t

/-- Every team left of the launch placed, batch after batch (R47). -/
def wholeGrid (s : State) (l : Launch) (placed : List Team) : Prop :=
  ∃ parts : List (List Team), placed = parts.flatten ∧ placed.length = l.teams - l.sent ∧
    ∀ (k : Nat) part, parts[k]? = some part → part ≠ [] ∧
      oneBatch s false (s.teams ++ (parts.take k).flatten) l (l.sent + (parts.take k).flatten.length) part

/-- The one launch of the module is ready in an enabled queue, with no less priority than the resident teams; no multicast has captured
a generation. -/
def oneReady (s : State) (l : Launch) (x : World) : Prop :=
  s.launches = [l] ∧ s.worlds = [(l.world, x)] ∧ l.state = .ready ∧ l.aborted = false ∧ l.sent < l.teams ∧ 0 < l.threads ∧
    l.prio < 4 ∧ l.queue < 8 ∧ x.xallot.toNat.testBit (35 + l.queue) = true ∧ s.noFit l = false ∧
    (∀ t ∈ s.teams, t.prio ≤ l.prio) ∧ ∀ o ∈ s.ops, ∀ c, o.kind = .copy c → c.targets = []

/-- The teams left that one decision is to send: all of a cooperative grid, one of another launch. -/
def wants (l : Launch) : Nat := if l.coop then l.teams - l.sent else 1

/-- The work to be saved has paused, and the entries of multicasts to the team have left their scoreboard (R229, R361). -/
def pausedWork (s : State) (u : Nat) : State := ((s.ops.filter fun o => o.team == u).foldl State.pauseOp s).dropTargets u

/-- A warp suspended with a record. -/
def isSuspended (w : Warp) : Prop := ∃ a b c d, w.status = .suspended a b c d

/-- A world may have this queue's records taken now. -/
def queueOpen (s : State) (world q : Nat) : Prop :=
  q < 8 ∧ (s.world world).state = .active ∧ bitOf (s.world world).qmask q = true ∧ ((s.world world).queue q).stopped = false ∧
    s.queueBusy world q = false

end Sys2Proof.Spec

/-- R52, R53, R147, R178, R195, R196: blocked warps go on past their instruction; entries of the return stack come back from its
spill area, and a failure there ends the team; `waitge` reads its words again and goes on when they are reached; the lanes of
the warps at a rendezvous are packed by direction into the free slots, each with its registers, or, when they do not fit, each
warp branches. The model's own choices in it: log 14, 22, 53, 93. -/
def Obligations.WarpEvents : Prop :=
  (∀ s u j t w, resident s u j t w →
    (w.status = .sleeping → exec (.sleepExpire u j) s = .next (s.updWarp u j fun _ => passes w)) ∧
    (w.status = .waitmon → ∀ e ∈ ([.waitmonWake u j, .waitmonTimeout u j] : List Instr),
      exec e s = .next (s.updWarp u j fun _ => passes { w with monitors := [] })) ∧
    (∀ d a, w.status = .waitge d a true → hasPair t d → has t a → w.poisoned [d, d + 1, a] w.active = none →
      inScratch t w 8 (scratchAt w a 0) →
      ((∀ l < 32, w.active.getLsbD l = true → (w.vget64 d l).toNat ≤ leVal (t.scratchRead (scratchAt w a 0 l).toNat 8)) →
        yields (.waitgeReread u j) s fun s' => s'.mem = s.mem ∧ s'.ops = s.ops ∧ ∃ t', s'.findWarp u j = some (t', passes w)) ∧
      ((∃ l < 32, w.active.getLsbD l = true ∧ leVal (t.scratchRead (scratchAt w a 0 l).toNat 8) < (w.vget64 d l).toNat) →
        yields (.waitgeReread u j) s fun s' => s'.mem = s.mem ∧ s'.ops = s.ops ∧ ∃ t', s'.findWarp u j = some (t', w))) ∧
    (∀ d a pa s1 s2, w.status = .waitge d a false → hasPair t d → hasPair t a → w.poisoned [d, d + 1, a, a + 1] w.active = none →
      reachable (rereads s u j w) t w .read 8 (globalAt w a 0) pa → s1 = walking (rereads s u j w) t w (globalAt w a 0) →
      s2 = s1.readWaited t.core t.world (linesRead w (globalAt w a 0) pa) →
      (¬ noMarks s t → exec (.waitgeReread u j) s = .next (s1.updWarp u j fun x => { w with watched := x.watched })) ∧
      (noMarks s t → (∀ l < 32, w.active.getLsbD l = true →
          (w.vget64 d l).toNat ≤ leVal (s2.clusterRead (t.core / 8) t.world (pa l) 8)) →
        exec (.waitgeReread u j) s =
          .next ((s2.dropL1 t.core t.world).updWarp u j fun x => { passes w with watched := x.watched })) ∧
      (noMarks s t → (∃ l < 32, w.active.getLsbD l = true ∧
          leVal (s2.clusterRead (t.core / 8) t.world (pa l) 8) < (w.vget64 d l).toNat) →
        exec (.waitgeReread u j) s = .next (s2.updWarp u j fun x => { w with watched := x.watched }))) ∧
    (∀ keep, min keep 8 ≤ w.rstack.length ∨ w.rspill = 0 → yields (.returnStackSpill u j keep) s fun s' =>
      s'.mem = s.mem ∧ ∃ t', s'.findWarp u j = some (t', w)) ∧
    (∀ keep x s1, 0 < w.rspill → s.readVirt t.core t.world (some (logAgent 0 t.core)) (spillSlot t j (w.rspill - 1)) 8 = (x, s1) →
      (∀ e, x = .error e → w.rstack.length < min keep 8 →
        exec (.returnStackSpill u j keep) s = .next (s1.abortTeam u .abort e.2)) ∧
      (∀ b, x = .ok b → w.rstack.length + 1 = min keep 8 → exec (.returnStackSpill u j keep) s = .next (s1.updWarp u j fun x =>
        { x with rstack := w.rstack ++ [BitVec.ofNat 64 (leVal b)], rspill := w.rspill - 1 })))) ∧
  (∀ s u t a ps ds free leader, s.findTeam u = some t → t.place = .resident → oneRendezvous t a ps ds free →
    (ps.head?.bind fun j => t.warps[j]?) = some leader →
    ((rowsOf t ps ds).length ≤ free.length → leader.rspill = 0 → yields (.regroupRendezvous u) s fun s' => s'.mem = s.mem ∧
      ∃ t', s'.findTeam u = some t' ∧ t'.warps.length = t.warps.length ∧
        (∀ (k j : Nat) d i w, free[k]? = some j → (rowsOf t ps ds)[k]? = some (d, i) → t.warps[j]? = some w →
          ∃ w', t'.warps[j]? = some w' ∧ w'.slot = w.slot ∧ packed t ps leader w' d i) ∧
        (∀ (k j : Nat), free[k]? = some j → (rowsOf t ps ds).length ≤ k →
          (j ∈ ps → ∃ w', t'.warps[j]? = some w' ∧ w'.status = .exited ∧ w'.live = 0) ∧ (j ∉ ps → t'.warps[j]? = t.warps[j]?)) ∧
        ∀ j, j ∉ free → t'.warps[j]? = t.warps[j]?) ∧
    (free.length < (rowsOf t ps ds).length → yields (.regroupRendezvous u) s fun s' => s'.mem = s.mem ∧
      ∃ t', s'.findTeam u = some t' ∧ (∀ j, j ∉ ps → t'.warps[j]? = t.warps[j]?) ∧
        ∀ (j : Nat) w p tgt ft, j ∈ ps → t.warps[j]? = some w → w.status = .regroup p tgt ft →
          w.live = w.active → tgt ≠ ft → (∃ h, w.clause = some h ∧ ft = after w h) →
          ∃ w', t'.warps[j]? = some w' ∧ w'.status = .running ∧ (∀ r, w'.sget r = w.sget r) ∧ (∀ r l, w'.vget r l = w.vget r l) ∧
            (w.active ≠ 0 → w.active &&& w.pget p = 0 → w'.hdr = ft ∧ w'.active = w.active ∧ w'.stack = []) ∧
            (w.active ≠ 0 → w.active &&& ~~~(w.pget p) = 0 → w'.hdr = tgt ∧ w'.active = w.active ∧ w'.stack = []) ∧
            (w.active &&& ~~~(w.pget p) ≠ 0 → w.active &&& w.pget p ≠ 0 → w'.hdr = ft ∧ w'.active = w.active &&& ~~~(w.pget p) ∧
              w'.stack = [{ join := ft, mask := w.active, pend := w.active &&& w.pget p, tgt := tgt, phase := false }]))) ∧
  (∀ s u t w p tgt ft, resident s u 0 t w → t.warps = [w] → w.status = .regroup p tgt ft → quiet w → w.active ≠ 0 →
    (∀ d, d = tgt ∧ w.active &&& ~~~(w.pget p) = 0 ∨ d = ft ∧ w.active &&& w.pget p = 0 →
      yields (.regroupRendezvous u) s fun s' => s'.mem = s.mem ∧ ∃ t' w', s'.findWarp u 0 = some (t', w') ∧
        w'.status = .running ∧ w'.hdr = d ∧ w'.idx = 0 ∧ w'.clause = none ∧ w'.active = w.active ∧ w'.live = w.active ∧
        w'.slot = w.slot ∧ (∀ r, w'.sget r = w.sget r) ∧
        (∀ r l, l < 32 → w.active.getLsbD l = true → w'.vget r l = w.vget r l) ∧
        (∀ q l, q < 8 → l < 32 → w.active.getLsbD l = true → (w'.pget q).getLsbD l = (w.pget q).getLsbD l)) ∧
    (tgt ≠ ft → w.park = none → w.stack = [] → w.live = w.active → w.active &&& ~~~(w.pget p) ≠ 0 → w.active &&& w.pget p ≠ 0 →
      (∃ h, w.clause = some h ∧ ft = after w h) →
      yields (.regroupRendezvous u) s fun s' => s'.mem = s.mem ∧ ∃ t' w', s'.findWarp u 0 = some (t', w') ∧
        w'.status = .running ∧ w'.hdr = ft ∧ w'.active = w.active &&& ~~~(w.pget p) ∧
        w'.stack = [{ join := ft, mask := w.active, pend := w.active &&& w.pget p, tgt := tgt, phase := false }]))

/-- R35 to R47, R62, R360, R382: a record that passes its checks is taken and HEAD advances; a queue whose descriptor or record
cannot be read, or whose HEAD cannot be written, stops; a launch without dependences becomes ready or fails with NO_FIT; a
launch on an idle module has its team placed on core 0 with its warps at ENTRY; on a module where teams stand, a batch of a
ready launch goes to the cluster with the most free slots, a cooperative grid starts whole or waits, and in expert mode a team
goes into its world's share; a team ends once its warps and operations have. The model's own choices in it: log 62, 63, 64,
65, 106, 115. -/
def Obligations.DispatchEvents : Prop :=
  (∀ s world q x d b sd sb s1, x = s.world world → queueOpen s world q →
    ((∃ e, s.gpaRead world (x.qtable + 32 * q) 32 = .error e) ∨
        s.gpaRead world (x.qtable + 32 * q) 32 = .ok (d, sd) ∧ queueReady d ∧ ((∃ e, sd.hubRead world (recordAt d) 128 = .error e) ∨
          sd.hubRead world (recordAt d) 128 = .ok (b, sb) ∧
            ∃ e, sb.gpaWrite world (x.qtable + 32 * q + 16) (leBytes 8 ((inBlock d 16 8 + 1) % 2 ^ 64)) = .error e) →
      yields (.launchRecordTake world q) s fun s' =>
      ((s'.world world).queue q).stopped = true ∧ s'.launches = s.launches ∧
      s'.nextSeq world dispatcherSource = (s.nextSeq world dispatcherSource + 1) % 2 ^ 32) ∧
    (s.gpaRead world (x.qtable + 32 * q) 32 = .ok (d, sd) → queueReady d → sd.hubRead world (recordAt d) 128 = .ok (b, sb) →
      sb.gpaWrite world (x.qtable + 32 * q + 16) (leBytes 8 ((inBlock d 16 8 + 1) % 2 ^ 64)) = .ok s1 →
      recordOk b (launchOf s1.nextUid world q (inBlock d 16 8) b) = true → inBlock b 24 4 ≤ x.quota →
      yields (.launchRecordTake world q) s fun s' => s'.mem = s1.mem ∧ ∃ l, s'.launches = s1.launches ++ [l] ∧
        l.world = world ∧ l.queue = q ∧ l.record = inBlock d 16 8 ∧ l.state = .waiting ∧ l.entry = inBlock b 0 8 ∧
        l.gx = inBlock b 8 4 ∧ l.gy = inBlock b 12 2 ∧ l.gz = inBlock b 14 2 ∧ l.scratch = inBlock b 24 4 ∧
        l.args = inBlock b 32 8 ∧ l.cword = inBlock b 40 8 ∧ l.done = inBlock b 48 8)) ∧
  (∀ s u l, s.findLaunch u = some l → l.uid = u → l.state = .waiting → l.ndep = 0 → l.met = [] →
    (s.noFit l = false → yields (.dependenceCheck u) s fun s' => s' = { s with launches := s'.launches } ∧
      s'.findLaunch u = some { l with state := .ready }) ∧
    (s.noFit l = true → l.cword = 0 → yields (.dependenceCheck u) s fun s' => s'.findLaunch u = none ∧
      s'.nextSeq l.world dispatcherSource = (s.nextSeq l.world dispatcherSource + 1) % 2 ^ 32) ∧
    (s.noFit l = true → l.cword ≠ 0 → l.cword % 8 = 0 → ∀ s1,
      (s.drainAll l.world).hubWrite l.world l.cword (leBytes 8 (2 ^ 63 + 2)) = .ok s1 ∨
        (s.drainAll l.world).hubWrite l.world l.cword (leBytes 8 (2 ^ 63 + 2)) = .error s1 →
      yields (.dependenceCheck u) s fun s' => s'.mem = s1.mem ∧ s'.findLaunch u = none ∧
        s'.nextSeq l.world dispatcherSource = (s.nextSeq l.world dispatcherSource + 1) % 2 ^ 32)) ∧
  (∀ s (l : Launch) (x : World), s.launches = [l] → s.teams = [] → s.ops = [] → s.worlds = [(l.world, x)] → s.expert = false → l.state = .ready →
    l.coop = false → l.aborted = false → l.teams = 1 → l.sent = 0 → l.prio < 4 → l.queue < 8 → bitOf x.qmask l.queue = true →
    0 < x.weight → 0 < x.deficit + x.weight → s.noFit l = false → s.placeable l false = true →
    yields .dispatchDecision s fun s' => s'.mem = s.mem ∧ ∃ t, s'.teams = [t] ∧ t.core = 0 ∧ t.world = l.world ∧
      t.launch = l.uid ∧ t.teamId = 0 ∧ t.place = .resident ∧ t.nregs = l.tregs ∧ t.acc = l.acc ∧ t.scratchSize = l.scratch ∧
      t.warps.length = l.nwarps ∧
      ∀ (j : Nat) (w : Warp), t.warps[j]? = some w → w.hdr = BitVec.ofNat 64 l.entry ∧ w.idx = 0 ∧ w.status = .running ∧ w.active = w.live ∧
        w.sget 0 = 0 ∧ w.sget64 2 = BitVec.ofNat 64 l.args ∧ quiet w ∧
        ∀ i < 32, w.live.getLsbD i = decide (32 * j + i < l.threads) ∧
          (32 * j + i < l.threads → w.vget 0 i = BitVec.ofNat 32 (32 * j + i))) ∧
  (∀ s l x own cnt, oneReady s l x → slotCounts s own s.teams l cnt → wants l ≤ s.areasFree l.world l.area →
    wants l ≤ moduleSum cnt → own = s.expert →
    (s.expert = false → l.coop = false → 0 < x.weight → x.deficit + x.weight = 1 →
      min 64 (min ((List.range 16).foldl (fun m c => max m (clusterSum cnt c)) 0) (l.teams - l.sent)) ≤ s.areasFree l.world l.area →
      yields .dispatchDecision s fun s' => s'.mem = s.mem ∧ ∃ part l', s'.teams = s.teams ++ part ∧ part ≠ [] ∧
        oneBatch s false s.teams l l.sent part ∧ s'.findLaunch l.uid = some l' ∧ l'.sent = l.sent + part.length ∧
        l'.state = if l'.sent = l.teams then .dispatched else .dispatching) ∧
    (s.expert = false → l.coop = true → 0 < x.deficit + x.weight → 0 < x.weight →
      yields .dispatchDecision s fun s' => s'.mem = s.mem ∧ ∃ placed l', s'.teams = s.teams ++ placed ∧ wholeGrid s l placed ∧
        s'.findLaunch l.uid = some l' ∧ l'.sent = l.teams ∧ l'.state = .dispatched) ∧
    (s.expert = true → l.coop = false → l.teams - l.sent = 1 →
      yields .dispatchDecision s fun s' => s'.mem = s.mem ∧ ∃ t, s'.teams = s.teams ++ [t] ∧ oneBatch s true s.teams l l.sent [t])) ∧
  (∀ s l x cnt, oneReady s l x → s.expert = false → slotCounts s false s.teams l cnt →
    moduleSum cnt < wants l ∨ s.areasFree l.world l.area < wants l →
    yields .dispatchDecision s fun s' => s'.mem = s.mem ∧ s'.teams = s.teams ∧ s'.launches = s.launches) ∧
  (∀ s u t l, s.findTeam u = some t → (∀ w ∈ t.warps, w.status = .exited) → (∀ o ∈ s.ops, o.team ≠ u) →
    s.findLaunch t.launch = some l → l.aborted = false →
    (l.ended + 1 ≠ l.teams → yields (.teamEnd u) s fun s' => s'.mem = s.mem ∧ (∀ y ∈ s'.teams, y.uid ≠ u) ∧
      (∀ y ∈ s.teams, y.uid ≠ u → y ∈ s'.teams) ∧ s'.findLaunch t.launch = some { l with ended := l.ended + 1 }) ∧
    (l.ended + 1 = l.teams → l.cword = 0 → yields (.teamEnd u) s fun s' => (∀ y ∈ s'.teams, y.uid ≠ u) ∧
      s'.findLaunch t.launch = none ∧ (l.evt = true →
        s'.nextSeq l.world dispatcherSource = (s.nextSeq l.world dispatcherSource + 1) % 2 ^ 32)))

/-- R359 to R364: a team asked for that can be saved is saved, or ended when its context area fails; one with a warp that cannot
be taken continues; a saved team within its allotments is restored where it fits with its context as saved; an idle team's
awake warps are suspended by the watchdog. The model's own choices in it: log 54, 55, 56, 57, 58, 59. -/
def Obligations.PreemptionEvents : Prop :=
  (∀ s u t, s.findTeam u = some t → t.coop = false → s.savable t = true →
    (∀ e, s.checkRange t.core t.world t.ctxBase t.ctxLen .write = .error e →
      yields (.preemptSave u) s fun s' => teamLost s s' t e.2) ∧
    (∀ ok s1 t1 r s2, s.checkRange t.core t.world t.ctxBase t.ctxLen .write = .ok ok → s1 = pausedWork s u →
      s1.findTeam u = some t1 → (∀ w ∈ t1.warps, w.status ≠ .waitmon) → ((s1.drainWorld (t.core / 8) t.world).writeContext t1).areaDigest t1 = (r, s2) →
      (∀ e, r = .error e → yields (.preemptSave u) s fun s' => teamLost s2 s' t e.2) ∧
      (∀ d, r = .ok d → yields (.preemptSave u) s fun s' => s'.mem = s2.mem ∧ s'.ops = s2.ops ∧ ∃ t', s'.findTeam u = some t' ∧
        t'.place = .saved ∧ t'.preempting = false ∧ t'.ctxDigest = d ∧ t'.tiles = t1.tiles ∧ t'.scratch = t1.scratch ∧
        t'.slots = t1.slots ∧ t'.warps.length = t1.warps.length ∧
        (∀ (j : Nat) w, t1.warps[j]? = some w → ∃ w', t'.warps[j]? = some w' ∧ w'.hdr = w.hdr ∧ w'.idx = w.idx ∧
          w'.sregs = w.sregs ∧ w'.vregs = w.vregs ∧ w'.preds = w.preds ∧ w'.live = w.live ∧ w'.active = w.active ∧
          (w.status = .exited ∨ isSuspended w → w'.status = w.status) ∧
          (w.status ≠ .exited → ¬ isSuspended w → w'.status = .running)) ∧
        ∀ p ∈ s'.cores, p.2.holder ≠ some u))) ∧
  (∀ s u t, s.findTeam u = some t → t.coop = false → t.preempting = true →
    (∃ w ∈ t.warps, w.status ≠ .exited ∧ (w.idx ≠ 0 ∨ w.inRep = true)) →
    exec (.preemptCancel u) s = .next (s.updTeam u fun x => { x with preempting := false })) ∧
  (∀ s u core t, s.findTeam u = some t → t.coop = false → t.place = .saved → t.ctxLen ≠ 0 → t.capFailed = false → core < 128 →
    s.higherWaits t = false →
    (s.overCapacity t = true → yields (.teamRestore u core) s fun s' => s'.mem = s.mem ∧
      s'.nextSeq t.world hubSource = (s.nextSeq t.world hubSource + (if t.world = 0 then 2 else 1)) % 2 ^ 32 ∧
      ∃ t', s'.findTeam u = some t' ∧ t'.place = .saved ∧ t'.capFailed = true) ∧
    (∀ r s1, s.overCapacity t = false → s.fitsOn t core = true → ({ s with fresh := s.fresh + 1 }).areaDigest t = (r, s1) →
      (∀ e, r = .error e → yields (.teamRestore u core) s fun s' => teamLost s1 s' t e.2) ∧
      (∀ d, r = .ok d → d ≠ t.ctxDigest → yields (.teamRestore u core) s fun s' => teamEnded s1 s' t .integrity 0) ∧
      (r = .ok t.ctxDigest → t.deferred = [] →
      yields (.teamRestore u core) s fun s' => s'.mem = s1.mem ∧ ∃ t', s'.findTeam u = some t' ∧ t'.place = .resident ∧
        t'.core = core ∧ t'.gen = ((s1.coreSt core).gen + 1) % 65536 ∧ t'.tiles = t.tiles ∧ t'.scratch = t.scratch ∧
        t'.slots = t.slots ∧ t'.warps.length = t.warps.length ∧
        ∀ (j : Nat) (w : Warp), t.warps[j]? = some w → ∃ slot age, t'.warps[j]? = some { w with slot := slot, age := age }))) ∧
  (∀ s u t, s.findTeam u = some t → t.place = .resident → bitOf (s.world t.world).wdctl.toNat 0 = true →
    bitOf (s.world t.world).wdctl.toNat 1 = false → t.awake ≠ [] →
    yields (.watchdogExpire u) s fun s' => s'.mem = s.mem ∧ s'.ops = s.ops ∧ ∃ t', s'.findTeam u = some t' ∧
      ∀ (j : Nat) (w : Warp), t.warps[j]? = some w →
        (w.status = .exited ∨ isSuspended w → t'.warps[j]? = some w) ∧
        (w.status ≠ .exited → ¬ isSuspended w → ∃ src seq, t'.warps[j]? =
          some { w with monitors := [], status := .suspended src seq false false }))

namespace Sys2Proof.Spec

/-! ### Pavane, reprogramming, scrubbing, logs, event queues (R236, R285 to R295, R337, R342, R343, R373, R377) -/

/-- Record `r` is the last of an AD's journal, which had room for it. -/
def journalled (s s' : State) (a : Nat) (p : JRecord → Prop) : Prop :=
  ∃ r, (s'.ad a).journal = (s.ad a).journal ++ [r] ∧ r.seq = (s.ad a).seq ∧ p r

/-- A change to a region is pending: its image and where it goes. -/
def pendingChange (r : Region) (id : Nat) : Prop := ∃ ctl, r.next = .program id ctl

/-! #### Pavane's arithmetic (R288, R289) -/

/-- onew: from z, `n / d` (R288). -/
def newOffset (ec alpha : Nat) (g o : XR) (n : Int) (d : Nat) : XR :=
  rnd fp64 (plus o (XR.scale2 (-(alpha : Int)) (minus (times (XR.scale2 ec (XR.ofFrac n d).neg) g) o)))

/-- m: the sum of what the code sums `as` of the probes come to, each operation rounded (R288). -/
def probeSum (ec : Nat) (g o : XR) : List Int → XR → XR
  | [], m => m
  | a :: r, m => probeSum ec g o r (rnd fp64 (plus m (rnd fp64 (plus (rnd fp64 (times (XR.scale2 ec (XR.ofInt a)) g)) o))))

/-- gnew: from the reference sum and m (R288). -/
def newGain (alpha : Nat) (g : XR) (ref : Int) (m : XR) : XR :=
  if ref ≠ 0 ∧ m.isNaN = false ∧ m.isZero = false ∧ (0 < ref ↔ XR.lt (XR.ofInt 0) m = true) then
    rnd fp64 (plus g (XR.scale2 (-(alpha : Int)) (minus (rnd fp64 (over' (times g (XR.ofInt ref)) m)) g)))
  else g

/-- Σ over p, k of c[p][k] × G[k][j] (R288). -/
def golden (r : Region) (b : Batch) (j : Nat) : Int :=
  (b.probes.map fun p => ((List.range r.k).map fun k => p.getD k 0 * goldenCode r.golden r.n k j).sum).sum

/-- Value `v` held to `lo` and `hi` in `w`, as FP32, and whether it lay outside (R289). -/
def heldTo (lo hi v : XR) (w : Nat) (out : Bool) : Prop :=
  out = (XR.lt v lo || XR.lt hi v) ∧
    w = ((if XR.lt v lo = true then lo else if XR.lt hi v = true then hi else v).round fp32 .rne false).1

/-- What a batch with code sums `as`, and a sum `z` of the reference columns, makes of column `j` (R288, R289). -/
def columnAfter (r : Region) (b : Batch) (j : Nat) (c c' : Column) (as : List Int) (z : Int) : Prop :=
  let f := fun hi lo => pavField b.ctl hi lo
  let g := f32 c.g
  let o := f32 c.o
  ∃ og oo, heldTo (XR.ofFrac (16 - f 31 28) 16) (XR.ofFrac (16 + f 31 28) 16)
      (rnd fp32 (newGain (f 27 24) g (golden r b j) (probeSum r.ec g o as (.fin false 0 1)))) c'.g og ∧
    heldTo (XR.ofInt (f 39 32 * 2 ^ r.ec : Nat)).neg (XR.ofInt (f 39 32 * 2 ^ r.ec : Nat))
      (rnd fp32 (newOffset r.ec (f 27 24) g o z (2 * b.probes.length))) c'.o oo ∧
    c'.cflags = c.cflags ||| ((if og then 1 else 0) + if oo then 2 else 0)

/-- A log whose CONSUMED reads as `b` and that has room for a record. -/
def logRoom (s : State) (l : AccessLog) (b : List Byte) (s0 : State) : Prop :=
  s.gpaRead 0 (l.base + 8) 8 = .ok (b, s0) ∧ (l.written + 2 ^ 64 - leVal b) % 2 ^ 64 < (l.size - 64) / 32

/-- What the write of a log's next record comes to. -/
def putsRecord (s : State) (l : AccessLog) (p : LogPend) (r : Except (Nat × State) State) : Prop :=
  s.gpaWrite 0 (l.base + 64 + 32 * (l.written % ((l.size - 64) / 32))) (p.record l.written) = r

/-- Entries of a world's event queue in use, with its HEAD. -/
def queued (x : World) (head : List Byte) : Nat := (x.evTail + 2 ^ 64 - leVal head) % 2 ^ 64

/-- The record at the front of a source's queue, and those behind it. -/
def waiting (s : State) (key : Nat) (r : List Byte) (rest : List (List Byte)) (q : Nat) : Prop :=
  KMap.find s.sources key = some { seq := q, pending := r :: rest }

end Sys2Proof.Spec

/-- R285, R287 to R295, R337, R342, R343, R377: Pavane's batches, with the gains and offsets they leave; the journals and states
of a region that is freed or reprogrammed; a scrubbed page is zero and owned; log records of ended windows are written or
lost; an error record is delivered in package values (R29 to R31); HEALTH follows its counts. The model's own choices in it:
log 7, 28, 66, 67, 68, 81, 103, 116, 124, 125. -/
def Obligations.ArrayEvents : Prop :=
  (∀ s n r, s.region n = r → r.state = .valid →
    (bitOf r.pavane.toNat 0 = true → r.batch = none → yields (.pavaneBatchStart n) s fun s' =>
      s' = { s with regions := s'.regions } ∧ ∃ b, s'.region n = { r with batch := some b, probeDue := false } ∧
        b.cols = r.cols ∧ b.ctl = r.pavane ∧ b.probes.length = pavField r.pavane 23 18) ∧
    (∀ b, r.batch = some b → yields (.pavaneBatchComplete n) s fun s' => s'.mem = s.mem ∧ s'.teams = s.teams ∧
      (s'.region n).batch = none ∧ (s'.region n).batches = (r.batches + 1) % 2 ^ 32 ∧ (s'.region n).cols.length = r.n ∧
      (s'.region n).gen = r.gen ∧ (s'.region n).golden = r.golden ∧
      (∀ (j : Nat) (c c' : Column), b.cols[j]? = some c → (s'.region n).cols[j]? = some c' →
        c'.cs = c.cs ∧ c.cflags &&& c'.cflags = c.cflags) ∧
      ((∃ c ∈ (s'.region n).cols, c.cflags ≠ 0) → bitOf (s'.region n).flags 0 = true) ∧
      (b.probes ≠ [] → ∃ (as : Nat → List Int) (z : Nat → Int),
        (∀ tc, -4096 * (tileRows r.k * b.probes.length : Nat) ≤ z tc ∧ z tc ≤ 4094 * (tileRows r.k * b.probes.length : Nat)) ∧
        ∀ (j : Nat) (c c' : Column), b.cols[j]? = some c → (s'.region n).cols[j]? = some c' →
          (as j).length = b.probes.length ∧ (∀ a ∈ as j, -2048 * (tileRows r.k : Int) ≤ a ∧ a ≤ 2047 * (tileRows r.k : Int)) ∧
          ((f32 c.g).isFin = true → (f32 c.o).isFin = true → columnAfter r b j c c' (as j) (z (j / 512)))))) ∧
  (∀ s n r, s.region n = r → r.state = .revoking → s.handled n = false → s.regionHeld n = false →
    (r.next = .free → yields (.revokeComplete n) s fun s' => (s'.region n).state = .empty ∧ (s'.region n).gen = r.gen ∧
      (s'.region n).flags = r.flags ∧ (s'.region n).placement = [] ∧ (s'.region n).golden = [] ∧ s'.mem = s.mem) ∧
    (∀ id a, pendingChange r id → (placementAds r.newPlacement).find? (fun x => !r.stage.contains x) = some a →
      (s.ad a).journal.length < journalCap → yields (.revokeComplete n) s fun s' =>
        journalled s s' a (fun j => j.ty = 1 ∧ j.region = n ∧ j.gen = (r.gen + 1) % 65536) ∧ (s'.region n).gen = r.gen ∧
        ((∀ x ∈ placementAds r.newPlacement, x = a ∨ x ∈ r.stage) → (s'.region n).state = .programming) ∧
        ((∃ x ∈ placementAds r.newPlacement, x ≠ a ∧ x ∉ r.stage) → (s'.region n).state = .revoking))) ∧
  (∀ s n r a, s.region n = r → r.state = .programming → (KMap.find r.progress a).getD 0 < tilesOn r.newPlacement a →
    (s.ad a).journal.length < journalCap → yields (.tileProgrammed n a) s fun s' =>
      journalled s s' a (fun j => j.ty = 2 ∧ j.region = n ∧ j.tile = (KMap.find r.progress a).getD 0) ∧
      KMap.find (s'.region n).progress a = some ((KMap.find r.progress a).getD 0 + 1) ∧
      ((∀ x ∈ placementAds r.newPlacement, tilesOn r.newPlacement x ≤ (KMap.find (s'.region n).progress x).getD 0) →
        (s'.region n).state = .verifying)) ∧
  (∀ s n r a, s.region n = r → r.state = .verifying → a ∈ placementAds r.newPlacement → KMap.find r.verified a = none →
    (∀ x ∈ placementAds r.newPlacement, x < a → (KMap.find r.verified x).isSome = true) →
    (s.ad a).journal.length < journalCap → yields (.regionVerifyComplete n) s fun s' =>
      journalled s s' a (fun j => j.ty = 3 ∧ KMap.find (s'.region n).verified a = some (bitOf j.result 31))) ∧
  (∀ s n r, s.region n = r → r.state = .verifying → (∀ x ∈ placementAds r.newPlacement, (KMap.find r.verified x).isSome = true) →
    ((∃ p ∈ r.verified, p.2 = false) → yields (.regionVerifyComplete n) s fun s' => (s'.region n).state = .failed ∧
      (s'.region n).gen = r.gen ∧ (s'.region n).cols = r.cols ∧ (s'.region n).golden = r.golden ∧ bitOf (s'.region n).flags 3 = true) ∧
    ((∀ p ∈ r.verified, p.2 = true) → (∀ x ∈ placementAds r.newPlacement, x ∈ r.stage) →
      yields (.regionVerifyComplete n) s fun s' => (s'.region n).state = .valid ∧ (s'.region n).gen = (r.gen + 1) % 65536 ∧
        (s'.region n).golden = r.newGolden ∧ (s'.region n).flags = 0 ∧ s'.layoutGen = s.layoutGen + 1)) ∧
  (∀ s page, page < usablePages → s.potState page = 3 → yields (.scrubComplete page) s fun s' =>
    (∀ x, x / 16384 = page → Sparse.get memDefault s'.mem x = 0) ∧
    (∀ x, x / 16384 ≠ page → Sparse.get memDefault s'.mem x = Sparse.get memDefault s.mem x) ∧
    s'.potState page = 1 ∧ s'.potWorld page = s.potWorld page ∧ s'.potPim page = s.potPim page ∧
    s'.potSgen page = s.potSgen page ∧ ∀ n < 128, (s'.lineMeta (128 * page + n)).p = false) ∧
  (∀ s w l p sq, l = (s.world w).log → l.pend = [p] → p.time / 1600 < s.hubTime / 1600 →
    sq = s.setWorld w { s.world w with log := { l with pend := [] } } →
    (∀ b s0 s1, logRoom sq l b s0 → putsRecord s0 l p (.ok s1) → yields (.logWindowClose w) s fun s' =>
      (s'.world w).log.pend = [] ∧ (s'.world w).log.written = l.written + 1 ∧ (s'.world w).log.lost = l.lost) ∧
    ((∃ e, sq.gpaRead 0 (l.base + 8) 8 = .error e) ∨
        (∃ b s0, sq.gpaRead 0 (l.base + 8) 8 = .ok (b, s0) ∧ (l.size - 64) / 32 ≤ (l.written + 2 ^ 64 - leVal b) % 2 ^ 64) ∨
        (∃ b s0 e, logRoom sq l b s0 ∧ putsRecord s0 l p (.error e)) → yields (.logWindowClose w) s fun s' =>
      (s'.world w).log.pend = [] ∧ (s'.world w).log.written = l.written ∧ (s'.world w).log.lost = l.lost + 1)) ∧
  (∀ e column m d r, r = adRotation (entryAd e) → entryPx e < (planeGrid r).1 → entryPy e < (planeGrid r).2 → m < 4 →
    d = (rawError e column m).delivered (entryAd e) →
    d.ad = entryAd e ∧ d.px = entryPx e ∧ d.py = entryPy e ∧ d.tile = entryTile e ∧ d.column = column ∧
      d.hdModule = 4 * entryAd e + (m + r) % 4 ∧ (d.channel + 2 * r) % 8 = planeX (rawError e column m).plane / 4) ∧
  (∀ s soft link, yields (.healthWindowAge soft link) s fun s' => s'.health = s'.healthWord ∧ s'.mem = s.mem ∧
    s'.soft = { s.soft with softWindow := s.soft.softWindow - soft, linkWindow := s.soft.linkWindow - link } ∧
    (s'.health ≠ s.health → s'.nextSeq 0 suzinSource = (s.nextSeq 0 suzinSource + 1) % 2 ^ 32))

/-- R236, R373: the next record of a source enters its world's queue when there is room, behind a PAD when its 64 bytes would wrap;
without room it waits; records gathered for a world leave in one EVENT frame of its newest session. -/
def Obligations.EventQueues : Prop :=
  (∀ s w src r rest q x h s0, src < 2 ^ 32 → waiting s (w * 2 ^ 32 + src) r rest q → s.world w = x → x.evInit = false →
    s.gpaRead w (x.evq + 8) 8 = .ok (h, s0) → s.newestSession w = none →
    (r.length = 32 → queued x h < 4096 → ∀ s1 s2,
      s0.gpaWrite w (x.evq + 64 + 32 * (x.evTail % 4096)) r = .ok s1 →
      s1.gpaWrite w x.evq (leBytes 8 ((x.evTail + 1) % 2 ^ 64)) = .ok s2 →
      yields (.eventRecordEnter w src) s fun s' => s'.mem = s2.mem ∧ (s'.world w).evTail = (x.evTail + 1) % 2 ^ 64 ∧
        ((w, src) ≠ (0, suzinSource) → KMap.find s'.sources (w * 2 ^ 32 + src) = some { seq := q, pending := rest })) ∧
    (r.length = 64 → x.evTail % 4096 = 4095 → queued x h ≤ 4093 → ∀ s1 s2 s3 s4,
      s0.gpaWrite w (x.evq + 64 + 32 * 4095) (padRecord w) = .ok s1 →
      s1.gpaWrite w x.evq (leBytes 8 ((x.evTail + 1) % 2 ^ 64)) = .ok s2 →
      s2.gpaWrite w (x.evq + 64) r = .ok s3 → s3.gpaWrite w x.evq (leBytes 8 ((x.evTail + 3) % 2 ^ 64)) = .ok s4 →
      yields (.eventRecordEnter w src) s fun s' => s'.mem = s4.mem ∧ (s'.world w).evTail = (x.evTail + 3) % 2 ^ 64) ∧
    (4096 < queued x h + r.length / 32 → exec (.eventRecordEnter w src) s = .next s0 ∧
      (s.sources.map Prod.fst = [w * 2 ^ 32 + src] → exec (.eventQueueRetry w) s = .next s0)) ∧
    (s.sources.map Prod.fst = [w * 2 ^ 32 + src] →
      exec (.eventQueueRetry w) s = exec (.eventRecordEnter w src) s)) ∧
  (∀ s w rs k x, KMap.find s.evFrame w = some rs → rs ≠ [] → rs.length ≤ 45 → s.newestSession w = some k →
    KMap.find s.sessions k = some x → exec (.eventFrameSend w) s = .next
      { s with evFrame := KMap.erase s.evFrame w
               sessions := KMap.put s.sessions k { x with txSeq := x.txSeq + 1 }
               sent := s.sent ++ [{ session := k, seq := x.txSeq, ty := 0x14, resp := false, rtag := 0, payload := rs.flatten }] })

namespace Sys2Proof.Spec

/-! ### Messages of the host (R365, R366, R370 to R373, R376, R384) -/

/-- A new, well-formed request of session `x`: its SEQ is later than the last accepted, nothing is under way, and its RTAG names no
remembered request. -/
def asked (s : State) (h : MsgHead) (x : Session) : Prop :=
  KMap.find s.sessions h.session = some x ∧ x.underWay = none ∧ x.rxSeq < h.seq ∧ h.formOk = true ∧
    ∀ p ∈ x.remembered, p.1 ≠ h.rtag

/-- The state with the request's frame accepted. -/
def accepted (s : State) (h : MsgHead) (x : Session) : State :=
  { s with sessions := KMap.put s.sessions h.session { x with rxSeq := h.seq } }

/-- A response's payload: STATUS, 0, results (R366). -/
def reply (st : Nat) (res : List Byte) : List Byte := leBytes 2 st ++ leBytes 2 0 ++ res

/-- `s'` is `s1` with the response sent in the request's session: that session has taken a SEQ and nothing of it is under way; a
performed MGMT request is remembered; nothing else differs. -/
def answered (s1 s' : State) (h : MsgHead) (ty st : Nat) (res : List Byte) : Prop :=
  s' = { s1 with sessions := s'.sessions, sent := s'.sent } ∧
  (∀ k, k ≠ h.session → KMap.find s'.sessions k = KMap.find s1.sessions k) ∧
  ∃ y, KMap.find s1.sessions h.session = some y ∧
    s'.sent = s1.sent ++ [{ session := h.session, seq := y.txSeq, ty := ty, resp := true, rtag := h.rtag, payload := reply st res }] ∧
    KMap.find s'.sessions h.session = some { y with
      txSeq := y.txSeq + 1
      underWay := none
      remembered := if ty = 0x13 ∧ st = 0 then ((h.rtag, reply st res) :: y.remembered).take 64 else y.remembered }

/-- The request leaves `s1`, and is answered with a status and results. -/
def answers (e : Instr) (s : State) (h : MsgHead) (ty st : Nat) (res : List Byte) (s1 : State) : Prop :=
  yields e s fun s' => answered s1 s' h ty st res

/-- The request is performed: it leaves `s1`, and its response carries `res`. -/
def performs (e : Instr) (s : State) (h : MsgHead) (ty : Nat) (res : List Byte) (s1 : State) : Prop := answers e s h ty 0 res s1

/-- The request is refused with a status: nothing of it is done. -/
def declines (e : Instr) (s : State) (h : MsgHead) (x : Session) (ty st : Nat) (res : List Byte) : Prop :=
  answers e s h ty st res (accepted s h x)

/-- A frame that the port discards without reply (R365, R366): one too large, one that is neither UDP over IPv6 nor Neighbor Discovery, a
router advertisement, another port, no whole header, another VER, no such session, a tag that fails, a SEQ that is not later. -/
def dropped (s : State) (f : EthernetFrame) : Prop :=
  9216 < f.size ∨ f.body = .other ∨ f.body = .routerAdvertisement ∨ ∃ port b, f.body = .udp port b ∧
    (port ≠ 19506 ∨ b.length < 32 ∨ inBlock b 0 1 ≠ 1 ∨ inBlock b 4 4 ≠ 0 ∧
      ∀ x, KMap.find s.sessions (inBlock b 4 4) = some x → x.unseal b = none ∨ inBlock b 8 8 ≤ x.rxSeq)

/-- A response outside sessions, with SESSION 0 and SEQ 0 (R366). -/
def plainly (s : State) (ty rtag st : Nat) (res : List Byte) : State :=
  { s with sent := s.sent ++ [{ session := 0, seq := 0, ty := ty, resp := true, rtag := rtag, payload := reply st res }] }

/-- Header bytes whose reserved bits are zero and whose LEN counts the payload (R366). -/
def headerForm (b : List Byte) : Prop := inBlock b 2 2 / 2 = 0 ∧ inBlock b 24 8 = 0 ∧ inBlock b 20 4 = b.length - 32

/-- Boot has not failed. -/
def booted (s : State) : Prop := ∀ a b, s.boot ≠ .failed a b

/-- A command that only world 0 may send, with head `h`. -/
def ownersOnly (h : MsgHead) (e : Instr) : Prop :=
  (∃ w p q v, e = .worldCreate h w p q v) ∨ (∃ w, e = .worldDestroy h w) ∨ (∃ w a, e = .s2rootSet h w a) ∨
  (∃ w p l, e = .pageAssign h w p l) ∨ (∃ l, e = .pageShare h l) ∨ (∃ l, e = .pageRelease h l) ∨
  (∃ w v, e = .cacheallotSet h w v) ∨ (∃ w a n l, e = .logSet h w a n l) ∨ (∃ m k i o d, e = .regionStage h m k i o d) ∨
  (∃ r i c d, e = .regionProgram h r i c d) ∨ (∃ r, e = .regionFree h r) ∨ (∃ w c f l, e = .handleSet h w c f l) ∨
  (∃ r f l, e = .columnSet h r f l) ∨ (∃ r v, e = .pavaneSet h r v) ∨ (∃ r p l o, e = .regionRead h r p l o) ∨
  (∃ w q r, e = .launchAbort h w q r) ∨ (∃ w c q r t, e = .preempt h w c q r t) ∨ (∃ a, e = .addrSet h a) ∨
  (∃ w k, e = .credSet h w k) ∨ (∃ w c f n, e = .occRead h w c f n) ∨ e = .softerrRead h ∨ (∃ v, e = .powerSet h v) ∨
  (∃ r i, e = .regRead h r i) ∨ (∃ r i v, e = .regWrite h r i v) ∨ (∃ w v, e = .xallotWrite h w v) ∨
  (∃ w v, e = .cpybwWrite h w v)

/-- A command that a world may also send about itself, `w`. -/
def ownersOrSelf (h : MsgHead) (w : Nat) (e : Instr) : Prop :=
  (∃ a b c, e = .resume h w a b c) ∨ (∃ a, e = .opResume h w a) ∨ (∃ a, e = .opAbandon h w a) ∨
  (∃ a b c, e = .teamAbort h w a b c) ∨ (∃ n, e = .receipt h w n) ∨ (∃ n, e = .checkpoint h w n) ∨
  (∃ a b c, e = .tlbInv h w 1 a b c)

end Sys2Proof.Spec

/-- R366, R370, R384: a frame whose SEQ is not later than the last accepted changes nothing; a repeated RTAG gets the stored
response and no second performance; a malformed MGMT request is refused BAD_REQUEST; a world other than 0 (or the world named,
where the command allows it) is refused BAD_REQUEST or DENIED whatever the operands, and nothing of the command is done. The
model's own choices in it: log 72, 77. -/
def Obligations.CommandsRefused : Prop :=
  ∀ s h x e, KMap.find s.sessions h.session = some x → x.underWay = none →
    (ownersOnly h e ∨ (∃ w, ownersOrSelf h w e) → x.rxSeq ≥ h.seq → exec e s = .next s) ∧
    (ownersOnly h e ∨ (∃ w, ownersOrSelf h w e) → x.rxSeq < h.seq → ∀ p l r, x.remembered = l ++ (h.rtag, p) :: r →
      (∀ q ∈ l, q.1 ≠ h.rtag) → yields e s fun s' => s' = { s with sessions := s'.sessions, sent := s'.sent } ∧
        s'.sent = s.sent ++ [{ session := h.session, seq := x.txSeq, ty := 0x13, resp := true, rtag := h.rtag, payload := p }] ∧
        KMap.find s'.sessions h.session = some { x with rxSeq := h.seq, txSeq := x.txSeq + 1 }) ∧
    (ownersOnly h e ∨ (∃ w, ownersOrSelf h w e) → x.rxSeq < h.seq → (∀ p ∈ x.remembered, p.1 ≠ h.rtag) → h.formOk = false →
      declines e s h x 0x13 0xD []) ∧
    (asked s h x → x.world ≠ 0 → ownersOnly h e → declines e s h x 0x13 0xD [] ∨ declines e s h x 0x13 1 []) ∧
    (∀ w, asked s h x → x.world ≠ 0 → x.world ≠ w → ownersOrSelf h w e →
      declines e s h x 0x13 0xD [] ∨ declines e s h x 0x13 1 [])

/-- R344, R345, R347, R366, R371, R372, R376: OPEN begins a session for a proven holder of an ACTIVE world's credential; ATTEST answers
the evidence with its signature; RELEASE writes the opened secret under the layout generation it names, or nothing; WRITE, READ and
KICK reach the session world's memory whole or not at all, and a READ longer than its operands is refused BAD_REQUEST; CLOSE ends the session; while an earlier request is not complete they wait; after a failed boot the answer is BOOT_FAILED. -/
def Sys2Proof.Spec.SessionMessages : Prop :=
  (∀ s rtag world nonce ct sg, booted s → world ≤ 31 → nonce.length = 32 → ct.length = 1088 → sg.length = 2420 →
    ((s.world world).state = .active → ∀ c, s.credentialOf world = some c →
      (s.sessions.filter fun p => p.2.world == world).length < 4 → s.sessions.length < 128 →
      yields (.openSession rtag true world nonce ct sg) s fun s' =>
        (Config.verify c (leBytes 2 world ++ nonce ++ ct) sg = false ∧ s' = plainly s 1 rtag 1 []) ∨
        (Config.verify c (leBytes 2 world ++ nonce ++ ct) sg = true ∧ ∃ k x, 1 ≤ k ∧ k < 2 ^ 32 ∧ KMap.find s.sessions k = none ∧
          x.world = world ∧ x.rxSeq = 0 ∧ x.txSeq = 1 ∧
          x.key = sha3 (Config.decapsulate s.boots ct ++ nonce ++ leBytes 2 world) ∧ x.remembered = [] ∧ x.underWay = none ∧
          s' = plainly { s with nextUid := s.nextUid + 1, fresh := s.fresh + 1, sessions := KMap.put s.sessions k x } 1 rtag 0
            (leBytes 4 k))) ∧
    ((s.world world).state ≠ .active ∨ s.credentialOf world = none →
      exec (.openSession rtag true world nonce ct sg) s = .next (plainly s 1 rtag 1 []))) ∧
  (∀ s rtag world nonce, booted s → world ≤ 31 → nonce.length = 32 → exec (.attest rtag true world nonce) s =
    .next (plainly s 2 rtag 0 (s.evidence world nonce ++ Config.sign (s.evidence world nonce)))) ∧
  (∀ s rtag world lg kem gpa len ct tag, booted s → world ≤ 31 → kem.length = 1088 → 1 ≤ len → len ≤ 4096 → ct.length = len →
    tag.length = 16 →
    (lg ≠ s.layoutGen.toNat → exec (.releaseSecret rtag true world lg kem gpa len ct tag) s = .next (plainly s 3 rtag 5 [])) ∧
    (lg = s.layoutGen.toNat → ∀ r, r = Config.gcmOpen (sha3 (Config.decapsulate s.boots kem ++ leBytes 2 world ++ leBytes 8 lg))
        (List.replicate 12 0) (leBytes 2 world ++ leBytes 8 lg ++ leBytes 8 gpa ++ leBytes 4 len) ct tag →
      yields (.releaseSecret rtag true world lg kem gpa len ct tag) s fun s' =>
        (r = none ∧ s' = plainly s 3 rtag 4 []) ∨
        ∃ p, r = some p ∧ (p.length = len →
          (∀ s1, s.gpaWrite world gpa p = .ok s1 →
            s' = plainly (s1.noteGpa world (logAgent 5 0) logWrite gpa len) 3 rtag 0 []) ∧
          ∀ e, s.gpaWrite world gpa p = .error e → s' = plainly e.2 3 rtag 3 (leBytes 8 e.1)))) ∧
  (∀ s rtag world nonce ct sg a b, s.boot = .failed a b → a < 256 → b < 256 →
    exec (.openSession rtag true world nonce ct sg) s = .next (plainly s 1 rtag 0xC (leBytes 1 a ++ leBytes 1 b ++ leBytes 6 0)) ∧
    exec (.attest rtag true world nonce) s = .next (plainly s 2 rtag 0xC (leBytes 1 a ++ leBytes 1 b ++ leBytes 6 0))) ∧
  (∀ s h x, asked s h x →
    (∀ gpa data, data ≠ [] → data.length ≤ 8192 →
      (∀ s1, (accepted s h x).gpaWrite x.world gpa data = .ok s1 →
        performs (.write h gpa data) s h 0x10 [] (s1.noteGpa x.world (logAgent 4 h.session) logWrite gpa data.length)) ∧
      (∀ e, (accepted s h x).gpaWrite x.world gpa data = .error e → answers (.write h gpa data) s h 0x10 3 (leBytes 8 e.1) e.2)) ∧
    (∀ gpa len, 1 ≤ len → len ≤ 8192 →
      (∀ b s1, (accepted s h x).gpaRead x.world gpa len = .ok (b, s1) →
        performs (.read h gpa len []) s h 0x11 b (s1.noteGpa x.world (logAgent 4 h.session) logRead gpa len)) ∧
      (∀ e, (accepted s h x).gpaRead x.world gpa len = .error e → answers (.read h gpa len []) s h 0x11 3 (leBytes 8 e.1) e.2)) ∧
    (∀ gpa len rest, rest ≠ [] → declines (.read h gpa len rest) s h x 0x11 0xD []) ∧
    (∀ q tail, q ≤ 7 → ∀ a, a = (s.world x.world).qtable + 32 * q + 24 →
      (∀ s1, (accepted s h x).gpaWrite x.world a (leBytes 8 tail) = .ok s1 →
        performs (.kick h q tail) s h 0x12 [] (s1.noteGpa x.world (logAgent 4 h.session) logWrite a 8)) ∧
      (∀ e, (accepted s h x).gpaWrite x.world a (leBytes 8 tail) = .error e →
        answers (.kick h q tail) s h 0x12 3 (leBytes 8 e.1) e.2)) ∧
    (yields (.closeSession h) s fun s' => s'.sessions = KMap.erase (accepted s h x).sessions h.session ∧
      s' = { s with sessions := s'.sessions, sent := s'.sent } ∧ s'.sent = s.sent ++
        [{ session := h.session, seq := x.txSeq, ty := 0x15, resp := true, rtag := h.rtag, payload := reply 0 [] }])) ∧
  (∀ s h x q, KMap.find s.sessions h.session = some x → x.underWay = some q → ∀ e, (∃ gpa data, e = .write h gpa data) ∨
    (∃ gpa len rest, e = .read h gpa len rest) ∨ (∃ n tail, e = .kick h n tail) ∨ e = .closeSession h → exec e s = .next s)

/-- R365, R367, R368, R384: a discarded frame changes nothing; an unknown type or command code is answered BAD_REQUEST, and an EVENT, which only the module sends, DENIED; a solicitation is
answered for an address the port holds; duplicate address detection leaves an address valid or removes it. -/
def Sys2Proof.Spec.PortRules : Prop :=
  (∀ s f, dropped s f → exec (.frameDiscard f) s = .next s) ∧
  (∀ s f b, booted s → f.size ≤ 9216 → f.body = .udp 19506 b → 32 ≤ b.length → inBlock b 0 1 = 1 → inBlock b 4 4 = 0 →
    (inBlock b 1 1 ≠ 0x14 → exec (.frameDiscard f) s = .next (if knownTypes.contains (inBlock b 1 1) then s
      else plainly s (inBlock b 1 1) (inBlock b 16 4) 0xD [])) ∧
    (inBlock b 1 1 = 0x14 → headerForm b → exec (.frameDiscard f) s = .next (plainly s 0x14 (inBlock b 16 4) 1 [])) ∧
    (inBlock b 1 1 = 0x14 → ¬ headerForm b → exec (.frameDiscard f) s = .next (plainly s 0x14 (inBlock b 16 4) 0xD []))) ∧
  (∀ s h x code, asked s h x → knownCommands.contains code = false →
    declines (.unknownTypeOrCommandCode h true code) s h x 0x13 0xD []) ∧
  (∀ s h x code, asked s h x → h.session ≠ 0 → knownTypes.contains code = false →
    declines (.unknownTypeOrCommandCode h false code) s h x code 0xD []) ∧
  (∀ s h code, booted s → h.session = 0 → knownTypes.contains code = false →
    exec (.unknownTypeOrCommandCode h false code) s = .next (plainly s code h.rtag 0xD [])) ∧
  (∀ s h x, asked s h x → h.session ≠ 0 → declines (.unknownTypeOrCommandCode h false 0x14) s h x 0x14 1 []) ∧
  (∀ s h, booted s → h.session = 0 → h.formOk = true →
    exec (.unknownTypeOrCommandCode h false 0x14) s = .next (plainly s 0x14 h.rtag 1 [])) ∧
  (∀ s a, (a ∈ s.validAddrs → exec (.neighborSolicitation a) s = .next { s with adverts := s.adverts ++ [a] }) ∧
    (a ∉ s.validAddrs → exec (.neighborSolicitation a) s = .next s)) ∧
  (∀ s a c, a = linkLocal ∨ s.address = some a → yields (.duplicateAddressDetection a c) s fun s' =>
    s' = { s with validAddrs := s'.validAddrs } ∧ (a ∈ s'.validAddrs ↔ c = false) ∧
      ∀ b, b ≠ a → (b ∈ s'.validAddrs ↔ b ∈ s.validAddrs))

namespace Sys2Proof.Spec

/-! ### Worlds, pages and translations (R317 to R323, R327, R332, R337, R360, R365, R366) -/

/-- The layout generation moves (R319). -/
def relaid (s : State) : State := { s with layoutGen := s.layoutGen + 1 }

/-- A request of world 0, on the state with its frame accepted. -/
def owner (s : State) (h : MsgHead) (x : Session) (a : State) : Prop := asked s h x ∧ x.world = 0 ∧ a = accepted s h x

/-- The request `q` is under way: no response yet. -/
def waits (e : Instr) (s : State) (h : MsgHead) (q : LongRequest) (p : State → Prop) : Prop :=
  yields e s fun s' => s'.sent = s.sent ∧ (∃ y, KMap.find s'.sessions h.session = some y ∧ y.underWay = some q) ∧ p s'

/-- Nothing cached or translated of a page remains (R323). -/
def gone (s : State) (page : Nat) : Prop :=
  (∀ e ∈ s.tlb, e.ppage ≠ page) ∧ (∀ g ∈ s.gathers, g.addr / 16384 ≠ page) ∧ (∀ l ∈ s.l1, l.line / 128 ≠ page) ∧
  (∀ l ∈ s.l2, l.line / 128 ≠ page) ∧ (∀ l ∈ s.llc, l.line / 128 ≠ page)

end Sys2Proof.Spec

/-- R317, R318, R332, R365, R366: WORLD_CREATE makes a FREE world ACTIVE with its controls at their reset values; WORLD_DESTROY
takes everything of a world away and frees its pages once nothing of it runs, else it goes on; the stage-2 root and credential are
written; ADDR_SET's address replaces the one before and is tentative; each stands only where the rule lets it. -/
def Sys2Proof.Spec.WorldCommands : Prop :=
  ∀ s h x a, owner s h x a →
    (∀ w pimok q ev, w ≤ 31 → q % 256 = 0 →
      ((s.world w).state = .free → ∀ s0, s0 = relaid ((({ a with fresh := s.fresh + 4 } : State).setWorld w { World.reset with
          state := .active, pimok := pimok, qtable := q, evq := ev, evInit := true, keys := some (drawKeys s.fresh) }).newCounters w) →
        performs (.worldCreate h w pimok q ev) s h 0x13 [] (attempted (s0.initQueue w)) ∧
          ∀ i j c, s0.packetCount i j w c = 0) ∧
      ((s.world w).state ≠ .free → declines (.worldCreate h w pimok q ev) s h x 0x13 2 [])) ∧
    (declines (.worldDestroy h 0) s h x 0x13 1 []) ∧
    (∀ w, 0 < w → w ≤ 31 → (s.world w).state = .active →
      ((∀ t ∈ s.teams, t.world ≠ w) → (∀ l ∈ s.launches, l.world ≠ w) → (∀ o ∈ s.ops, o.world ≠ w ∧ ∀ p ∈ o.pagesHeld,
          s.potState p ≠ 0 → s.potWorld p ≠ w) →
        ∃ s1 : State, performs (.worldDestroy h w) s h 0x13 [] s1 ∧ s1.world w = World.reset ∧ s1.layoutGen = s.layoutGen + 1 ∧
          s1.mem = s.mem ∧ (∀ p ∈ s1.sessions, p.2.world ≠ w) ∧ (∀ l ∈ s1.l1, l.world ≠ w) ∧ (∀ l ∈ s1.l2, l.world ≠ w) ∧
          (∀ l ∈ s1.llc, l.world ≠ w) ∧ (∀ e ∈ s1.tlb, e.world ≠ w) ∧ (∀ g ∈ s1.gathers, g.world ≠ w) ∧
          (∀ v, v ≠ w → s1.world v = s.world v) ∧
          ∀ p, (s.potWorld p = w ∧ s.potState p ≠ 0 → s1.potState p = 0 ∧ s1.potSgen p = s.potSgen p ∧ gone s1 p) ∧
            (s.potWorld p ≠ w → Sparse.get 0 s1.pot p = Sparse.get 0 s.pot p)) ∧
      ((∀ l ∈ s.launches, l.world ≠ w) → (∃ o ∈ s.ops, o.world = w) → waits (.worldDestroy h w) s h (.worldDestroy h w) fun s' =>
        (s'.world w).state = .destroying ∧ s'.mem = s.mem ∧ s'.pot = s.pot ∧ s'.ops = s.ops ∧ s'.layoutGen = s.layoutGen + 1)) ∧
    (∀ w, 0 < w → w ≤ 31 → (s.world w).state ≠ .active → declines (.worldDestroy h w) s h x 0x13 2 []) ∧
    (∀ w pa, w ≤ 31 → pa % 16384 = 0 → pa < 960 * 2 ^ 30 →
      ((s.world w).state = .active → performs (.s2rootSet h w pa) s h 0x13 []
        ((relaid (a.setWorld w { s.world w with s2root := pa })).retryQueue w)) ∧
      ((s.world w).state ≠ .active → declines (.s2rootSet h w pa) s h x 0x13 2 [])) ∧
    (∀ w key, w ≤ 31 → key.length = 1312 →
      (w ≠ 0 → (s.world w).state = .active →
        performs (.credSet h w key) s h 0x13 [] (a.setWorld w { s.world w with credential := some key })) ∧
      (w = 0 → declines (.credSet h w key) s h x 0x13 1 [])) ∧
    (∀ adr, adr < 2 ^ 128 → performs (.addrSet h adr) s h 0x13 []
      { a with address := some adr, validAddrs := a.validAddrs.filter fun v => some v != s.address || v == linkLocal })

/-- R318, R327, R360: a world sets its own stage-1 root and context pool, and drops its own stage-1 entries of the TLBs; world 0 drops any
world's stage-2 entries; a translation that is not named stays. -/
def Sys2Proof.Spec.TranslationCommands : Prop :=
  ∀ s h x, asked s h x →
    (∀ gpa, gpa % 16384 = 0 → gpa < 2 ^ 52 → performs (.s1rootSet h gpa) s h 0x13 []
      ((accepted s h x).setWorld x.world { s.world x.world with s1root := gpa })) ∧
    (∀ va len, va % 16384 = 0 → len % 16384 = 0 → va + len ≤ 2 ^ 58 → performs (.ctxSet h va len) s h 0x13 []
      ((accepted s h x).setWorld x.world { s.world x.world with ctxBase := va, ctxLen := len })) ∧
    (∀ w stage range lo hi, w ≤ 31 → range ≤ 1 → (stage = 1 ∧ x.world = w ∨ stage = 2 ∧ x.world = 0) →
      ∃ t, performs (.tlbInv h w stage range lo hi) s h 0x13 [] (({ accepted s h x with tlb := t } : State).retryQueue w) ∧
        ∀ e : TlbEntry, e ∈ t ↔ e ∈ s.tlb ∧ (e.world = w → range = 1 ∧
          ((if stage = 1 then e.vpage else e.gpage) < lo / 16384 ∨ hi / 16384 < (if stage = 1 then e.vpage else e.gpage)))) ∧
    (∀ w range lo hi, w ≤ 31 → range ≤ 1 → x.world ≠ w → declines (.tlbInv h w 1 range lo hi) s h x 0x13 1 [])

/-- R318, R320, R321, R323, R337, R340: PAGE_ASSIGN gives free pages to a world, SCRUBBING with the next scrub generation and a
receipt each; PAGE_SHARE makes owned pages shared read-only once nothing reaches them; PAGE_RELEASE frees pages and drops all
that is cached of them; pages not named keep their entries. The model's own choices in it: log 71. -/
def Obligations.PageCommands : Prop :=
  ∀ s h x a, owner s h x a → ∀ pages : List Nat, (∀ p ∈ pages, p < usablePages) →
    (∀ w pim, w ≤ 31 → pages ≠ [] → pages.length ≤ 1000 →
      (pages.Nodup → (∀ p ∈ pages, s.potState p = 0) → (s.world w).state = .active → (pim = true → (s.world w).pimok = true) →
        ∃ s0 : State, performs (.pageAssign h w pim pages) s h 0x13 [] (s0.retryQueue w) ∧
          s0 = { relaid a with pot := s0.pot, worlds := s0.worlds } ∧
          (∀ p, (p ∈ pages → s0.potWorld p = w ∧ s0.potState p = 3 ∧ s0.potPim p = pim ∧
              s0.potSgen p = (s.potSgen p + 1) % 256) ∧
            (p ∉ pages → Sparse.get 0 s0.pot p = Sparse.get 0 s.pot p)) ∧
          (s0.world w).receiptN = (s.world w).receiptN + pages.length ∧ ∀ v, v ≠ w → s0.world v = s.world v) ∧
      (pim = true → (s.world w).pimok = false → declines (.pageAssign h w pim pages) s h x 0x13 1 []) ∧
      (pim = false → (s.world w).state ≠ .active ∨ (∃ p ∈ pages, s.potState p ≠ 0) →
        declines (.pageAssign h w pim pages) s h x 0x13 2 [])) ∧
    ((∀ p ∈ pages, s.potState p = 1 ∧ s.potPim p = false) →
      ((∀ o ∈ s.ops, ∀ p ∈ o.pagesHeld, p ∉ pages) →
        ∃ s0 : State, performs (.pageShare h pages) s h 0x13 [] (s0.retryWorlds (pages.map s.potWorld)) ∧
          s0.layoutGen = s.layoutGen + 1 ∧ s0.ops = s.ops ∧ s0.worlds = s.worlds ∧
          ∀ p, (p ∈ pages → s0.potState p = 2 ∧ s0.potWorld p = s.potWorld p ∧ s0.potSgen p = s.potSgen p ∧
              (∀ e ∈ s0.tlb, e.ppage ≠ p) ∧ ∀ g ∈ s0.gathers, g.addr / 16384 ≠ p) ∧
            (p ∉ pages → Sparse.get 0 s0.pot p = Sparse.get 0 s.pot p)) ∧
      ((∃ o ∈ s.ops, ∃ p ∈ o.pagesHeld, p ∈ pages) → waits (.pageShare h pages) s h (.pageShare h pages) fun s' =>
        s' = { s with sessions := s'.sessions })) ∧
    ((∃ p ∈ pages, s.potState p ≠ 1 ∨ s.potPim p = true) → declines (.pageShare h pages) s h x 0x13 2 []) ∧
    ((∀ p ∈ pages, s.potState p ≠ 3) →
      ((∀ o ∈ s.ops, ∀ p ∈ o.pagesHeld, p ∉ pages) →
        ∃ s0 : State, performs (.pageRelease h pages) s h 0x13 []
            (s0.retryWorlds ((pages.filter fun p => s.potState p != 0).map s.potWorld)) ∧
          s0.layoutGen = s.layoutGen + 1 ∧ s0.mem = s.mem ∧ s0.ops = s.ops ∧ s0.worlds = s.worlds ∧
          ∀ p, (p ∈ pages → s0.potState p = 0 ∧ s0.potSgen p = s.potSgen p ∧ (s.potState p ≠ 0 → gone s0 p)) ∧
            (p ∉ pages → Sparse.get 0 s0.pot p = Sparse.get 0 s.pot p)) ∧
      ((∃ o ∈ s.ops, ∃ p ∈ o.pagesHeld, p ∈ pages ∧ s.potState p ≠ 0) → waits (.pageRelease h pages) s h (.pageRelease h pages) fun s' =>
        s' = { s with sessions := s'.sessions })) ∧
    ((∃ p ∈ pages, s.potState p = 3) → declines (.pageRelease h pages) s h x 0x13 2 [])

/-- R42, R57, R59, R60, R210, R311, R328, R359, R364, R367, R378: a register write stores the fields of its bit map and nothing of the
reserved ones, within the limits the map gives; what is stored is what REG_READ answers; ORIENT and HEALTH only read. -/
def Sys2Proof.Spec.RegisterCommands : Prop :=
  ∀ s h x a, owner s h x a →
    (∀ v, performs (.regWrite h 1 0 v) s h 0x13 [] { a with dispctl := BitVec.ofNat 32 v &&& 1 }) ∧
    (∀ v, performs (.regWrite h 2 0 v) s h 0x13 [] { a with boostctl := BitVec.ofNat 32 v &&& 0xFFF1 }) ∧
    (∀ v, performs (.regWrite h 3 0 v) s h 0x13 [] { a with
      pimctl := BitVec.ofNat 32 ((if v / 256 % 256 = 0 then 20 else v / 256 % 256) * 256 + v / 4 % 2 * 4 +
        (if v % 4 = 3 then 0 else v % 4)) }) ∧
    (∀ v, performs (.regWrite h 4 0 v) s h 0x13 [] { a with preemptctl := BitVec.ofNat 32 v &&& 0xD }) ∧
    (∀ v, ∀ e ∈ ([.regWrite h 5 0 v, .powerSet h v] : List Instr), performs e s h 0x13 []
      { a with powerctl := BitVec.ofNat 32 (max 900 (min 1800 (v / 65536 % 65536)) * 65536 + v % 2) }) ∧
    (∀ w v, w ≤ 31 → performs (.regWrite h 9 w v) s h 0x13 [] (a.setWorld w { s.world w with
      wdctl := BitVec.ofNat 32 ((if v / 65536 % 65536 = 0 then 1000 else v / 65536 % 65536) * 65536 + v % 4) })) ∧
    (∀ w v y, w ≤ 31 → y = BitVec.ofNat 64 v &&& 0x80FFFFFFFFFFFC00 →
      ∀ e ∈ ([.regWrite h 7 w v, .cpybwWrite h w v] : List Instr),
        performs e s h 0x13 [] (if y = (s.world w).cpybw then a else relaid (a.setWorld w { s.world w with cpybw := y }))) ∧
    (∀ w v y, w ≤ 31 → y = BitVec.ofNat 64 v &&& 0x8000FFFFFFFF00FF →
      ∀ e ∈ ([.regWrite h 8 w v, .cacheallotSet h w v] : List Instr),
        performs e s h 0x13 [] (if y = (s.world w).cacheallot then a
          else relaid (a.setWorld w { s.world w with cacheallot := y }))) ∧
    (∀ w v, w ≤ 31 → ∀ e ∈ ([.regWrite h 6 w v, .xallotWrite h w v] : List Instr),
      (64 < v / 2 ^ 10 % 128 ∨ 64 < s.resvOthers w + v / 2 ^ 10 % 128 → performs e s h 0x13 [] a) ∧
      (v / 2 ^ 10 % 128 ≤ 64 → s.resvOthers w + v / 2 ^ 10 % 128 ≤ 64 → ∃ s1 : State, performs e s h 0x13 [] s1 ∧
        (s1.world w).xallot = BitVec.ofNat 64 (v / 2 ^ 35 % 256 * 2 ^ 35 + min 256 (v / 2 ^ 26 % 512) * 2 ^ 26 +
          v / 2 ^ 10 % 2 ^ 16 * 2 ^ 10 + v % 256) ∧
        (∀ u, u ≠ w → s1.world u = s.world u) ∧ s1.mem = s.mem ∧ s1.ops = s.ops ∧ s1.launches = s.launches ∧
        (s1.layoutGen = if (s1.world w).xallot = (s.world w).xallot then s.layoutGen else s.layoutGen + 1) ∧
        ∀ q, bitOf (s.world w).qmask q = false → bitOf (s1.world w).qmask q = true →
          ((s1.world w).queue q).stopped = false)) ∧
    (performs (.regRead h 1 0) s h 0x13 (leBytes 8 s.dispctl.toNat) a ∧
      performs (.regRead h 2 0) s h 0x13 (leBytes 8 s.boostctl.toNat) a ∧
      performs (.regRead h 3 0) s h 0x13 (leBytes 8 s.pimctl.toNat) a ∧
      performs (.regRead h 4 0) s h 0x13 (leBytes 8 s.preemptctl.toNat) a ∧
      performs (.regRead h 5 0) s h 0x13 (leBytes 8 s.powerctl.toNat) a ∧
      performs (.regRead h 11 0) s h 0x13 (leBytes 8 s.healthWord.toNat) a) ∧
    (∀ w, w ≤ 31 → performs (.regRead h 6 w) s h 0x13 (leBytes 8 (s.world w).xallot.toNat) a ∧
      performs (.regRead h 7 w) s h 0x13 (leBytes 8 (s.world w).cpybw.toNat) a ∧
      performs (.regRead h 8 w) s h 0x13 (leBytes 8 (s.world w).cacheallot.toNat) a ∧
      performs (.regRead h 9 w) s h 0x13 (leBytes 8 (s.world w).wdctl.toNat) a) ∧
    (∀ d, d ≤ 15 → performs (.regRead h 10 d) s h 0x13 (leBytes 8 (d * 16 + d % 4 * 4 + d / 4)) a) ∧
    (∀ r i v, 10 ≤ r ∨ r = 0 → declines (.regWrite h r i v) s h x 0x13 0xD []) ∧
    (∀ r i, 12 ≤ r ∨ r = 0 → declines (.regRead h r i) s h x 0x13 0xD [])

/-- R331, R340, R341, R343, R375, R377: reports change nothing but the session: occupancy by slice, soft-error counts, the measurement
log, a world's receipt and checkpoint signed over the caller's nonce; LOG_SET starts a log afresh in memory world 0 may write. -/
def Sys2Proof.Spec.Reports : Prop :=
  ∀ s h x, asked s h x →
    (performs (.measlogRead h) s h 0x13 s.measLog (accepted s h x)) ∧
    (∀ w nonce b, w ≤ 31 → nonce.length = 32 → x.world = 0 ∨ x.world = w →
      (b = leBytes 2 w ++ leBytes 6 0 ++ leBytes 8 (s.world w).receiptN ++
          ((s.world w).receiptCounts.flatMap fun c => leBytes 8 c) ++ (s.world w).receiptH ++ nonce →
        performs (.receipt h w nonce) s h 0x13 (b ++ Config.sign b) (accepted s h x)) ∧
      (b = leBytes 2 w ++ leBytes 6 0 ++ leBytes 8 (s.world w).log.written ++ leBytes 8 (s.world w).log.lost ++
          (s.world w).log.chain ++ nonce →
        performs (.checkpoint h w nonce) s h 0x13 (b ++ Config.sign b) (accepted s h x))) ∧
    (x.world = 0 →
      performs (.softerrRead h) s h 0x13 (leBytes 8 s.soft.ecc ++ leBytes 8 s.soft.matrix ++ leBytes 8 s.soft.link)
        (accepted s h x) ∧
      (∀ w first n, w ≤ 31 → first + n ≤ 256 → performs (.occRead h w 0 first n) s h 0x13
        ((List.range n).flatMap fun i => leBytes 2
          (s.l2.filter fun l => l.world == w && l.cluster * 16 + l2Slice l.line == first + i).length) (accepted s h x)) ∧
      (∀ w first n, w ≤ 31 → first + n ≤ 64 → performs (.occRead h w 1 first n) s h 0x13
        ((List.range n).flatMap fun i => leBytes 2 (s.llc.filter fun l => l.world == w && llcSlice l.line == first + i).length)
        (accepted s h x)) ∧
      (∀ w base n watch, w ≤ 31 → base % 64 = 0 → 1 ≤ n → watch.length ≤ 16 →
        (∀ e ∈ watch, e.kind ≤ 1 ∧ e.ops < 128) →
        (∀ adr, (accepted s h x).gpaCheck 0 base (64 + 8192 * n) .write = some adr →
          declines (.logSet h w base (64 + 8192 * n) watch) s h x 0x13 3 (leBytes 8 adr)) ∧
        ((accepted s h x).gpaCheck 0 base (64 + 8192 * n) .write = none →
          (∀ e, (accepted s h x).gpaWrite 0 base (leBytes 64 0) = .error e →
            answers (.logSet h w base (64 + 8192 * n) watch) s h 0x13 3 (leBytes 8 e.1) e.2) ∧
          ∀ s1, (accepted s h x).gpaWrite 0 base (leBytes 64 0) = .ok s1 →
            performs (.logSet h w base (64 + 8192 * n) watch) s h 0x13 [] (relaid (s1.setWorld w { s1.world w with
              log := { AccessLog.reset with base := base, size := 64 + 8192 * n, watch := watch } })))))

namespace Sys2Proof.Spec

/-! ### Commands for the arrays (R278 to R281, R290 to R292) -/

/-- Objects that an AD stages of a kind. -/
def stagedIn (x : Ad) : Nat → KMap (Sparse Byte × Nat)
  | 0 => x.images
  | 1 => x.probes
  | _ => x.placements

/-- The same image is staged on every AD of a placement (R291). -/
def imageStaged (s : State) (place : List Nat) (id : Nat) (img : List Byte) : Prop :=
  place ≠ [] ∧ ∀ a ∈ placementAds place, s.stagedImage a id = some img

/-- Region `n` out of service for a change, with its handles cleared (R292). -/
def revoked (s s1 : State) (n : Nat) (r : Region) (next : RegionNext) : Prop :=
  s1.region n = { r with state := .revoking, prev := r.state, next := next, newGolden := (s1.region n).newGolden,
                         newPlacement := (s1.region n).newPlacement, stage := [], batch := none,
                         since := (s1.region n).since } ∧
  (∀ d < 16, KMap.find (s1.region n).since d = some (s.ad d).seq) ∧
  s1.layoutGen = s.layoutGen + 1 ∧ s1.mem = s.mem ∧ s1.teams = s.teams ∧ s1.ops = s.ops ∧ s1.ads = s.ads ∧
  (∀ k, k ≠ n → s1.region k = s.region k) ∧
  (KMap.sorted s.worlds = true → ∀ w i, i < (s.world w).hcount → handleRegion (Sparse.get 0 (s.world w).handles i) = n →
    handleV (Sparse.get 0 (s1.world w).handles i) = false)

/-- A region being changed (R292). -/
def underChange (r : Region) : Prop := r.state = .revoking ∨ r.state = .programming ∨ r.state = .verifying

end Sys2Proof.Spec

/-- R279, R281, R290 to R292: bytes are staged on every AD named or on none; REGION_PROGRAM and REGION_FREE take the region out of
service and clear its handles, or are refused with the first reason that holds; handles, gains and offsets, and PAVANE_CTL are
stored; the descriptor, placement and column table are read. The model's own choices in it: log 66, 72, 73, 75. -/
def Obligations.ArrayCommands : Prop :=
  ∀ s h x a, owner s h x a →
    (∀ mask kind id off data ads, kind ≤ 2 → data ≠ [] → data.length ≤ 8192 → kind = 0 ∨ id < 16384 →
      (ads = (List.range 16).filter fun d => bitOf mask d) →
      ((∃ d ∈ ads, poolBytes < s.poolUsed d + (s.ad d).growth kind id off data.length) →
        declines (.regionStage h mask kind id off data) s h x 0x13 6 []) ∧
      ((∀ d ∈ ads, s.poolUsed d + (s.ad d).growth kind id off data.length ≤ poolBytes) →
        ∃ s1 : State, performs (.regionStage h mask kind id off data) s h 0x13 [] s1 ∧ s1 = { a with ads := s1.ads } ∧
          ∀ d, (d ∉ ads → s1.ad d = s.ad d) ∧
            (d ∈ ads → ∃ m n, KMap.find (stagedIn (s1.ad d) kind) id = some (m, n) ∧ off + data.length ≤ n ∧
              Sparse.getN 0 m off data.length = data ∧
              ∀ j, j ≠ id → KMap.find (stagedIn (s1.ad d) kind) j = KMap.find (stagedIn (s.ad d) kind) j))) ∧
    (∀ n id ctl digest place img, n < 16384 → digest.length = 32 → place = s.stagedPlacement n →
      (underChange (s.region n) → declines (.regionProgram h n id ctl digest) s h x 0x13 2 []) ∧
      (¬ underChange (s.region n) → place = [] → declines (.regionProgram h n id ctl digest) s h x 0x13 7 []) ∧
      (¬ underChange (s.region n) → imageStaged s place id img → sha3 img ≠ digest ∨ imgOk img = false →
        declines (.regionProgram h n id ctl digest) s h x 0x13 7 []) ∧
      (¬ underChange (s.region n) → imageStaged s place id img → sha3 img = digest → imgOk img = true →
        place.length = tileRows (imgK img) * tileCols (imgN img) →
        ((∃ e ∈ place, entryOk e = false) ∨ ¬ place.Nodup → declines (.regionProgram h n id ctl digest) s h x 0x13 8 []) ∧
        ((∀ e ∈ place, entryOk e = true) → place.Nodup →
          (s.tileTaken n place = true → declines (.regionProgram h n id ctl digest) s h x 0x13 9 []) ∧
          (s.tileTaken n place = false → ∃ s1 : State, performs (.regionProgram h n id ctl digest) s h 0x13 [] s1 ∧
            revoked s s1 n (s.region n) (.program id (pavaneValue (s.region n).pavane ctl)) ∧
            (s1.region n).newGolden = img ∧ (s1.region n).newPlacement = place)))) ∧
    (∀ n, n < 16384 →
      ((s.region n).state = .valid ∨ (s.region n).state = .failed → ∃ s1 : State, performs (.regionFree h n) s h 0x13 [] s1 ∧
        revoked s s1 n (s.region n) .free) ∧
      ((s.region n).state ≠ .valid → (s.region n).state ≠ .failed → declines (.regionFree h n) s h x 0x13 2 [])) ∧
    (∀ w count first entries, w ≤ 31 → entries.length ≤ 2048 → first + entries.length ≤ 65536 → count ≤ 65536 →
      ∃ hs, performs (.handleSet h w count first entries) s h 0x13 []
          (relaid (a.setWorld w { s.world w with handles := hs, hcount := count })) ∧
        ∀ i, Sparse.get 0 hs i = if first ≤ i then
          (match entries[i - first]? with
            | some e => BitVec.ofNat 32 e &&& 0xBFFFFFFF
            | none => Sparse.get 0 (s.world w).handles i) else Sparse.get 0 (s.world w).handles i) ∧
    (∀ n first pairs, n < 16384 → pairs ≠ [] → pairs.length ≤ 1024 →
      ((s.region n).state = .valid → first + pairs.length ≤ (s.region n).n →
        ∃ cols, performs (.columnSet h n first pairs) s h 0x13 [] (a.setRegion n { s.region n with cols := cols }) ∧
          cols.length = (s.region n).cols.length ∧ ∀ (j : Nat) (c : Column), (s.region n).cols[j]? = some c →
            cols[j]? = some (if first ≤ j then (match pairs[j - first]? with
              | some p => { c with g := p.1 % 2 ^ 32, o := p.2 % 2 ^ 32 }
              | none => c) else c)) ∧
      ((s.region n).state ≠ .valid → (s.region n).state ≠ .empty → first + pairs.length ≤ (s.region n).n →
        declines (.columnSet h n first pairs) s h x 0x13 2 [])) ∧
    (∀ n v, n < 16384 →
      ((s.region n).state = .valid → performs (.pavaneSet h n v) s h 0x13 [] (a.setRegion n { s.region n with
        pavane := if 2 ≤ v / 2 ^ 16 % 4 then (s.region n).pavane else BitVec.ofNat 64 (v / 2 ^ 32 % 2 ^ 16 * 2 ^ 32 +
          (if v / 2 ^ 28 % 16 = 0 then 4 else v / 2 ^ 28 % 16) * 2 ^ 28 + v / 2 ^ 24 % 16 * 2 ^ 24 +
          (if v / 2 ^ 18 % 64 = 0 then 16 else v / 2 ^ 18 % 64) * 2 ^ 18 + v / 2 ^ 16 % 4 * 2 ^ 16 + v % 32) })) ∧
      ((s.region n).state ≠ .valid → declines (.pavaneSet h n v) s h x 0x13 2 [])) ∧
    (∀ n part len off b, n < 16384 → 1 ≤ len → len ≤ 8192 → off + len ≤ b.length →
      (part = 0 ∧ b = (s.region n).descriptor n ∨ part = 1 ∧ b = (s.region n).placement.flatMap (leBytes 4) ∨
        part = 2 ∧ b = (s.region n).cols.flatMap fun c => leBytes 4 c.cs ++ leBytes 4 c.g ++ leBytes 4 c.o ++ leBytes 4 c.cflags) →
      performs (.regionRead h n part len off) s h 0x13 ((b.drop off).take len) a)

/-- R40, R351, R353, R354, R359, R361, R363: RESUME, once the record has entered its queue, sends the suspended warp again at the
instruction or past it (and past a `rep`'s repeated word), OP_RESUME and OP_ABANDON act on the parked operation that the RID
names, at once or at the restore of a saved team; the aborts end what they name; PREEMPT marks the teams; what is named and
not there is refused. The model's own choices in it: log 28, 44, 58, 60, 73. -/
def Obligations.RecoveryCommands : Prop :=
  ∀ s h x a w, asked s h x → x.world = 0 ∨ x.world = w → w ≤ 31 → a = accepted s h x →
    (∀ src q skip, s.suspendedBy w src q = none ∨ s.recordWaits w src q = true → declines (.resume h w src q skip) s h x 0x13 0xA []) ∧
    (∀ src q skip t j v a0 b0 atHeader trap, s.suspendedBy w src q = some (t, j, v) →
      v.status = .suspended a0 b0 atHeader trap →
      (skip = true → atHeader = true → declines (.resume h w src q skip) s h x 0x13 0xD []) ∧
      (skip && atHeader = false → t.place = .saved → performs (.resume h w src q skip) s h 0x13 []
        (a.updTeam t.uid fun y => { y with deferred := y.deferred ++ [.resume src q skip] })) ∧
      (skip = false → trap = false → t.place ≠ .saved → performs (.resume h w src q skip) s h 0x13 []
        (a.updWarp t.uid j fun _ => { v with status := .running, clause := if v.idx = 0 then none else v.clause })) ∧
      (skip = true ∨ trap = true → skip && atHeader = false → t.place ≠ .saved → v.clause.isSome = true → a.atRep t v = false →
        performs (.resume h w src q skip) s h 0x13 []
          (a.updWarp t.uid j fun _ => Warp.advance { v with status := .running })) ∧
      (skip = true → atHeader = false → t.place ≠ .saved → ∀ hd, v.clause = some hd → a.atRep t v = true → ∀ y,
        y = Warp.advance { v with status := .running, repcnt := 0 } → performs (.resume h w src q skip) s h 0x13 []
          (a.updWarp t.uid j fun _ => if v.idx + 1 < hd.count then y.advance else y))) ∧
    (∀ rid, s.parkedAs w rid = none → declines (.opResume h w rid) s h x 0x13 0xB [] ∧
      declines (.opAbandon h w rid) s h x 0x13 0xB []) ∧
    (∀ rid o t, s.parkedAs w rid = some o → s.findTeam o.team = some t →
      (t.place = .saved → performs (.opResume h w rid) s h 0x13 []
          (a.updTeam t.uid fun y => { y with deferred := y.deferred ++ [.opResume rid] }) ∧
        performs (.opAbandon h w rid) s h 0x13 []
          (a.updTeam t.uid fun y => { y with deferred := y.deferred ++ [.opAbandon rid] })) ∧
      (t.place ≠ .saved → (∀ c, o.kind = .copy c → performs (.opResume h w rid) s h 0x13 []
          (a.putOp { o with parked := none, trouble := none, kind := .copy (a.recapture o.core c false) })) ∧
        performs (.opAbandon h w rid) s h 0x13 [] (a.abandon o true))) ∧
    (∀ q r k, q ≤ 7 → s.teamNamed w q r k = none → declines (.teamAbort h w q r k) s h x 0x13 2 []) ∧
    (∀ q r k t, q ≤ 7 → s.teamNamed w q r k = some t → (∀ u ∈ s.teams, u.uid = t.uid → u = t) →
      (∀ o ∈ s.ops, o.team = t.uid → o.parked = none ∧ o.paused = false) → ∃ s1 : State,
        performs (.teamAbort h w q r k) s h 0x13 [] s1 ∧ s1.mem = s.mem ∧ s1.ops = s.ops ∧
        s1.nextSeq t.world hubSource = (s.nextSeq t.world hubSource + 1) % 2 ^ 32 ∧
        ∃ t', s1.findTeam t.uid = some t' ∧ t'.ctxLen = 0 ∧ t'.preempting = false ∧ t'.deferred = [] ∧
          ∀ v ∈ t'.warps, v.status = .exited ∧ v.live = 0 ∧ v.active = 0) ∧
    (x.world = 0 →
      (∀ q r, q ≤ 7 → s.launchNamed w q r = none → declines (.launchAbort h w q r) s h x 0x13 2 []) ∧
      (∀ q r l, q ≤ 7 → s.launchNamed w q r = some l → l.state = .waiting ∨ l.state = .ready →
        performs (.launchAbort h w q r) s h 0x13 [] (a.finishLaunch l 5)) ∧
      (∀ q r k, performs (.preempt h w 0 q r k) s h 0x13 [] ((s.teams.filter fun t => t.world == w).map Team.uid |>.foldl
          State.requestPreempt a) ∨ 7 < q) ∧
      (∀ q r k t, q ≤ 7 → s.teamNamed w q r k = some t → s.findTeam t.uid = some t → t.coop = false → t.place = .resident →
        ∃ s1 : State, performs (.preempt h w 2 q r k) s h 0x13 [] s1 ∧ s1 = { a with teams := s1.teams } ∧
          (∀ u, u ≠ t.uid → s1.findTeam u = s.findTeam u) ∧
          ∃ t', s1.findTeam t.uid = some t' ∧ t' = { t with preempting := true, warps := t'.warps } ∧
            ∀ (j : Nat) (v : Warp), t.warps[j]? = some v → v.status ≠ .sleeping → v.status ≠ .waitmon →
              t'.warps[j]? = some v) ∧
      (∀ q r k, q ≤ 7 → s.teamNamed w q r k = none → declines (.preempt h w 2 q r k) s h x 0x13 2 []))

namespace Sys2Proof.Spec

/-! ### Boot, power and temperature (R374 to R376, R378 to R381) -/

/-- What neither boot nor a loss of power leaves (R374, R381). -/
def emptied (s : State) : Prop :=
  s.teams = [] ∧ s.launches = [] ∧ s.ops = [] ∧ s.sessions = [] ∧ s.gathers = [] ∧ s.l1 = [] ∧ s.l2 = [] ∧ s.llc = [] ∧ s.tlb = [] ∧
    s.coh = [] ∧ s.cores = []

/-- The lifetime counts of soft errors stand (R377). -/
def lifetimeKept (s s' : State) : Prop := s'.soft.ecc = s.soft.ecc ∧ s'.soft.matrix = s.soft.matrix ∧ s'.soft.link = s.soft.link

/-- A region's gains, offsets and flags are as they were saved, and its image with its generation (R290). -/
def calibrationKept (r r' : Region) : Prop := r'.cols = r.cols ∧ r'.flags = r.flags ∧ r'.gen = r.gen ∧ r'.golden = r.golden ∧ r'.state = r.state

/-- F and the pacing after a decision of R379 with mean power `sum` / 10 and limit `l`. -/
def nextLevel (level pacing sum l : Nat) : Nat × Nat :=
  if 10 * l < sum then
    if level = 24 then (24, min 4 (pacing + 1))
    else (max 24 (level - max 1 ((60 * (sum - 10 * l) + 10 * l - 1) / (10 * l))), pacing)
  else if 10 * sum < 95 * l then (if 0 < pacing then (level, pacing - 1) else (min 84 (level + 1), 0))
  else (level, pacing)

end Sys2Proof.Spec

/-- R294, R374 to R376, R381: a module reset boots, or stops at the step that failed with no world made; what it leaves of earlier work is the
arrays, with calibration as saved and PAVANE_CTL at its reset value, and the lifetime counts; below 40 V it does not start; a thermal trip or a supply below 40 V leaves the module off with the arrays' golden bytes kept; a milder reading changes
nothing. -/
def Sys2Proof.Spec.BootAndPowerLoss : Prop :=
  (∀ s b, b.millivolts < 40000 → yields (.moduleReset b) s fun s' => emptied s' ∧ s'.boot = .off ∧ s'.measLog = [] ∧
    ∀ w, (s'.world w).state = .free) ∧
  (∀ s b, 40000 ≤ b.millivolts → yields (.moduleReset b) s fun s' => emptied s' ∧ s'.boots = s.boots + 1 ∧ lifetimeKept s s' ∧
    (∀ i, b.badSignature = some i → s'.boot = .failed (if i = 0 then 1 else 2) 0xFF ∧ s'.measLog = []) ∧
    (b.badSignature = none → b.trained = false → s'.boot = .failed 3 0xFF) ∧
    (b.badSignature = none → b.trained = true → b.orient = (List.range 16).map orientOf →
      (b.replayOk = false → s'.boot = .failed 5 0xFF) ∧
      (b.replayOk = true → s'.boot = .up ∧ (s'.world 0).state = .active ∧ (s'.world 0).s2root = b.s2root ∧
        (s'.world 0).s1root = b.s1root ∧ (s'.world 0).qtable = b.qtable ∧ (s'.world 0).evq = b.evq ∧
        s'.measLog.length = 18 * 64 ∧ (∀ w, w ≠ 0 → (s'.world w).state = .free) ∧ (∀ n, (s'.region n).pavane = pavaneReset) ∧
        ((s.regions.map Prod.fst).Nodup → (∀ q ∈ s.regions, q.2.next = .none) → s'.layoutGen = 0 ∧ ∀ n, calibrationKept (s.region n) (s'.region n)) ∧
        (∀ p ∈ b.world0Pages, s'.potWorld p = 0 ∧ s'.potState p = 1) ∧
        ∀ p, p ∉ b.world0Pages → s'.potState p = 0)) ∧
    (s'.boot ≠ .up → ∀ w, (s'.world w).state = .free)) ∧
  (∀ s n, (∀ e ∈ ([.thermalTrip (115 + n), .supplyUndervoltage (39999 - n)] : List Instr),
    yields e s fun s' => emptied s' ∧ s'.boot = .off ∧ s'.mem = [] ∧ s'.layoutGen = 0 ∧ lifetimeKept s s' ∧ (∀ w, (s'.world w).state = .free) ∧
      ∀ r, (s'.region r).golden = (s.region r).golden ∧ (s'.region r).gen = (s.region r).gen ∧
        (s'.region r).state = (s.region r).state ∧ (s'.region r).batch = none) ∧
    ∀ e ∈ ([.thermalTrip (114 - n), .supplyUndervoltage (40000 + n)] : List Instr), exec e s = .next s)

/-- R378 to R380: ten samples make an interval's mean; the decision moves F within 0.6 to 2.1 GHz and the pacing within a sixteenth, by R379, or
by one unit down while a die is hot; offsets end when F falls below 1.8 GHz; nothing else but HEALTH moves. -/
def Sys2Proof.Spec.PowerControl : Prop :=
  (∀ s v, (s.power.samples < 10 → exec (.powerSample v) s =
      .next { s with power := { s.power with sum := s.power.sum + v, samples := s.power.samples + 1 } }) ∧
    (10 ≤ s.power.samples → exec (.powerSample v) s = .next s)) ∧
  (∀ s l limit, (limit = if s.powerctl.getLsbD 0 then (s.powerctl >>> 16).toNat else 1800) → s.power.samples = 10 →
    ((s.power.hot = false → ∀ c ∈ l, c < 105) → (s.power.hot = true → ∀ c ∈ l, c < 100) →
      yields (.powerControlDecision l) s fun s' => s'.power.hot = false ∧
        (s'.power.level, s'.power.pacing) = nextLevel s.power.level s.power.pacing s.power.sum limit ∧
        s'.power.sum = 0 ∧ s'.power.samples = 0 ∧
        s'.power.offsets = (if s'.power.level < 72 then [] else s.power.offsets) ∧ s'.mem = s.mem ∧ s'.teams = s.teams) ∧
    ((∃ c ∈ l, 105 ≤ c) ∨ s.power.hot = true ∧ (∃ c ∈ l, 100 ≤ c) →
      yields (.powerControlDecision l) s fun s' => s'.power.hot = true ∧ s'.power.level = max 24 (s.power.level - 1) ∧
        s'.power.pacing = s.power.pacing ∧ s'.power.sum = 0 ∧ s'.power.samples = 0 ∧ s'.mem = s.mem ∧ s'.teams = s.teams)) ∧
  (∀ s l, s.power.samples ≠ 10 → exec (.powerControlDecision l) s = .next s)

namespace Sys2Proof.Spec

/-! ### The machine as a whole -/

/-- Bytes of a record. -/
def part (r : List Byte) (a n : Nat) : Nat := leVal ((r.drop a).take n)

/-- The state with its next tick taken from the schedule. -/
def ticked (s : State) (rest : List Tick) : State := { s with schedule := rest, fresh := s.fresh + 1 }

/-- Warp `j` of team `t` is the only one a scheduler can consider, in a started clause. -/
def alone (s : State) (core sched : Nat) (t : Team) (j : Nat) (w : Warp) (h : Header) : Prop :=
  s.schedulerWarps core sched = [(t.uid, j)] ∧ s.findWarp t.uid j = some (t, w) ∧ t.place = .resident ∧ w.status = .running ∧
    w.clause = some h ∧ (s.teams.map Team.uid).Nodup

/-- A warp of a team once its scheduler's opportunity has passed: no `yield` of it is pending any more (R67, R149). -/
def passedOver (core sched : Nat) (t : Team) (w : Warp) : Warp :=
  if t.core = core ∧ t.place = .resident ∧ w.slot % 4 = sched then { w with yielded := false } else w

/-- The state with warp `j` of team `t` selected and its word fetched (R73). -/
def picked (s : State) (rest : List Tick) (t : Team) (j : Nat) (w : Warp) : State :=
  ({ ticked s rest with cur := some (t.uid, j), held := false }).fetched t w.wordAddr.toNat

/-- The word at the PC stands where R68 to R70 and R79 let it: its opcode in a clause of its class, a transfer last, a `rep` not
last. -/
def standsWell (h : Header) (w : Warp) (v : Nat) : Prop := wordCheck h w.idx v = none

/-- What every step keeps of the module's controls (R42, R57, R311, R359, R378, R379): reserved bits zero, PIMCTL's window and
weight in range, POWERCTL's limit within 900 to 1,800 W, F within 0.6 to 2.1 GHz, the pacing within a sixteenth, ten samples at most
in an interval. -/
def controlsOk (s : State) : Prop :=
  s.dispctl &&& ~~~1 = 0 ∧ s.boostctl &&& ~~~0xFFF1 = 0 ∧ s.preemptctl &&& ~~~0xD = 0 ∧
  s.pimctl &&& ~~~0xFF07 = 0 ∧ s.pimctl.toNat % 4 ≠ 3 ∧ s.pimctl.toNat / 256 ≠ 0 ∧
  s.powerctl &&& 0xFFFE = 0 ∧ 900 ≤ s.powerctl.toNat / 65536 ∧ s.powerctl.toNat / 65536 ≤ 1800 ∧
  24 ≤ s.power.level ∧ s.power.level ≤ 84 ∧ s.power.pacing ≤ 4 ∧ s.power.samples ≤ 10

end Sys2Proof.Spec

/-- R236, R350, R356: a precise or deferred fault suspends its warp with the PC at the instruction and posts one record of 64 bytes, which
names it; every other warp, and all the rest of the state, is as it was. -/
def Obligations.FaultSuspension : Prop :=
  ∀ (s s' : State) (t : Team) (j : Nat) (w : Warp) (x : Trouble) (src : Nat), s.curWarp = some (t, j, w) → t.core < 128 →
    w.slot < 64 → src = t.core * 64 + w.slot → s' = s.suspend t j w x →
    s' = { s with teams := s'.teams, sources := s'.sources } ∧
    (∃ t', s'.findWarp t.uid j = some (t', { w with
        status := .suspended src (s.nextSeq t.world src) x.atHeader (decide (x.code = .trap)), inRep := false }) ∧
      t' = { t with warps := t'.warps } ∧ ∀ k, k ≠ j → t'.warps[k]? = t.warps[k]?) ∧
    (∀ u, u ≠ t.uid → s'.findTeam u = s.findTeam u) ∧
    (∀ k, k ≠ sourceKey t.world src → KMap.find s'.sources k = KMap.find s.sources k) ∧
    ∃ r, KMap.find s'.sources (sourceKey t.world src) = some
        { seq := (s.nextSeq t.world src + 1) % 2 ^ 32
          pending := ((KMap.find s.sources (sourceKey t.world src)).getD Source.reset).pending ++ [r] } ∧
      r.length = 64 ∧ part r 0 2 = evFault ∧ part r 2 2 = t.world % 65536 ∧ part r 4 4 = s.nextSeq t.world src % 2 ^ 32 ∧
      part r 8 4 = src ∧ part r 12 2 = x.code.code % 65536 ∧ part r 14 1 = (if x.deferred then 8 else 1) ∧
      part r 15 1 = x.lane % 256 ∧ part r 16 4 = t.teamId % 2 ^ 32 ∧ part r 20 1 = j % 256 ∧ part r 21 1 = t.core ∧
      part r 22 1 = (if x.atHeader then 0xFF else w.idx % 256) ∧ part r 24 8 = w.hdr.toNat ∧ part r 32 8 = x.addr % 2 ^ 64 ∧
      part r 40 8 = x.opaddr % 2 ^ 64 ∧ part r 48 8 = x.prog % 2 ^ 64 ∧ part r 56 4 = x.detail % 2 ^ 32

/-- R48, R66, R79: when a scheduler's turn comes and the word at its one candidate's PC decodes to an instruction that R79 admits
there, and that instruction can issue, the step is that instruction's execution in the state with the warp selected (its skip
count 0, no `yield` pending); when it cannot issue, the opportunity passes. An event that the schedule names runs as itself.
The model's own choices in it: log 1, 88. -/
def Obligations.StepRunsDecoded : Prop :=
  (∀ s rest core sched t j w h v i, s.schedule = .issue core sched :: rest → alone (ticked s rest) core sched t j w h →
    (ticked s rest).fetchWord t w.wordAddr.toNat = .ok v → standsWell h w v → decodeWord v = .ok i →
    ((∀ s', exec i (picked s rest t j w) = .next s' → s'.held = false) →
      ∃ (s1 : State) (t1 : Team), step s = exec i (s1.fetched t1 w.wordAddr.toNat) ∧
        s1 = { ticked s rest with teams := s1.teams, cur := some (t.uid, j), held := false } ∧
        s1.curWarp = some (t1, j, { w with skip := 0, yielded := false }) ∧ t1 = { t with warps := t1.warps } ∧
          (∀ k, k ≠ j → t1.warps[k]? = (t.warps[k]?).map (passedOver core sched t)) ∧
          ∀ u, u ≠ t.uid → s1.findTeam u =
            (s.findTeam u).map fun y => { y with warps := y.warps.map (passedOver core sched y) }) ∧
    (∀ s', exec i (picked s rest t j w) = .next s' → s'.held = true →
      ∃ s1, step s = .next s1 ∧ s1 = { ticked s rest with teams := s1.teams } ∧
        ∃ t1, s1.findWarp t.uid j = some (t1, { w with yielded := false }))) ∧
  (∀ s rest e, s.schedule = .event e :: rest → isEvent e = true → s.boot = .up →
    step s = exec e { ticked s rest with cur := none })

/-- R48, R374, R376, R381: of the ready warps the one with the largest skip count of 17 or more is chosen, ties to the oldest, and
otherwise the oldest; a module that is off, or has not booted, does nothing but a module reset, and one whose boot failed does
none of its work (R376). The model's own choices in it: log 61. -/
def Obligations.Scheduling : Prop :=
  (∀ l : List (Nat × Nat × (Nat × Nat)), l ≠ [] → ∃ x ∈ l, pickWarp l = some x.2.2 ∧
    ((∃ y ∈ l, 17 ≤ y.1) → 17 ≤ x.1 ∧ ∀ y ∈ l, y.1 ≤ x.1 ∧ (y.1 = x.1 → x.2.1 ≤ y.2.1)) ∧
    ((∀ y ∈ l, y.1 < 17) → ∀ y ∈ l, x.2.1 ≤ y.2.1)) ∧
  (∀ s rest, s.boot = .off ∨ s.boot = .pending → s.teams = [] →
    (∀ core sched, s.schedule = .issue core sched :: rest → step s = .next (ticked s rest)) ∧
    ∀ e, s.schedule = .event e :: rest → (∀ b, e ≠ .moduleReset b) → step s = .next (ticked s rest)) ∧
  (∀ s rest a b n d e, s.boot = .failed a b → s.schedule = .event e :: rest → e ∈ ([.tileProgrammed n d, .revokeComplete n,
      .regionVerifyComplete n, .pavaneBatchStart n, .pavaneBatchComplete n, .dispatchDecision, .copyBucketTick, .powerSample n,
      .scrubComplete n] : List Instr) → step s = .next (ticked s rest))

/-- R65 to R92: the words that the encoding chapter and its commentary work out by hand stand for the instructions they give. -/
def Obligations.DecodedWords : Prop :=
  decodeHeader 0xC4040001 = some { cls := .vmem, kwait := 2, wl := false, ws := false, yield := false, count := 1 } ∧
  decodeHeader 0xC2010001 = some { cls := .valu, kwait := 0, wl := true, ws := false, yield := false, count := 1 } ∧
  decodeWord 0xC2214110 = .ok (.ldG .b32 .stream 5 2 16) ∧ decodeWord 0x502010C3 = .ok (.vFmaF32 4 1 6) ∧
  decodeWord 0x44387020 = .ok (.viAdd 7 7 1) ∧ decodeWord 0xD0308426 = .ok (.atomAdd 6 8 .i32 .dev .acqrel false) ∧
  decodeWord 0x14FFE001 = .ok (.brv 1 (-8) 1) ∧ decodeWord 0x08400009 = .ok (.ldl 4 9) ∧
  decodeWord 0x40081000 = .ok (.vAdd 1 1 0) ∧ decodeWord 0x04410201 = .ok (.siSub 4 4 1) ∧
  decodeWord 0x1043FFFC = .ok (.brcNz 4 (-4)) ∧ decodeWord 0x20000000 = .ok .exit ∧
  decodeWord 0x2C008000 = .ok (.wait 0 .l true 0) ∧ decodeWord 0xFC000000 = .error .reservedOpcode

/-- R75 to R93: the encoding of every well-formed instruction is one word of 32 bits, and decoding that word gives the instruction back,
with every operand at every value the encoding admits. -/
def Obligations.EncodeDecode : Prop :=
  ∀ i v, i.wf = true → encode i = some v → v < 2 ^ 32 ∧ decodeWord v = .ok i

/-- R75 to R93: each word has at most one meaning: a word that decodes is the encoding of the well-formed instruction it decodes to. -/
def Obligations.DecodeEncode : Prop :=
  ∀ v i, v < 2 ^ 32 → decodeWord v = .ok i → i.wf = true ∧ encode i = some v

/-- R42, R57, R311, R359, R378, R379: whatever acts, the module's control registers and its power level stay within their bit maps and
bounds. -/
def Obligations.ControlsKept : Prop :=
  ∀ s s', controlsOk s → step s = .next s' → controlsOk s'

/-- R42, R57, R59, R210, R311, R317, R328, R359, R364, R374, R378, R379: the module after reset: its control registers at the
values their bit maps give, every world FREE with its controls at theirs, and the bounds that every step keeps hold. The
model's own choices in it: log 6, 7. -/
def Obligations.ResetState : Prop :=
  controlsOk State.reset ∧ State.reset.dispctl = 0 ∧ State.reset.boostctl = 0xC21 ∧ State.reset.pimctl = 0x1400 ∧
  State.reset.preemptctl = 0x5 ∧ State.reset.powerctl = 0x7080000 ∧ State.reset.power.level = 84 ∧
  (∀ w, (State.reset.world w).state = .free ∧ (State.reset.world w).qmask = 0xFF ∧ (State.reset.world w).spq = 256 ∧
    (State.reset.world w).bars = 15 ∧ (State.reset.world w).divd = 31 ∧ (State.reset.world w).resv = 0 ∧
    (State.reset.world w).weight = 16 ∧ (State.reset.world w).cpybw = 0x0010100400000000#64 ∧
    (State.reset.world w).cacheallot = 0x0000FFFFFFFF0010#64 ∧ (State.reset.world w).wdctl = 0x3E80000) ∧
  State.reset.teams = [] ∧ State.reset.sessions = [] ∧ Memory.wf State.reset.mem = true

/-! ### Statements of several parts -/

/-- R143: Scalar operations and compares: the result, and nothing else changed (`ScalarOps`, `ScalarCompares`). -/
def Obligations.ScalarArithmetic : Prop := Spec.ScalarOps ∧ Spec.ScalarCompares

/-- R80, R143, R7, R76, R79: Scalar immediate forms; s63 reads zero and discards writes; odd pairs and shift amounts are F_ILLEGAL (`ScalarImmediates`, `ScalarRegisters`, `ScalarIllegal`). -/
def Obligations.ScalarImmediateForms : Prop := Spec.ScalarImmediates ∧ Spec.ScalarRegisters ∧ Spec.ScalarIllegal

/-- R83, R156, R84, R157, R39, R76, R79, R80: 32-bit vector operations on registers and immediates: lane results, nothing else changed; register groups that are F_ILLEGAL (`VectorOps`, `VectorImmediates`, `VectorIllegal`). -/
def Obligations.VectorArithmetic : Prop := Spec.VectorOps ∧ Spec.VectorImmediates ∧ Spec.VectorIllegal

/-- R158, R84, R159: Integer and floating compares give each active lane of the predicate its bit (`VectorCompares`, `FloatingCompares`). -/
def Obligations.Compares : Prop := Spec.VectorCompares ∧ Spec.FloatingCompares

/-- R86, R116, R163, R106: cvt between formats, saturation, and its forbidden combinations (`Convert`, `ConvertIntegers`). -/
def Obligations.Conversions : Prop := Spec.Convert ∧ Spec.ConvertIntegers

/-- R164 to R167, R168, R171, R172, R173: vrot and virot; lx, polls, peers and comb over the live participants of a mask
(`RegisterRotations`, `LaneExchange`, `Polls`, `Reductions`). The model's own choices in it: log 12. -/
def Obligations.CrossLane : Prop := Spec.RegisterRotations ∧ Spec.LaneExchange ∧ Spec.Polls ∧ Spec.Reductions

/-- R149, R155, R74, R76, R145: nop, yield, moves between scalar and vector registers, and literal loads (`MovesAndHints`, `LiteralLoads`). -/
def Obligations.MovesAndLiterals : Prop := Spec.MovesAndHints ∧ Spec.LiteralLoads

/-- R146, R50, R52: Uniform and divergent branches, and br.rg (`Branches`, `DivergentBranches`). -/
def Obligations.BranchInstructions : Prop := Spec.Branches ∧ Spec.DivergentBranches

/-- R147, R360, R51, R148: Calls, returns, the return stack and its spills, F_CALLSTACK, and exit (`Calls`, `Exit`). The model's
own choices in it: log 14. -/
def Obligations.CallsAndExit : Prop := Spec.Calls ∧ Spec.Exit

/-- R54, R55, R153, R154, R176, R56, R215, R217: bpost, bhold and barg: phases, counts, waits and illegal barriers (`Barriers`, `GridBarrier`). -/
def Obligations.BarrierInstructions : Prop := Spec.Barriers ∧ Spec.GridBarrier

/-- R81, R150, R181, R178, R361, R195, R196, R230: wait, sleep, waitmon and waitge: when they complete, hold or block; a read of a
poisoned register raises its deferred fault (`Waits`, `Sleep`, `MemoryWaits`, `PoisonedOperands`). The model's own choices in
it: log 13, 22, 93. -/
def Obligations.WaitsAndSleep : Prop := Spec.Waits ∧ Spec.Sleep ∧ Spec.MemoryWaits ∧ Spec.PoisonedOperands

/-- R51, R66, R67, R70 to R72, R169, R68, R69, R79: Clause headers reconverge, start clauses or raise F_CLAUSE; unassigned words
raise their fault (`ClauseStart`, `UnassignedWords`). The model's own choices in it: log 13. -/
def Obligations.ClausesAndUnassignedWords : Prop := Spec.ClauseStart ∧ Spec.UnassignedWords

/-- R179, R180, R183, R186, R89, R185, R76: Loads and stores at issue: in flight with their addresses, held, or the earliest fault, nothing else changed (`GlobalAccessIssue`, `ScratchAccessIssue`, `AccessFaults`). -/
def Obligations.MemoryAccess : Prop := Spec.GlobalAccessIssue ∧ Spec.ScratchAccessIssue ∧ Spec.AccessFaults

/-- R91, R192, R217, R220, R223, R224, R193, R216, R194: Fences, promoted fences, cctl and prefetch: what they drain, drop, clean
and bring in (`Fences`, `CacheControl`, `Prefetch`). The model's own choices in it: log 20, 21, 91, 92, 107, 126. -/
def Obligations.FencesAndCacheControl : Prop := Spec.Fences ∧ Spec.CacheControl ∧ Spec.Prefetch

/-- R93, R112, R113, R175, R176: getsr and setsr of every system register, and F_ILLEGAL for the others (`ReadSystemRegisters`, `WriteSystemRegisters`). -/
def Obligations.SystemRegisters : Prop := Spec.ReadSystemRegisters ∧ Spec.WriteSystemRegisters

/-- R357, R358: trap saves and enters the handler; eret restores; what each refuses (`TrapEntry`, `TrapReturn`). The model's own
choices in it: log 15, 97. -/
def Obligations.Traps : Prop := Spec.TrapEntry ∧ Spec.TrapReturn

/-- R82, R151, R152: rep issues the next word with stepped fields and counts REPCNT (`Repeat`, `RepeatSteps`). The model's own
choices in it: log 52. -/
def Obligations.RepeatedWords : Prop := Spec.Repeat ∧ Spec.RepeatSteps

/-- R130, R131, R133, R123, R132, R245, R246, R250, R251, R255, R254 to R256, R259, R271 to R275, R262 to R264, R267: What rot,
irot, acc.ld, acc.st, the matrix products, the row operations and the layer operations compute (`RotatedBlocks`,
`NarrowedGroups`, `RotationResults`, `TileTransferResults`, `IntegerProduct`, `MatrixSums`, `RowResults`, `LayerResults`). The
model's own choices in it: log 39, 40, 98, 117, 120, 122. -/
def Obligations.MatrixProduct : Prop := Spec.RotatedBlocks ∧ Spec.NarrowedGroups ∧ Spec.RotationResults ∧ Spec.TileTransferResults ∧ Spec.IntegerProduct ∧ Spec.MatrixSums ∧ Spec.RowResults ∧ Spec.LayerResults

/-- R304, R308, R310 to R312, R314, R298 to R302, R305: Near-bank program loads, command blocks, rows, yields and marks; what each
micro-operation does (`NearBankProgress`, `MicroOperations`). The model's own choices in it: log 46, 49, 50, 51. -/
def Obligations.NearBankEvents : Prop := Spec.NearBankProgress ∧ Spec.MicroOperations

/-- R200 to R202, R180, R204, R230, R239, R349, R383, R138, R176, R201, R202: tmld, tmset and sgset; the checks of a parameter
block; which values a warp sees of what others wrote (`MapInstructions`, `BlockFaults`, `Views`). The model's own choices in
it: log 15, 90. -/
def Obligations.MapsAndBlocks : Prop := Spec.MapInstructions ∧ Spec.BlockFaults ∧ Spec.Views

/-- R203 to R205, R208: cpy and cpym at issue (`CopyIssue`, `MulticastIssue`). The model's own choices in it: log 29, 99, 100,
118. -/
def Obligations.CopyInstructions : Prop := Spec.CopyIssue ∧ Spec.MulticastIssue

/-- R239 to R247, R248 to R251, R249: rot, irot, acc.ld, acc.st and acc.zero at issue (`RotationIssue`, `TileTransferIssue`,
`TileZero`). The model's own choices in it: log 34, 101. -/
def Obligations.TileInstructions : Prop := Spec.RotationIssue ∧ Spec.TileTransferIssue ∧ Spec.TileZero

/-- R269 to R275, R176, R266, R268, R304, R306, R307, R314, R315: Row, activation-stack and near-bank instructions at issue, mark
and pimwait (`RowIssue`, `StackCopyIssue`, `NearBankIssue`). The model's own choices in it: log 29, 90. -/
def Obligations.ArrayAndStackInstructions : Prop := Spec.RowIssue ∧ Spec.StackCopyIssue ∧ Spec.NearBankIssue

/-- R344, R345, R347, R366, R371, R372, R376, R365, R367, R368, R384: OPEN, ATTEST, RELEASE, WRITE, READ, KICK, CLOSE, and what
the port does with other frames (`SessionMessages`, `PortRules`). The model's own choices in it: log 10, 76, 77, 78, 79, 84,
102. -/
def Obligations.HostMessages : Prop := Spec.SessionMessages ∧ Spec.PortRules

/-- R317, R318, R332, R365, R366, R327, R360: World life, roots, credentials and address, and TLB invalidation (`WorldCommands`,
`TranslationCommands`). The model's own choices in it: log 70, 72, 73, 74, 79. -/
def Obligations.WorldsAndTranslation : Prop := Spec.WorldCommands ∧ Spec.TranslationCommands

/-- R42, R57, R59, R60, R210, R311, R328, R359, R364, R367, R378, R331, R340, R341, R343, R375, R377: REG_WRITE, REG_READ, and the
reports: receipts, checkpoints, occupancy, logs (`RegisterCommands`, `Reports`). The model's own choices in it: log 73, 75,
81, 102. -/
def Obligations.RegistersAndReports : Prop := Spec.RegisterCommands ∧ Spec.Reports

/-- R294, R374 to R376, R381, R378 to R380: Module reset and boot, power loss, and the control of power (`BootAndPowerLoss`,
`PowerControl`). The model's own choices in it: log 4, 5, 6, 7, 69, 80, 82, 111. -/
def Obligations.BootAndPower : Prop := Spec.BootAndPowerLoss ∧ Spec.PowerControl
end

