-- ==== Sys2Proof/Laws/Store.lean ====
section
/-! SUPPORT. Laws of the sparse stores: reading after writing, and that every operation keeps the canonical form. -/

namespace Sys2Proof.Machine

variable {α : Type}

/-! ### Reading after writing -/

theorem KMap.find_erase_self (m : KMap α) (k : Nat) : KMap.find (KMap.erase m k) k = none := by
  induction m with
  | nil => rfl
  | cons e r ih =>
    obtain ⟨j, v⟩ := e
    by_cases h : j = k <;> simp [KMap.erase, KMap.find, h, ih]

theorem KMap.find_erase_other (m : KMap α) {k j : Nat} (h : j ≠ k) : KMap.find (KMap.erase m k) j = KMap.find m j := by
  induction m with
  | nil => rfl
  | cons e r ih =>
    obtain ⟨i, v⟩ := e
    by_cases h1 : i = k
    · subst h1
      simp [KMap.erase, KMap.find, ih, Ne.symm h]
    · rw [KMap.erase, if_neg h1]
      by_cases h2 : i = j <;> simp [KMap.find, h2, ih]

theorem KMap.find_insert_self (m : KMap α) (k : Nat) (v : α) (h : KMap.find m k = none) :
    KMap.find (KMap.insertSorted k v m) k = some v := by
  induction m with
  | nil => simp [KMap.insertSorted, KMap.find]
  | cons e r ih =>
    obtain ⟨j, x⟩ := e
    by_cases hj : j = k
    · simp [KMap.find, hj] at h
    · simp only [KMap.find, hj, if_false] at h
      by_cases hk : k < j <;> simp [KMap.insertSorted, KMap.find, hk, hj, ih h]

theorem KMap.find_insert_other (m : KMap α) (k : Nat) (v : α) {j : Nat} (h : j ≠ k) :
    KMap.find (KMap.insertSorted k v m) j = KMap.find m j := by
  induction m with
  | nil => simp [KMap.insertSorted, KMap.find, Ne.symm h]
  | cons e r ih =>
    obtain ⟨i, x⟩ := e
    by_cases hk : k < i
    · simp [KMap.insertSorted, KMap.find, hk, Ne.symm h]
    · rw [KMap.insertSorted, if_neg hk]
      by_cases hi : i = j <;> simp [KMap.find, hi, ih]

@[simp] theorem KMap.find_put_self (m : KMap α) (k : Nat) (v : α) : KMap.find (KMap.put m k v) k = some v :=
  KMap.find_insert_self _ k v (KMap.find_erase_self m k)

theorem KMap.find_put_other (m : KMap α) (k : Nat) (v : α) {j : Nat} (h : j ≠ k) :
    KMap.find (KMap.put m k v) j = KMap.find m j := by
  rw [KMap.put, KMap.find_insert_other _ k v h, KMap.find_erase_other m h]

@[simp] theorem Sparse.get_nil (d : α) (k : Nat) : Sparse.get d [] k = d := rfl

@[simp] theorem Sparse.get_set_self [DecidableEq α] (d : α) (m : Sparse α) (k : Nat) (v : α) :
    Sparse.get d (Sparse.set d m k v) k = v := by
  unfold Sparse.get Sparse.set
  split
  · next h => simp [KMap.find_erase_self, h]
  · simp

theorem Sparse.get_set_other [DecidableEq α] (d : α) (m : Sparse α) (k : Nat) (v : α) {j : Nat} (h : j ≠ k) :
    Sparse.get d (Sparse.set d m k v) j = Sparse.get d m j := by
  unfold Sparse.get Sparse.set
  split
  · rw [KMap.find_erase_other m h]
  · rw [KMap.find_put_other m k v h]

/-- Writing consecutive values leaves every key outside them alone. -/
theorem Sparse.get_setN_outside [DecidableEq α] (d : α) (l : List α) (m : Sparse α) (k j : Nat)
    (h : j < k ∨ k + l.length ≤ j) : Sparse.get d (Sparse.setN d m k l) j = Sparse.get d m j := by
  induction l generalizing m k with
  | nil => rfl
  | cons v r ih =>
    rw [Sparse.setN, ih _ _ (by simp at h ⊢; omega), Sparse.get_set_other]
    simp at h
    omega

/-- Reading back what was written at consecutive keys. -/
theorem Sparse.get_setN_inside [DecidableEq α] (d : α) (l : List α) (m : Sparse α) (k i : Nat) (h : i < l.length) :
    Sparse.get d (Sparse.setN d m k l) (k + i) = l[i] := by
  induction l generalizing m k i with
  | nil => simp at h
  | cons v r ih =>
    cases i with
    | zero =>
      rw [Sparse.setN, Sparse.get_setN_outside _ _ _ _ _ (by omega)]
      simp
    | succ n =>
      have := ih (Sparse.set d m k v) (k + 1) n (by simpa using h)
      rw [Sparse.setN, show k + (n + 1) = k + 1 + n by omega, this]
      rfl

/-! ### The canonical form -/

theorem KMap.mem_erase {m : KMap α} {k : Nat} {e : Nat × α} (h : e ∈ KMap.erase m k) : e ∈ m ∧ e.1 ≠ k := by
  induction m with
  | nil => simp [KMap.erase] at h
  | cons x r ih =>
    obtain ⟨j, v⟩ := x
    by_cases hj : j = k
    · simp only [KMap.erase, hj, if_true] at h
      exact ⟨List.mem_cons_of_mem _ (ih h).1, (ih h).2⟩
    · simp only [KMap.erase, hj, if_false, List.mem_cons] at h
      rcases h with rfl | h
      · exact ⟨List.mem_cons_self .., hj⟩
      · exact ⟨List.mem_cons_of_mem _ (ih h).1, (ih h).2⟩

theorem KMap.mem_insert {m : KMap α} {k : Nat} {v : α} {e : Nat × α} (h : e ∈ KMap.insertSorted k v m) :
    e = (k, v) ∨ e ∈ m := by
  induction m with
  | nil => simpa [KMap.insertSorted] using h
  | cons x r ih =>
    obtain ⟨j, y⟩ := x
    by_cases hk : k < j
    · simpa [KMap.insertSorted, hk] using h
    · simp only [KMap.insertSorted, hk, if_false, List.mem_cons] at h
      rcases h with rfl | h
      · exact .inr (List.mem_cons_self ..)
      · rcases ih h with h | h
        · exact .inl h
        · exact .inr (List.mem_cons_of_mem _ h)

theorem KMap.sorted_cons {j : Nat} {v : α} {r : KMap α} :
    KMap.sorted ((j, v) :: r) = true ↔ (∀ e ∈ r, j < e.1) ∧ KMap.sorted r = true := by
  simp [KMap.sorted]

theorem KMap.sorted_erase {m : KMap α} (k : Nat) (h : KMap.sorted m = true) : KMap.sorted (KMap.erase m k) = true := by
  induction m with
  | nil => rfl
  | cons x r ih =>
    obtain ⟨j, v⟩ := x
    rw [KMap.sorted_cons] at h
    by_cases hj : j = k
    · simpa [KMap.erase, hj] using ih h.2
    · simp only [KMap.erase, hj, if_false]
      exact KMap.sorted_cons.2 ⟨fun e he => h.1 e (KMap.mem_erase he).1, ih h.2⟩

theorem KMap.sorted_insert {m : KMap α} (k : Nat) (v : α) (h : KMap.sorted m = true) (hk : ∀ e ∈ m, e.1 ≠ k) :
    KMap.sorted (KMap.insertSorted k v m) = true := by
  induction m with
  | nil => simp [KMap.insertSorted, KMap.sorted]
  | cons x r ih =>
    obtain ⟨j, y⟩ := x
    have hs := KMap.sorted_cons.1 h
    have hj : j ≠ k := hk (j, y) (List.mem_cons_self ..)
    by_cases hlt : k < j
    · simp only [KMap.insertSorted, hlt, if_true]
      refine KMap.sorted_cons.2 ⟨fun e he => ?_, h⟩
      rcases List.mem_cons.1 he with rfl | he
      · exact hlt
      · exact Nat.lt_trans hlt (hs.1 e he)
    · simp only [KMap.insertSorted, hlt, if_false]
      refine KMap.sorted_cons.2 ⟨fun e he => ?_, ih hs.2 fun e he => hk e (List.mem_cons_of_mem _ he)⟩
      rcases KMap.mem_insert he with rfl | he
      · simp; omega
      · exact hs.1 e he

theorem KMap.sorted_put {m : KMap α} (k : Nat) (v : α) (h : KMap.sorted m = true) : KMap.sorted (KMap.put m k v) = true :=
  KMap.sorted_insert k v (KMap.sorted_erase k h) fun _ he => (KMap.mem_erase he).2

theorem Sparse.wf_iff [DecidableEq α] {d : α} {m : Sparse α} :
    Sparse.wf d m = true ↔ KMap.sorted m = true ∧ ∀ e ∈ m, e.2 ≠ d := by
  simp [Sparse.wf]

@[simp] theorem Sparse.wf_nil [DecidableEq α] (d : α) : Sparse.wf d ([] : Sparse α) = true := rfl

/-- A write keeps the canonical form. -/
theorem Sparse.wf_set [DecidableEq α] {d : α} {m : Sparse α} (k : Nat) (v : α) (h : Sparse.wf d m = true) :
    Sparse.wf d (Sparse.set d m k v) = true := by
  rw [Sparse.wf_iff] at h ⊢
  unfold Sparse.set
  split
  · exact ⟨KMap.sorted_erase k h.1, fun e he => h.2 e (KMap.mem_erase he).1⟩
  · next hv =>
    refine ⟨KMap.sorted_put k v h.1, fun e he => ?_⟩
    rcases KMap.mem_insert he with rfl | he
    · exact hv
    · exact h.2 e (KMap.mem_erase he).1

/-- Writing a list keeps the canonical form. -/
theorem Sparse.wf_setN [DecidableEq α] {d : α} (l : List α) {m : Sparse α} (k : Nat) (h : Sparse.wf d m = true) :
    Sparse.wf d (Sparse.setN d m k l) = true := by
  induction l generalizing m k with
  | nil => exact h
  | cons v r ih => exact ih (k + 1) (Sparse.wf_set k v h)

theorem KMap.sorted_filter {m : KMap α} (p : Nat × α → Bool) (h : KMap.sorted m = true) :
    KMap.sorted (m.filter p) = true := by
  induction m with
  | nil => rfl
  | cons x r ih =>
    obtain ⟨j, v⟩ := x
    have hs := KMap.sorted_cons.1 h
    by_cases hp : p (j, v) = true
    · rw [List.filter_cons_of_pos hp]
      exact KMap.sorted_cons.2 ⟨fun e he => hs.1 e (List.mem_of_mem_filter he), ih hs.2⟩
    · rw [List.filter_cons_of_neg hp]
      exact ih hs.2

/-- Dropping entries keeps the canonical form. -/
theorem Sparse.wf_filter [DecidableEq α] {d : α} {m : Sparse α} (p : Nat × α → Bool) (h : Sparse.wf d m = true) :
    Sparse.wf d (m.filter p) = true := by
  rw [Sparse.wf_iff] at h ⊢
  exact ⟨KMap.sorted_filter p h.1, fun e he => h.2 e (List.mem_of_mem_filter he)⟩

/-! ### Bytes and numbers -/

@[simp] theorem leBytes_length (n v : Nat) : (leBytes n v).length = n := by
  induction n generalizing v with
  | zero => rfl
  | succ n ih => simp [leBytes, ih]

/-- Bytes of a number read back. -/
theorem leVal_leBytes (n v : Nat) : leVal (leBytes n v) = v % 256 ^ n := by
  induction n generalizing v with
  | zero => simp [leBytes, leVal, Nat.mod_one]
  | succ n ih =>
    have h1 : v % 256 % 2 ^ 8 = v % 256 := by omega
    rw [leBytes, leVal, ih, BitVec.toNat_ofNat, h1, Nat.pow_succ, Nat.mul_comm (256 ^ n) 256, Nat.mod_mul]

@[simp] theorem Sparse.getN_length (d : α) (m : Sparse α) (k n : Nat) : (Sparse.getN d m k n).length = n := by
  induction n generalizing k with
  | zero => rfl
  | succ n ih => simp [Sparse.getN, ih]

end Sys2Proof.Machine
end

