-- ==== Sys2Proof/Laws/Hash.lean ====
section
/-! SUPPORT. A SHA3-256 digest is 32 bytes. -/

namespace Sys2Proof.Machine

theorem keccakRound_length (a : List DWord) (rc : DWord) : (keccakRound a rc).length = 25 := rfl

theorem keccakF_length (a : List DWord) (h : a.length = 25) : (keccakF a).length = 25 := by
  have step : ∀ (l : List DWord) (b : List DWord), b.length = 25 → (l.foldl keccakRound b).length = 25 := by
    intro l
    induction l with
    | nil => exact fun b hb => hb
    | cons c r ih => exact fun b _ => ih _ (keccakRound_length b c)
  exact step _ _ h

theorem absorb_length (a : List DWord) (blk : List Byte) (h : a.length = 25) : (absorb a blk).length = 25 :=
  keccakF_length _ (by simp [h])

@[simp] theorem sha3_length (m : List Byte) : (sha3 m).length = 32 := by
  have step : ∀ (l : List (List Byte)) (b : List DWord), b.length = 25 → (l.foldl absorb b).length = 25 := by
    intro l
    induction l with
    | nil => exact fun b hb => hb
    | cons c r ih => exact fun b hb => ih _ (absorb_length b c hb)
  have h := step (pieces 136 ((sha3Pad m).length / 136) (sha3Pad m)) (List.replicate 25 0) rfl
  have flat : ∀ l : List DWord, (l.flatMap fun x => leBytes 8 x.toNat).length = 8 * l.length := by
    intro l
    induction l with
    | nil => rfl
    | cons x r ih => simp only [List.flatMap_cons, List.length_append, leBytes_length, ih, List.length_cons]; omega
  simp only [sha3, flat, List.length_take, h]
  rfl

end Sys2Proof.Machine
end

