-- ==== Sys2Proof/Laws/State.lean ====
section
/-! SUPPORT. One lemma for each field and each named update of the state, of a team and of a warp. -/

namespace Sys2Proof.Machine

@[simp] theorem State.setWorld_mem (s : State) (w : Nat) (x : World) : (s.setWorld w x).mem = s.mem := rfl
@[simp] theorem State.setWorld_lines (s : State) (w : Nat) (x : World) : (s.setWorld w x).lines = s.lines := rfl
@[simp] theorem State.setWorld_cellFaults (s : State) (w : Nat) (x : World) : (s.setWorld w x).cellFaults = s.cellFaults := rfl
@[simp] theorem State.setWorld_badPackets (s : State) (w : Nat) (x : World) : (s.setWorld w x).badPackets = s.badPackets := rfl
@[simp] theorem State.setWorld_nonces (s : State) (w : Nat) (x : World) : (s.setWorld w x).nonces = s.nonces := rfl
@[simp] theorem State.setWorld_pot (s : State) (w : Nat) (x : World) : (s.setWorld w x).pot = s.pot := rfl
@[simp] theorem State.setWorld_gathers (s : State) (w : Nat) (x : World) : (s.setWorld w x).gathers = s.gathers := rfl
@[simp] theorem State.setWorld_oldCode (s : State) (w : Nat) (x : World) : (s.setWorld w x).oldCode = s.oldCode := rfl
@[simp] theorem State.setWorld_l1 (s : State) (w : Nat) (x : World) : (s.setWorld w x).l1 = s.l1 := rfl
@[simp] theorem State.setWorld_l2 (s : State) (w : Nat) (x : World) : (s.setWorld w x).l2 = s.l2 := rfl
@[simp] theorem State.setWorld_llc (s : State) (w : Nat) (x : World) : (s.setWorld w x).llc = s.llc := rfl
@[simp] theorem State.setWorld_dir (s : State) (w : Nat) (x : World) : (s.setWorld w x).dir = s.dir := rfl
@[simp] theorem State.setWorld_coh (s : State) (w : Nat) (x : World) : (s.setWorld w x).coh = s.coh := rfl
@[simp] theorem State.setWorld_drains (s : State) (w : Nat) (x : World) : (s.setWorld w x).drains = s.drains := rfl
@[simp] theorem State.setWorld_tlb (s : State) (w : Nat) (x : World) : (s.setWorld w x).tlb = s.tlb := rfl
@[simp] theorem State.setWorld_cores (s : State) (w : Nat) (x : World) : (s.setWorld w x).cores = s.cores := rfl
@[simp] theorem State.setWorld_teams (s : State) (w : Nat) (x : World) : (s.setWorld w x).teams = s.teams := rfl
@[simp] theorem State.setWorld_launches (s : State) (w : Nat) (x : World) : (s.setWorld w x).launches = s.launches := rfl
@[simp] theorem State.setWorld_ops (s : State) (w : Nat) (x : World) : (s.setWorld w x).ops = s.ops := rfl
@[simp] theorem State.setWorld_worlds (s : State) (w : Nat) (x : World) : (s.setWorld w x).worlds = KMap.put s.worlds w x := rfl
@[simp] theorem State.setWorld_accounts (s : State) (w : Nat) (x : World) : (s.setWorld w x).accounts = s.accounts := rfl
@[simp] theorem State.setWorld_copyTurn (s : State) (w : Nat) (x : World) : (s.setWorld w x).copyTurn = s.copyTurn := rfl
@[simp] theorem State.setWorld_sources (s : State) (w : Nat) (x : World) : (s.setWorld w x).sources = s.sources := rfl
@[simp] theorem State.setWorld_sessions (s : State) (w : Nat) (x : World) : (s.setWorld w x).sessions = s.sessions := rfl
@[simp] theorem State.setWorld_sent (s : State) (w : Nat) (x : World) : (s.setWorld w x).sent = s.sent := rfl
@[simp] theorem State.setWorld_adverts (s : State) (w : Nat) (x : World) : (s.setWorld w x).adverts = s.adverts := rfl
@[simp] theorem State.setWorld_evFrame (s : State) (w : Nat) (x : World) : (s.setWorld w x).evFrame = s.evFrame := rfl
@[simp] theorem State.setWorld_regions (s : State) (w : Nat) (x : World) : (s.setWorld w x).regions = s.regions := rfl
@[simp] theorem State.setWorld_ads (s : State) (w : Nat) (x : World) : (s.setWorld w x).ads = s.ads := rfl
@[simp] theorem State.setWorld_banks (s : State) (w : Nat) (x : World) : (s.setWorld w x).banks = s.banks := rfl
@[simp] theorem State.setWorld_dispctl (s : State) (w : Nat) (x : World) : (s.setWorld w x).dispctl = s.dispctl := rfl
@[simp] theorem State.setWorld_boostctl (s : State) (w : Nat) (x : World) : (s.setWorld w x).boostctl = s.boostctl := rfl
@[simp] theorem State.setWorld_pimctl (s : State) (w : Nat) (x : World) : (s.setWorld w x).pimctl = s.pimctl := rfl
@[simp] theorem State.setWorld_preemptctl (s : State) (w : Nat) (x : World) : (s.setWorld w x).preemptctl = s.preemptctl := rfl
@[simp] theorem State.setWorld_powerctl (s : State) (w : Nat) (x : World) : (s.setWorld w x).powerctl = s.powerctl := rfl
@[simp] theorem State.setWorld_layoutGen (s : State) (w : Nat) (x : World) : (s.setWorld w x).layoutGen = s.layoutGen := rfl
@[simp] theorem State.setWorld_power (s : State) (w : Nat) (x : World) : (s.setWorld w x).power = s.power := rfl
@[simp] theorem State.setWorld_soft (s : State) (w : Nat) (x : World) : (s.setWorld w x).soft = s.soft := rfl
@[simp] theorem State.setWorld_health (s : State) (w : Nat) (x : World) : (s.setWorld w x).health = s.health := rfl
@[simp] theorem State.setWorld_address (s : State) (w : Nat) (x : World) : (s.setWorld w x).address = s.address := rfl
@[simp] theorem State.setWorld_validAddrs (s : State) (w : Nat) (x : World) : (s.setWorld w x).validAddrs = s.validAddrs := rfl
@[simp] theorem State.setWorld_measLog (s : State) (w : Nat) (x : World) : (s.setWorld w x).measLog = s.measLog := rfl
@[simp] theorem State.setWorld_boot (s : State) (w : Nat) (x : World) : (s.setWorld w x).boot = s.boot := rfl
@[simp] theorem State.setWorld_boots (s : State) (w : Nat) (x : World) : (s.setWorld w x).boots = s.boots := rfl
@[simp] theorem State.setWorld_ticket (s : State) (w : Nat) (x : World) : (s.setWorld w x).ticket = s.ticket := rfl
@[simp] theorem State.setWorld_hubTime (s : State) (w : Nat) (x : World) : (s.setWorld w x).hubTime = s.hubTime := rfl
@[simp] theorem State.setWorld_nextUid (s : State) (w : Nat) (x : World) : (s.setWorld w x).nextUid = s.nextUid := rfl
@[simp] theorem State.setWorld_cur (s : State) (w : Nat) (x : World) : (s.setWorld w x).cur = s.cur := rfl
@[simp] theorem State.setWorld_held (s : State) (w : Nat) (x : World) : (s.setWorld w x).held = s.held := rfl
@[simp] theorem State.setWorld_schedule (s : State) (w : Nat) (x : World) : (s.setWorld w x).schedule = s.schedule := rfl
@[simp] theorem State.setWorld_fresh (s : State) (w : Nat) (x : World) : (s.setWorld w x).fresh = s.fresh := rfl

@[simp] theorem State.setPot_mem (s : State) (page : Nat) (e : BitVec 16) : (s.setPot page e).mem = s.mem := rfl
@[simp] theorem State.setPot_lines (s : State) (page : Nat) (e : BitVec 16) : (s.setPot page e).lines = s.lines := rfl
@[simp] theorem State.setPot_cellFaults (s : State) (page : Nat) (e : BitVec 16) : (s.setPot page e).cellFaults = s.cellFaults := rfl
@[simp] theorem State.setPot_badPackets (s : State) (page : Nat) (e : BitVec 16) : (s.setPot page e).badPackets = s.badPackets := rfl
@[simp] theorem State.setPot_nonces (s : State) (page : Nat) (e : BitVec 16) : (s.setPot page e).nonces = s.nonces := rfl
@[simp] theorem State.setPot_pot (s : State) (page : Nat) (e : BitVec 16) : (s.setPot page e).pot = Sparse.set 0 s.pot page e := rfl
@[simp] theorem State.setPot_gathers (s : State) (page : Nat) (e : BitVec 16) : (s.setPot page e).gathers = s.gathers := rfl
@[simp] theorem State.setPot_oldCode (s : State) (page : Nat) (e : BitVec 16) : (s.setPot page e).oldCode = s.oldCode := rfl
@[simp] theorem State.setPot_l1 (s : State) (page : Nat) (e : BitVec 16) : (s.setPot page e).l1 = s.l1 := rfl
@[simp] theorem State.setPot_l2 (s : State) (page : Nat) (e : BitVec 16) : (s.setPot page e).l2 = s.l2 := rfl
@[simp] theorem State.setPot_llc (s : State) (page : Nat) (e : BitVec 16) : (s.setPot page e).llc = s.llc := rfl
@[simp] theorem State.setPot_dir (s : State) (page : Nat) (e : BitVec 16) : (s.setPot page e).dir = s.dir := rfl
@[simp] theorem State.setPot_coh (s : State) (page : Nat) (e : BitVec 16) : (s.setPot page e).coh = s.coh := rfl
@[simp] theorem State.setPot_drains (s : State) (page : Nat) (e : BitVec 16) : (s.setPot page e).drains = s.drains := rfl
@[simp] theorem State.setPot_tlb (s : State) (page : Nat) (e : BitVec 16) : (s.setPot page e).tlb = s.tlb := rfl
@[simp] theorem State.setPot_cores (s : State) (page : Nat) (e : BitVec 16) : (s.setPot page e).cores = s.cores := rfl
@[simp] theorem State.setPot_teams (s : State) (page : Nat) (e : BitVec 16) : (s.setPot page e).teams = s.teams := rfl
@[simp] theorem State.setPot_launches (s : State) (page : Nat) (e : BitVec 16) : (s.setPot page e).launches = s.launches := rfl
@[simp] theorem State.setPot_ops (s : State) (page : Nat) (e : BitVec 16) : (s.setPot page e).ops = s.ops := rfl
@[simp] theorem State.setPot_worlds (s : State) (page : Nat) (e : BitVec 16) : (s.setPot page e).worlds = s.worlds := rfl
@[simp] theorem State.setPot_accounts (s : State) (page : Nat) (e : BitVec 16) : (s.setPot page e).accounts = s.accounts := rfl
@[simp] theorem State.setPot_copyTurn (s : State) (page : Nat) (e : BitVec 16) : (s.setPot page e).copyTurn = s.copyTurn := rfl
@[simp] theorem State.setPot_sources (s : State) (page : Nat) (e : BitVec 16) : (s.setPot page e).sources = s.sources := rfl
@[simp] theorem State.setPot_sessions (s : State) (page : Nat) (e : BitVec 16) : (s.setPot page e).sessions = s.sessions := rfl
@[simp] theorem State.setPot_sent (s : State) (page : Nat) (e : BitVec 16) : (s.setPot page e).sent = s.sent := rfl
@[simp] theorem State.setPot_adverts (s : State) (page : Nat) (e : BitVec 16) : (s.setPot page e).adverts = s.adverts := rfl
@[simp] theorem State.setPot_evFrame (s : State) (page : Nat) (e : BitVec 16) : (s.setPot page e).evFrame = s.evFrame := rfl
@[simp] theorem State.setPot_regions (s : State) (page : Nat) (e : BitVec 16) : (s.setPot page e).regions = s.regions := rfl
@[simp] theorem State.setPot_ads (s : State) (page : Nat) (e : BitVec 16) : (s.setPot page e).ads = s.ads := rfl
@[simp] theorem State.setPot_banks (s : State) (page : Nat) (e : BitVec 16) : (s.setPot page e).banks = s.banks := rfl
@[simp] theorem State.setPot_dispctl (s : State) (page : Nat) (e : BitVec 16) : (s.setPot page e).dispctl = s.dispctl := rfl
@[simp] theorem State.setPot_boostctl (s : State) (page : Nat) (e : BitVec 16) : (s.setPot page e).boostctl = s.boostctl := rfl
@[simp] theorem State.setPot_pimctl (s : State) (page : Nat) (e : BitVec 16) : (s.setPot page e).pimctl = s.pimctl := rfl
@[simp] theorem State.setPot_preemptctl (s : State) (page : Nat) (e : BitVec 16) : (s.setPot page e).preemptctl = s.preemptctl := rfl
@[simp] theorem State.setPot_powerctl (s : State) (page : Nat) (e : BitVec 16) : (s.setPot page e).powerctl = s.powerctl := rfl
@[simp] theorem State.setPot_layoutGen (s : State) (page : Nat) (e : BitVec 16) : (s.setPot page e).layoutGen = s.layoutGen := rfl
@[simp] theorem State.setPot_power (s : State) (page : Nat) (e : BitVec 16) : (s.setPot page e).power = s.power := rfl
@[simp] theorem State.setPot_soft (s : State) (page : Nat) (e : BitVec 16) : (s.setPot page e).soft = s.soft := rfl
@[simp] theorem State.setPot_health (s : State) (page : Nat) (e : BitVec 16) : (s.setPot page e).health = s.health := rfl
@[simp] theorem State.setPot_address (s : State) (page : Nat) (e : BitVec 16) : (s.setPot page e).address = s.address := rfl
@[simp] theorem State.setPot_validAddrs (s : State) (page : Nat) (e : BitVec 16) : (s.setPot page e).validAddrs = s.validAddrs := rfl
@[simp] theorem State.setPot_measLog (s : State) (page : Nat) (e : BitVec 16) : (s.setPot page e).measLog = s.measLog := rfl
@[simp] theorem State.setPot_boot (s : State) (page : Nat) (e : BitVec 16) : (s.setPot page e).boot = s.boot := rfl
@[simp] theorem State.setPot_boots (s : State) (page : Nat) (e : BitVec 16) : (s.setPot page e).boots = s.boots := rfl
@[simp] theorem State.setPot_ticket (s : State) (page : Nat) (e : BitVec 16) : (s.setPot page e).ticket = s.ticket := rfl
@[simp] theorem State.setPot_hubTime (s : State) (page : Nat) (e : BitVec 16) : (s.setPot page e).hubTime = s.hubTime := rfl
@[simp] theorem State.setPot_nextUid (s : State) (page : Nat) (e : BitVec 16) : (s.setPot page e).nextUid = s.nextUid := rfl
@[simp] theorem State.setPot_cur (s : State) (page : Nat) (e : BitVec 16) : (s.setPot page e).cur = s.cur := rfl
@[simp] theorem State.setPot_held (s : State) (page : Nat) (e : BitVec 16) : (s.setPot page e).held = s.held := rfl
@[simp] theorem State.setPot_schedule (s : State) (page : Nat) (e : BitVec 16) : (s.setPot page e).schedule = s.schedule := rfl
@[simp] theorem State.setPot_fresh (s : State) (page : Nat) (e : BitVec 16) : (s.setPot page e).fresh = s.fresh := rfl

@[simp] theorem State.updTeam_mem (s : State) (uid : Nat) (f : Team → Team) : (s.updTeam uid f).mem = s.mem := rfl
@[simp] theorem State.updTeam_lines (s : State) (uid : Nat) (f : Team → Team) : (s.updTeam uid f).lines = s.lines := rfl
@[simp] theorem State.updTeam_cellFaults (s : State) (uid : Nat) (f : Team → Team) : (s.updTeam uid f).cellFaults = s.cellFaults := rfl
@[simp] theorem State.updTeam_badPackets (s : State) (uid : Nat) (f : Team → Team) : (s.updTeam uid f).badPackets = s.badPackets := rfl
@[simp] theorem State.updTeam_nonces (s : State) (uid : Nat) (f : Team → Team) : (s.updTeam uid f).nonces = s.nonces := rfl
@[simp] theorem State.updTeam_pot (s : State) (uid : Nat) (f : Team → Team) : (s.updTeam uid f).pot = s.pot := rfl
@[simp] theorem State.updTeam_gathers (s : State) (uid : Nat) (f : Team → Team) : (s.updTeam uid f).gathers = s.gathers := rfl
@[simp] theorem State.updTeam_oldCode (s : State) (uid : Nat) (f : Team → Team) : (s.updTeam uid f).oldCode = s.oldCode := rfl
@[simp] theorem State.updTeam_l1 (s : State) (uid : Nat) (f : Team → Team) : (s.updTeam uid f).l1 = s.l1 := rfl
@[simp] theorem State.updTeam_l2 (s : State) (uid : Nat) (f : Team → Team) : (s.updTeam uid f).l2 = s.l2 := rfl
@[simp] theorem State.updTeam_llc (s : State) (uid : Nat) (f : Team → Team) : (s.updTeam uid f).llc = s.llc := rfl
@[simp] theorem State.updTeam_dir (s : State) (uid : Nat) (f : Team → Team) : (s.updTeam uid f).dir = s.dir := rfl
@[simp] theorem State.updTeam_coh (s : State) (uid : Nat) (f : Team → Team) : (s.updTeam uid f).coh = s.coh := rfl
@[simp] theorem State.updTeam_drains (s : State) (uid : Nat) (f : Team → Team) : (s.updTeam uid f).drains = s.drains := rfl
@[simp] theorem State.updTeam_tlb (s : State) (uid : Nat) (f : Team → Team) : (s.updTeam uid f).tlb = s.tlb := rfl
@[simp] theorem State.updTeam_cores (s : State) (uid : Nat) (f : Team → Team) : (s.updTeam uid f).cores = s.cores := rfl
@[simp] theorem State.updTeam_teams (s : State) (uid : Nat) (f : Team → Team) : (s.updTeam uid f).teams = s.teams.map fun x => if x.uid = uid then f x else x := rfl
@[simp] theorem State.updTeam_launches (s : State) (uid : Nat) (f : Team → Team) : (s.updTeam uid f).launches = s.launches := rfl
@[simp] theorem State.updTeam_ops (s : State) (uid : Nat) (f : Team → Team) : (s.updTeam uid f).ops = s.ops := rfl
@[simp] theorem State.updTeam_worlds (s : State) (uid : Nat) (f : Team → Team) : (s.updTeam uid f).worlds = s.worlds := rfl
@[simp] theorem State.updTeam_accounts (s : State) (uid : Nat) (f : Team → Team) : (s.updTeam uid f).accounts = s.accounts := rfl
@[simp] theorem State.updTeam_copyTurn (s : State) (uid : Nat) (f : Team → Team) : (s.updTeam uid f).copyTurn = s.copyTurn := rfl
@[simp] theorem State.updTeam_sources (s : State) (uid : Nat) (f : Team → Team) : (s.updTeam uid f).sources = s.sources := rfl
@[simp] theorem State.updTeam_sessions (s : State) (uid : Nat) (f : Team → Team) : (s.updTeam uid f).sessions = s.sessions := rfl
@[simp] theorem State.updTeam_sent (s : State) (uid : Nat) (f : Team → Team) : (s.updTeam uid f).sent = s.sent := rfl
@[simp] theorem State.updTeam_adverts (s : State) (uid : Nat) (f : Team → Team) : (s.updTeam uid f).adverts = s.adverts := rfl
@[simp] theorem State.updTeam_evFrame (s : State) (uid : Nat) (f : Team → Team) : (s.updTeam uid f).evFrame = s.evFrame := rfl
@[simp] theorem State.updTeam_regions (s : State) (uid : Nat) (f : Team → Team) : (s.updTeam uid f).regions = s.regions := rfl
@[simp] theorem State.updTeam_ads (s : State) (uid : Nat) (f : Team → Team) : (s.updTeam uid f).ads = s.ads := rfl
@[simp] theorem State.updTeam_banks (s : State) (uid : Nat) (f : Team → Team) : (s.updTeam uid f).banks = s.banks := rfl
@[simp] theorem State.updTeam_dispctl (s : State) (uid : Nat) (f : Team → Team) : (s.updTeam uid f).dispctl = s.dispctl := rfl
@[simp] theorem State.updTeam_boostctl (s : State) (uid : Nat) (f : Team → Team) : (s.updTeam uid f).boostctl = s.boostctl := rfl
@[simp] theorem State.updTeam_pimctl (s : State) (uid : Nat) (f : Team → Team) : (s.updTeam uid f).pimctl = s.pimctl := rfl
@[simp] theorem State.updTeam_preemptctl (s : State) (uid : Nat) (f : Team → Team) : (s.updTeam uid f).preemptctl = s.preemptctl := rfl
@[simp] theorem State.updTeam_powerctl (s : State) (uid : Nat) (f : Team → Team) : (s.updTeam uid f).powerctl = s.powerctl := rfl
@[simp] theorem State.updTeam_layoutGen (s : State) (uid : Nat) (f : Team → Team) : (s.updTeam uid f).layoutGen = s.layoutGen := rfl
@[simp] theorem State.updTeam_power (s : State) (uid : Nat) (f : Team → Team) : (s.updTeam uid f).power = s.power := rfl
@[simp] theorem State.updTeam_soft (s : State) (uid : Nat) (f : Team → Team) : (s.updTeam uid f).soft = s.soft := rfl
@[simp] theorem State.updTeam_health (s : State) (uid : Nat) (f : Team → Team) : (s.updTeam uid f).health = s.health := rfl
@[simp] theorem State.updTeam_address (s : State) (uid : Nat) (f : Team → Team) : (s.updTeam uid f).address = s.address := rfl
@[simp] theorem State.updTeam_validAddrs (s : State) (uid : Nat) (f : Team → Team) : (s.updTeam uid f).validAddrs = s.validAddrs := rfl
@[simp] theorem State.updTeam_measLog (s : State) (uid : Nat) (f : Team → Team) : (s.updTeam uid f).measLog = s.measLog := rfl
@[simp] theorem State.updTeam_boot (s : State) (uid : Nat) (f : Team → Team) : (s.updTeam uid f).boot = s.boot := rfl
@[simp] theorem State.updTeam_boots (s : State) (uid : Nat) (f : Team → Team) : (s.updTeam uid f).boots = s.boots := rfl
@[simp] theorem State.updTeam_ticket (s : State) (uid : Nat) (f : Team → Team) : (s.updTeam uid f).ticket = s.ticket := rfl
@[simp] theorem State.updTeam_hubTime (s : State) (uid : Nat) (f : Team → Team) : (s.updTeam uid f).hubTime = s.hubTime := rfl
@[simp] theorem State.updTeam_nextUid (s : State) (uid : Nat) (f : Team → Team) : (s.updTeam uid f).nextUid = s.nextUid := rfl
@[simp] theorem State.updTeam_cur (s : State) (uid : Nat) (f : Team → Team) : (s.updTeam uid f).cur = s.cur := rfl
@[simp] theorem State.updTeam_held (s : State) (uid : Nat) (f : Team → Team) : (s.updTeam uid f).held = s.held := rfl
@[simp] theorem State.updTeam_schedule (s : State) (uid : Nat) (f : Team → Team) : (s.updTeam uid f).schedule = s.schedule := rfl
@[simp] theorem State.updTeam_fresh (s : State) (uid : Nat) (f : Team → Team) : (s.updTeam uid f).fresh = s.fresh := rfl

@[simp] theorem State.updWarp_mem (s : State) (uid : Nat) (j : Nat) (f : Warp → Warp) : (s.updWarp uid j f).mem = s.mem := rfl
@[simp] theorem State.updWarp_lines (s : State) (uid : Nat) (j : Nat) (f : Warp → Warp) : (s.updWarp uid j f).lines = s.lines := rfl
@[simp] theorem State.updWarp_cellFaults (s : State) (uid : Nat) (j : Nat) (f : Warp → Warp) : (s.updWarp uid j f).cellFaults = s.cellFaults := rfl
@[simp] theorem State.updWarp_badPackets (s : State) (uid : Nat) (j : Nat) (f : Warp → Warp) : (s.updWarp uid j f).badPackets = s.badPackets := rfl
@[simp] theorem State.updWarp_nonces (s : State) (uid : Nat) (j : Nat) (f : Warp → Warp) : (s.updWarp uid j f).nonces = s.nonces := rfl
@[simp] theorem State.updWarp_pot (s : State) (uid : Nat) (j : Nat) (f : Warp → Warp) : (s.updWarp uid j f).pot = s.pot := rfl
@[simp] theorem State.updWarp_gathers (s : State) (uid : Nat) (j : Nat) (f : Warp → Warp) : (s.updWarp uid j f).gathers = s.gathers := rfl
@[simp] theorem State.updWarp_oldCode (s : State) (uid : Nat) (j : Nat) (f : Warp → Warp) : (s.updWarp uid j f).oldCode = s.oldCode := rfl
@[simp] theorem State.updWarp_l1 (s : State) (uid : Nat) (j : Nat) (f : Warp → Warp) : (s.updWarp uid j f).l1 = s.l1 := rfl
@[simp] theorem State.updWarp_l2 (s : State) (uid : Nat) (j : Nat) (f : Warp → Warp) : (s.updWarp uid j f).l2 = s.l2 := rfl
@[simp] theorem State.updWarp_llc (s : State) (uid : Nat) (j : Nat) (f : Warp → Warp) : (s.updWarp uid j f).llc = s.llc := rfl
@[simp] theorem State.updWarp_dir (s : State) (uid : Nat) (j : Nat) (f : Warp → Warp) : (s.updWarp uid j f).dir = s.dir := rfl
@[simp] theorem State.updWarp_coh (s : State) (uid : Nat) (j : Nat) (f : Warp → Warp) : (s.updWarp uid j f).coh = s.coh := rfl
@[simp] theorem State.updWarp_drains (s : State) (uid : Nat) (j : Nat) (f : Warp → Warp) : (s.updWarp uid j f).drains = s.drains := rfl
@[simp] theorem State.updWarp_tlb (s : State) (uid : Nat) (j : Nat) (f : Warp → Warp) : (s.updWarp uid j f).tlb = s.tlb := rfl
@[simp] theorem State.updWarp_cores (s : State) (uid : Nat) (j : Nat) (f : Warp → Warp) : (s.updWarp uid j f).cores = s.cores := rfl
@[simp] theorem State.updWarp_teams (s : State) (uid : Nat) (j : Nat) (f : Warp → Warp) : (s.updWarp uid j f).teams = s.teams.map fun x => if x.uid = uid then x.updWarp j f else x := rfl
@[simp] theorem State.updWarp_launches (s : State) (uid : Nat) (j : Nat) (f : Warp → Warp) : (s.updWarp uid j f).launches = s.launches := rfl
@[simp] theorem State.updWarp_ops (s : State) (uid : Nat) (j : Nat) (f : Warp → Warp) : (s.updWarp uid j f).ops = s.ops := rfl
@[simp] theorem State.updWarp_worlds (s : State) (uid : Nat) (j : Nat) (f : Warp → Warp) : (s.updWarp uid j f).worlds = s.worlds := rfl
@[simp] theorem State.updWarp_accounts (s : State) (uid : Nat) (j : Nat) (f : Warp → Warp) : (s.updWarp uid j f).accounts = s.accounts := rfl
@[simp] theorem State.updWarp_copyTurn (s : State) (uid : Nat) (j : Nat) (f : Warp → Warp) : (s.updWarp uid j f).copyTurn = s.copyTurn := rfl
@[simp] theorem State.updWarp_sources (s : State) (uid : Nat) (j : Nat) (f : Warp → Warp) : (s.updWarp uid j f).sources = s.sources := rfl
@[simp] theorem State.updWarp_sessions (s : State) (uid : Nat) (j : Nat) (f : Warp → Warp) : (s.updWarp uid j f).sessions = s.sessions := rfl
@[simp] theorem State.updWarp_sent (s : State) (uid : Nat) (j : Nat) (f : Warp → Warp) : (s.updWarp uid j f).sent = s.sent := rfl
@[simp] theorem State.updWarp_adverts (s : State) (uid : Nat) (j : Nat) (f : Warp → Warp) : (s.updWarp uid j f).adverts = s.adverts := rfl
@[simp] theorem State.updWarp_evFrame (s : State) (uid : Nat) (j : Nat) (f : Warp → Warp) : (s.updWarp uid j f).evFrame = s.evFrame := rfl
@[simp] theorem State.updWarp_regions (s : State) (uid : Nat) (j : Nat) (f : Warp → Warp) : (s.updWarp uid j f).regions = s.regions := rfl
@[simp] theorem State.updWarp_ads (s : State) (uid : Nat) (j : Nat) (f : Warp → Warp) : (s.updWarp uid j f).ads = s.ads := rfl
@[simp] theorem State.updWarp_banks (s : State) (uid : Nat) (j : Nat) (f : Warp → Warp) : (s.updWarp uid j f).banks = s.banks := rfl
@[simp] theorem State.updWarp_dispctl (s : State) (uid : Nat) (j : Nat) (f : Warp → Warp) : (s.updWarp uid j f).dispctl = s.dispctl := rfl
@[simp] theorem State.updWarp_boostctl (s : State) (uid : Nat) (j : Nat) (f : Warp → Warp) : (s.updWarp uid j f).boostctl = s.boostctl := rfl
@[simp] theorem State.updWarp_pimctl (s : State) (uid : Nat) (j : Nat) (f : Warp → Warp) : (s.updWarp uid j f).pimctl = s.pimctl := rfl
@[simp] theorem State.updWarp_preemptctl (s : State) (uid : Nat) (j : Nat) (f : Warp → Warp) : (s.updWarp uid j f).preemptctl = s.preemptctl := rfl
@[simp] theorem State.updWarp_powerctl (s : State) (uid : Nat) (j : Nat) (f : Warp → Warp) : (s.updWarp uid j f).powerctl = s.powerctl := rfl
@[simp] theorem State.updWarp_layoutGen (s : State) (uid : Nat) (j : Nat) (f : Warp → Warp) : (s.updWarp uid j f).layoutGen = s.layoutGen := rfl
@[simp] theorem State.updWarp_power (s : State) (uid : Nat) (j : Nat) (f : Warp → Warp) : (s.updWarp uid j f).power = s.power := rfl
@[simp] theorem State.updWarp_soft (s : State) (uid : Nat) (j : Nat) (f : Warp → Warp) : (s.updWarp uid j f).soft = s.soft := rfl
@[simp] theorem State.updWarp_health (s : State) (uid : Nat) (j : Nat) (f : Warp → Warp) : (s.updWarp uid j f).health = s.health := rfl
@[simp] theorem State.updWarp_address (s : State) (uid : Nat) (j : Nat) (f : Warp → Warp) : (s.updWarp uid j f).address = s.address := rfl
@[simp] theorem State.updWarp_validAddrs (s : State) (uid : Nat) (j : Nat) (f : Warp → Warp) : (s.updWarp uid j f).validAddrs = s.validAddrs := rfl
@[simp] theorem State.updWarp_measLog (s : State) (uid : Nat) (j : Nat) (f : Warp → Warp) : (s.updWarp uid j f).measLog = s.measLog := rfl
@[simp] theorem State.updWarp_boot (s : State) (uid : Nat) (j : Nat) (f : Warp → Warp) : (s.updWarp uid j f).boot = s.boot := rfl
@[simp] theorem State.updWarp_boots (s : State) (uid : Nat) (j : Nat) (f : Warp → Warp) : (s.updWarp uid j f).boots = s.boots := rfl
@[simp] theorem State.updWarp_ticket (s : State) (uid : Nat) (j : Nat) (f : Warp → Warp) : (s.updWarp uid j f).ticket = s.ticket := rfl
@[simp] theorem State.updWarp_hubTime (s : State) (uid : Nat) (j : Nat) (f : Warp → Warp) : (s.updWarp uid j f).hubTime = s.hubTime := rfl
@[simp] theorem State.updWarp_nextUid (s : State) (uid : Nat) (j : Nat) (f : Warp → Warp) : (s.updWarp uid j f).nextUid = s.nextUid := rfl
@[simp] theorem State.updWarp_cur (s : State) (uid : Nat) (j : Nat) (f : Warp → Warp) : (s.updWarp uid j f).cur = s.cur := rfl
@[simp] theorem State.updWarp_held (s : State) (uid : Nat) (j : Nat) (f : Warp → Warp) : (s.updWarp uid j f).held = s.held := rfl
@[simp] theorem State.updWarp_schedule (s : State) (uid : Nat) (j : Nat) (f : Warp → Warp) : (s.updWarp uid j f).schedule = s.schedule := rfl
@[simp] theorem State.updWarp_fresh (s : State) (uid : Nat) (j : Nat) (f : Warp → Warp) : (s.updWarp uid j f).fresh = s.fresh := rfl

@[simp] theorem State.putTeam_mem (s : State) (t : Team) : (s.putTeam t).mem = s.mem := rfl
@[simp] theorem State.putTeam_lines (s : State) (t : Team) : (s.putTeam t).lines = s.lines := rfl
@[simp] theorem State.putTeam_cellFaults (s : State) (t : Team) : (s.putTeam t).cellFaults = s.cellFaults := rfl
@[simp] theorem State.putTeam_badPackets (s : State) (t : Team) : (s.putTeam t).badPackets = s.badPackets := rfl
@[simp] theorem State.putTeam_nonces (s : State) (t : Team) : (s.putTeam t).nonces = s.nonces := rfl
@[simp] theorem State.putTeam_pot (s : State) (t : Team) : (s.putTeam t).pot = s.pot := rfl
@[simp] theorem State.putTeam_gathers (s : State) (t : Team) : (s.putTeam t).gathers = s.gathers := rfl
@[simp] theorem State.putTeam_oldCode (s : State) (t : Team) : (s.putTeam t).oldCode = s.oldCode := rfl
@[simp] theorem State.putTeam_l1 (s : State) (t : Team) : (s.putTeam t).l1 = s.l1 := rfl
@[simp] theorem State.putTeam_l2 (s : State) (t : Team) : (s.putTeam t).l2 = s.l2 := rfl
@[simp] theorem State.putTeam_llc (s : State) (t : Team) : (s.putTeam t).llc = s.llc := rfl
@[simp] theorem State.putTeam_dir (s : State) (t : Team) : (s.putTeam t).dir = s.dir := rfl
@[simp] theorem State.putTeam_coh (s : State) (t : Team) : (s.putTeam t).coh = s.coh := rfl
@[simp] theorem State.putTeam_drains (s : State) (t : Team) : (s.putTeam t).drains = s.drains := rfl
@[simp] theorem State.putTeam_tlb (s : State) (t : Team) : (s.putTeam t).tlb = s.tlb := rfl
@[simp] theorem State.putTeam_cores (s : State) (t : Team) : (s.putTeam t).cores = s.cores := rfl
@[simp] theorem State.putTeam_teams (s : State) (t : Team) : (s.putTeam t).teams = s.teams.map fun x => if x.uid = t.uid then t else x := rfl
@[simp] theorem State.putTeam_launches (s : State) (t : Team) : (s.putTeam t).launches = s.launches := rfl
@[simp] theorem State.putTeam_ops (s : State) (t : Team) : (s.putTeam t).ops = s.ops := rfl
@[simp] theorem State.putTeam_worlds (s : State) (t : Team) : (s.putTeam t).worlds = s.worlds := rfl
@[simp] theorem State.putTeam_accounts (s : State) (t : Team) : (s.putTeam t).accounts = s.accounts := rfl
@[simp] theorem State.putTeam_copyTurn (s : State) (t : Team) : (s.putTeam t).copyTurn = s.copyTurn := rfl
@[simp] theorem State.putTeam_sources (s : State) (t : Team) : (s.putTeam t).sources = s.sources := rfl
@[simp] theorem State.putTeam_sessions (s : State) (t : Team) : (s.putTeam t).sessions = s.sessions := rfl
@[simp] theorem State.putTeam_sent (s : State) (t : Team) : (s.putTeam t).sent = s.sent := rfl
@[simp] theorem State.putTeam_adverts (s : State) (t : Team) : (s.putTeam t).adverts = s.adverts := rfl
@[simp] theorem State.putTeam_evFrame (s : State) (t : Team) : (s.putTeam t).evFrame = s.evFrame := rfl
@[simp] theorem State.putTeam_regions (s : State) (t : Team) : (s.putTeam t).regions = s.regions := rfl
@[simp] theorem State.putTeam_ads (s : State) (t : Team) : (s.putTeam t).ads = s.ads := rfl
@[simp] theorem State.putTeam_banks (s : State) (t : Team) : (s.putTeam t).banks = s.banks := rfl
@[simp] theorem State.putTeam_dispctl (s : State) (t : Team) : (s.putTeam t).dispctl = s.dispctl := rfl
@[simp] theorem State.putTeam_boostctl (s : State) (t : Team) : (s.putTeam t).boostctl = s.boostctl := rfl
@[simp] theorem State.putTeam_pimctl (s : State) (t : Team) : (s.putTeam t).pimctl = s.pimctl := rfl
@[simp] theorem State.putTeam_preemptctl (s : State) (t : Team) : (s.putTeam t).preemptctl = s.preemptctl := rfl
@[simp] theorem State.putTeam_powerctl (s : State) (t : Team) : (s.putTeam t).powerctl = s.powerctl := rfl
@[simp] theorem State.putTeam_layoutGen (s : State) (t : Team) : (s.putTeam t).layoutGen = s.layoutGen := rfl
@[simp] theorem State.putTeam_power (s : State) (t : Team) : (s.putTeam t).power = s.power := rfl
@[simp] theorem State.putTeam_soft (s : State) (t : Team) : (s.putTeam t).soft = s.soft := rfl
@[simp] theorem State.putTeam_health (s : State) (t : Team) : (s.putTeam t).health = s.health := rfl
@[simp] theorem State.putTeam_address (s : State) (t : Team) : (s.putTeam t).address = s.address := rfl
@[simp] theorem State.putTeam_validAddrs (s : State) (t : Team) : (s.putTeam t).validAddrs = s.validAddrs := rfl
@[simp] theorem State.putTeam_measLog (s : State) (t : Team) : (s.putTeam t).measLog = s.measLog := rfl
@[simp] theorem State.putTeam_boot (s : State) (t : Team) : (s.putTeam t).boot = s.boot := rfl
@[simp] theorem State.putTeam_boots (s : State) (t : Team) : (s.putTeam t).boots = s.boots := rfl
@[simp] theorem State.putTeam_ticket (s : State) (t : Team) : (s.putTeam t).ticket = s.ticket := rfl
@[simp] theorem State.putTeam_hubTime (s : State) (t : Team) : (s.putTeam t).hubTime = s.hubTime := rfl
@[simp] theorem State.putTeam_nextUid (s : State) (t : Team) : (s.putTeam t).nextUid = s.nextUid := rfl
@[simp] theorem State.putTeam_cur (s : State) (t : Team) : (s.putTeam t).cur = s.cur := rfl
@[simp] theorem State.putTeam_held (s : State) (t : Team) : (s.putTeam t).held = s.held := rfl
@[simp] theorem State.putTeam_schedule (s : State) (t : Team) : (s.putTeam t).schedule = s.schedule := rfl
@[simp] theorem State.putTeam_fresh (s : State) (t : Team) : (s.putTeam t).fresh = s.fresh := rfl

@[simp] theorem State.updLaunch_mem (s : State) (uid : Nat) (f : Launch → Launch) : (s.updLaunch uid f).mem = s.mem := rfl
@[simp] theorem State.updLaunch_lines (s : State) (uid : Nat) (f : Launch → Launch) : (s.updLaunch uid f).lines = s.lines := rfl
@[simp] theorem State.updLaunch_cellFaults (s : State) (uid : Nat) (f : Launch → Launch) : (s.updLaunch uid f).cellFaults = s.cellFaults := rfl
@[simp] theorem State.updLaunch_badPackets (s : State) (uid : Nat) (f : Launch → Launch) : (s.updLaunch uid f).badPackets = s.badPackets := rfl
@[simp] theorem State.updLaunch_nonces (s : State) (uid : Nat) (f : Launch → Launch) : (s.updLaunch uid f).nonces = s.nonces := rfl
@[simp] theorem State.updLaunch_pot (s : State) (uid : Nat) (f : Launch → Launch) : (s.updLaunch uid f).pot = s.pot := rfl
@[simp] theorem State.updLaunch_gathers (s : State) (uid : Nat) (f : Launch → Launch) : (s.updLaunch uid f).gathers = s.gathers := rfl
@[simp] theorem State.updLaunch_oldCode (s : State) (uid : Nat) (f : Launch → Launch) : (s.updLaunch uid f).oldCode = s.oldCode := rfl
@[simp] theorem State.updLaunch_l1 (s : State) (uid : Nat) (f : Launch → Launch) : (s.updLaunch uid f).l1 = s.l1 := rfl
@[simp] theorem State.updLaunch_l2 (s : State) (uid : Nat) (f : Launch → Launch) : (s.updLaunch uid f).l2 = s.l2 := rfl
@[simp] theorem State.updLaunch_llc (s : State) (uid : Nat) (f : Launch → Launch) : (s.updLaunch uid f).llc = s.llc := rfl
@[simp] theorem State.updLaunch_dir (s : State) (uid : Nat) (f : Launch → Launch) : (s.updLaunch uid f).dir = s.dir := rfl
@[simp] theorem State.updLaunch_coh (s : State) (uid : Nat) (f : Launch → Launch) : (s.updLaunch uid f).coh = s.coh := rfl
@[simp] theorem State.updLaunch_drains (s : State) (uid : Nat) (f : Launch → Launch) : (s.updLaunch uid f).drains = s.drains := rfl
@[simp] theorem State.updLaunch_tlb (s : State) (uid : Nat) (f : Launch → Launch) : (s.updLaunch uid f).tlb = s.tlb := rfl
@[simp] theorem State.updLaunch_cores (s : State) (uid : Nat) (f : Launch → Launch) : (s.updLaunch uid f).cores = s.cores := rfl
@[simp] theorem State.updLaunch_teams (s : State) (uid : Nat) (f : Launch → Launch) : (s.updLaunch uid f).teams = s.teams := rfl
@[simp] theorem State.updLaunch_launches (s : State) (uid : Nat) (f : Launch → Launch) : (s.updLaunch uid f).launches = s.launches.map fun x => if x.uid = uid then f x else x := rfl
@[simp] theorem State.updLaunch_ops (s : State) (uid : Nat) (f : Launch → Launch) : (s.updLaunch uid f).ops = s.ops := rfl
@[simp] theorem State.updLaunch_worlds (s : State) (uid : Nat) (f : Launch → Launch) : (s.updLaunch uid f).worlds = s.worlds := rfl
@[simp] theorem State.updLaunch_accounts (s : State) (uid : Nat) (f : Launch → Launch) : (s.updLaunch uid f).accounts = s.accounts := rfl
@[simp] theorem State.updLaunch_copyTurn (s : State) (uid : Nat) (f : Launch → Launch) : (s.updLaunch uid f).copyTurn = s.copyTurn := rfl
@[simp] theorem State.updLaunch_sources (s : State) (uid : Nat) (f : Launch → Launch) : (s.updLaunch uid f).sources = s.sources := rfl
@[simp] theorem State.updLaunch_sessions (s : State) (uid : Nat) (f : Launch → Launch) : (s.updLaunch uid f).sessions = s.sessions := rfl
@[simp] theorem State.updLaunch_sent (s : State) (uid : Nat) (f : Launch → Launch) : (s.updLaunch uid f).sent = s.sent := rfl
@[simp] theorem State.updLaunch_adverts (s : State) (uid : Nat) (f : Launch → Launch) : (s.updLaunch uid f).adverts = s.adverts := rfl
@[simp] theorem State.updLaunch_evFrame (s : State) (uid : Nat) (f : Launch → Launch) : (s.updLaunch uid f).evFrame = s.evFrame := rfl
@[simp] theorem State.updLaunch_regions (s : State) (uid : Nat) (f : Launch → Launch) : (s.updLaunch uid f).regions = s.regions := rfl
@[simp] theorem State.updLaunch_ads (s : State) (uid : Nat) (f : Launch → Launch) : (s.updLaunch uid f).ads = s.ads := rfl
@[simp] theorem State.updLaunch_banks (s : State) (uid : Nat) (f : Launch → Launch) : (s.updLaunch uid f).banks = s.banks := rfl
@[simp] theorem State.updLaunch_dispctl (s : State) (uid : Nat) (f : Launch → Launch) : (s.updLaunch uid f).dispctl = s.dispctl := rfl
@[simp] theorem State.updLaunch_boostctl (s : State) (uid : Nat) (f : Launch → Launch) : (s.updLaunch uid f).boostctl = s.boostctl := rfl
@[simp] theorem State.updLaunch_pimctl (s : State) (uid : Nat) (f : Launch → Launch) : (s.updLaunch uid f).pimctl = s.pimctl := rfl
@[simp] theorem State.updLaunch_preemptctl (s : State) (uid : Nat) (f : Launch → Launch) : (s.updLaunch uid f).preemptctl = s.preemptctl := rfl
@[simp] theorem State.updLaunch_powerctl (s : State) (uid : Nat) (f : Launch → Launch) : (s.updLaunch uid f).powerctl = s.powerctl := rfl
@[simp] theorem State.updLaunch_layoutGen (s : State) (uid : Nat) (f : Launch → Launch) : (s.updLaunch uid f).layoutGen = s.layoutGen := rfl
@[simp] theorem State.updLaunch_power (s : State) (uid : Nat) (f : Launch → Launch) : (s.updLaunch uid f).power = s.power := rfl
@[simp] theorem State.updLaunch_soft (s : State) (uid : Nat) (f : Launch → Launch) : (s.updLaunch uid f).soft = s.soft := rfl
@[simp] theorem State.updLaunch_health (s : State) (uid : Nat) (f : Launch → Launch) : (s.updLaunch uid f).health = s.health := rfl
@[simp] theorem State.updLaunch_address (s : State) (uid : Nat) (f : Launch → Launch) : (s.updLaunch uid f).address = s.address := rfl
@[simp] theorem State.updLaunch_validAddrs (s : State) (uid : Nat) (f : Launch → Launch) : (s.updLaunch uid f).validAddrs = s.validAddrs := rfl
@[simp] theorem State.updLaunch_measLog (s : State) (uid : Nat) (f : Launch → Launch) : (s.updLaunch uid f).measLog = s.measLog := rfl
@[simp] theorem State.updLaunch_boot (s : State) (uid : Nat) (f : Launch → Launch) : (s.updLaunch uid f).boot = s.boot := rfl
@[simp] theorem State.updLaunch_boots (s : State) (uid : Nat) (f : Launch → Launch) : (s.updLaunch uid f).boots = s.boots := rfl
@[simp] theorem State.updLaunch_ticket (s : State) (uid : Nat) (f : Launch → Launch) : (s.updLaunch uid f).ticket = s.ticket := rfl
@[simp] theorem State.updLaunch_hubTime (s : State) (uid : Nat) (f : Launch → Launch) : (s.updLaunch uid f).hubTime = s.hubTime := rfl
@[simp] theorem State.updLaunch_nextUid (s : State) (uid : Nat) (f : Launch → Launch) : (s.updLaunch uid f).nextUid = s.nextUid := rfl
@[simp] theorem State.updLaunch_cur (s : State) (uid : Nat) (f : Launch → Launch) : (s.updLaunch uid f).cur = s.cur := rfl
@[simp] theorem State.updLaunch_held (s : State) (uid : Nat) (f : Launch → Launch) : (s.updLaunch uid f).held = s.held := rfl
@[simp] theorem State.updLaunch_schedule (s : State) (uid : Nat) (f : Launch → Launch) : (s.updLaunch uid f).schedule = s.schedule := rfl
@[simp] theorem State.updLaunch_fresh (s : State) (uid : Nat) (f : Launch → Launch) : (s.updLaunch uid f).fresh = s.fresh := rfl

@[simp] theorem State.setCore_mem (s : State) (c : Nat) (x : CoreSt) : (s.setCore c x).mem = s.mem := rfl
@[simp] theorem State.setCore_lines (s : State) (c : Nat) (x : CoreSt) : (s.setCore c x).lines = s.lines := rfl
@[simp] theorem State.setCore_cellFaults (s : State) (c : Nat) (x : CoreSt) : (s.setCore c x).cellFaults = s.cellFaults := rfl
@[simp] theorem State.setCore_badPackets (s : State) (c : Nat) (x : CoreSt) : (s.setCore c x).badPackets = s.badPackets := rfl
@[simp] theorem State.setCore_nonces (s : State) (c : Nat) (x : CoreSt) : (s.setCore c x).nonces = s.nonces := rfl
@[simp] theorem State.setCore_pot (s : State) (c : Nat) (x : CoreSt) : (s.setCore c x).pot = s.pot := rfl
@[simp] theorem State.setCore_gathers (s : State) (c : Nat) (x : CoreSt) : (s.setCore c x).gathers = s.gathers := rfl
@[simp] theorem State.setCore_oldCode (s : State) (c : Nat) (x : CoreSt) : (s.setCore c x).oldCode = s.oldCode := rfl
@[simp] theorem State.setCore_l1 (s : State) (c : Nat) (x : CoreSt) : (s.setCore c x).l1 = s.l1 := rfl
@[simp] theorem State.setCore_l2 (s : State) (c : Nat) (x : CoreSt) : (s.setCore c x).l2 = s.l2 := rfl
@[simp] theorem State.setCore_llc (s : State) (c : Nat) (x : CoreSt) : (s.setCore c x).llc = s.llc := rfl
@[simp] theorem State.setCore_dir (s : State) (c : Nat) (x : CoreSt) : (s.setCore c x).dir = s.dir := rfl
@[simp] theorem State.setCore_coh (s : State) (c : Nat) (x : CoreSt) : (s.setCore c x).coh = s.coh := rfl
@[simp] theorem State.setCore_drains (s : State) (c : Nat) (x : CoreSt) : (s.setCore c x).drains = s.drains := rfl
@[simp] theorem State.setCore_tlb (s : State) (c : Nat) (x : CoreSt) : (s.setCore c x).tlb = s.tlb := rfl
@[simp] theorem State.setCore_cores (s : State) (c : Nat) (x : CoreSt) : (s.setCore c x).cores = KMap.put s.cores c x := rfl
@[simp] theorem State.setCore_teams (s : State) (c : Nat) (x : CoreSt) : (s.setCore c x).teams = s.teams := rfl
@[simp] theorem State.setCore_launches (s : State) (c : Nat) (x : CoreSt) : (s.setCore c x).launches = s.launches := rfl
@[simp] theorem State.setCore_ops (s : State) (c : Nat) (x : CoreSt) : (s.setCore c x).ops = s.ops := rfl
@[simp] theorem State.setCore_worlds (s : State) (c : Nat) (x : CoreSt) : (s.setCore c x).worlds = s.worlds := rfl
@[simp] theorem State.setCore_accounts (s : State) (c : Nat) (x : CoreSt) : (s.setCore c x).accounts = s.accounts := rfl
@[simp] theorem State.setCore_copyTurn (s : State) (c : Nat) (x : CoreSt) : (s.setCore c x).copyTurn = s.copyTurn := rfl
@[simp] theorem State.setCore_sources (s : State) (c : Nat) (x : CoreSt) : (s.setCore c x).sources = s.sources := rfl
@[simp] theorem State.setCore_sessions (s : State) (c : Nat) (x : CoreSt) : (s.setCore c x).sessions = s.sessions := rfl
@[simp] theorem State.setCore_sent (s : State) (c : Nat) (x : CoreSt) : (s.setCore c x).sent = s.sent := rfl
@[simp] theorem State.setCore_adverts (s : State) (c : Nat) (x : CoreSt) : (s.setCore c x).adverts = s.adverts := rfl
@[simp] theorem State.setCore_evFrame (s : State) (c : Nat) (x : CoreSt) : (s.setCore c x).evFrame = s.evFrame := rfl
@[simp] theorem State.setCore_regions (s : State) (c : Nat) (x : CoreSt) : (s.setCore c x).regions = s.regions := rfl
@[simp] theorem State.setCore_ads (s : State) (c : Nat) (x : CoreSt) : (s.setCore c x).ads = s.ads := rfl
@[simp] theorem State.setCore_banks (s : State) (c : Nat) (x : CoreSt) : (s.setCore c x).banks = s.banks := rfl
@[simp] theorem State.setCore_dispctl (s : State) (c : Nat) (x : CoreSt) : (s.setCore c x).dispctl = s.dispctl := rfl
@[simp] theorem State.setCore_boostctl (s : State) (c : Nat) (x : CoreSt) : (s.setCore c x).boostctl = s.boostctl := rfl
@[simp] theorem State.setCore_pimctl (s : State) (c : Nat) (x : CoreSt) : (s.setCore c x).pimctl = s.pimctl := rfl
@[simp] theorem State.setCore_preemptctl (s : State) (c : Nat) (x : CoreSt) : (s.setCore c x).preemptctl = s.preemptctl := rfl
@[simp] theorem State.setCore_powerctl (s : State) (c : Nat) (x : CoreSt) : (s.setCore c x).powerctl = s.powerctl := rfl
@[simp] theorem State.setCore_layoutGen (s : State) (c : Nat) (x : CoreSt) : (s.setCore c x).layoutGen = s.layoutGen := rfl
@[simp] theorem State.setCore_power (s : State) (c : Nat) (x : CoreSt) : (s.setCore c x).power = s.power := rfl
@[simp] theorem State.setCore_soft (s : State) (c : Nat) (x : CoreSt) : (s.setCore c x).soft = s.soft := rfl
@[simp] theorem State.setCore_health (s : State) (c : Nat) (x : CoreSt) : (s.setCore c x).health = s.health := rfl
@[simp] theorem State.setCore_address (s : State) (c : Nat) (x : CoreSt) : (s.setCore c x).address = s.address := rfl
@[simp] theorem State.setCore_validAddrs (s : State) (c : Nat) (x : CoreSt) : (s.setCore c x).validAddrs = s.validAddrs := rfl
@[simp] theorem State.setCore_measLog (s : State) (c : Nat) (x : CoreSt) : (s.setCore c x).measLog = s.measLog := rfl
@[simp] theorem State.setCore_boot (s : State) (c : Nat) (x : CoreSt) : (s.setCore c x).boot = s.boot := rfl
@[simp] theorem State.setCore_boots (s : State) (c : Nat) (x : CoreSt) : (s.setCore c x).boots = s.boots := rfl
@[simp] theorem State.setCore_ticket (s : State) (c : Nat) (x : CoreSt) : (s.setCore c x).ticket = s.ticket := rfl
@[simp] theorem State.setCore_hubTime (s : State) (c : Nat) (x : CoreSt) : (s.setCore c x).hubTime = s.hubTime := rfl
@[simp] theorem State.setCore_nextUid (s : State) (c : Nat) (x : CoreSt) : (s.setCore c x).nextUid = s.nextUid := rfl
@[simp] theorem State.setCore_cur (s : State) (c : Nat) (x : CoreSt) : (s.setCore c x).cur = s.cur := rfl
@[simp] theorem State.setCore_held (s : State) (c : Nat) (x : CoreSt) : (s.setCore c x).held = s.held := rfl
@[simp] theorem State.setCore_schedule (s : State) (c : Nat) (x : CoreSt) : (s.setCore c x).schedule = s.schedule := rfl
@[simp] theorem State.setCore_fresh (s : State) (c : Nat) (x : CoreSt) : (s.setCore c x).fresh = s.fresh := rfl

@[simp] theorem State.putOp_mem (s : State) (o : Op) : (s.putOp o).mem = s.mem := rfl
@[simp] theorem State.putOp_lines (s : State) (o : Op) : (s.putOp o).lines = s.lines := rfl
@[simp] theorem State.putOp_cellFaults (s : State) (o : Op) : (s.putOp o).cellFaults = s.cellFaults := rfl
@[simp] theorem State.putOp_badPackets (s : State) (o : Op) : (s.putOp o).badPackets = s.badPackets := rfl
@[simp] theorem State.putOp_nonces (s : State) (o : Op) : (s.putOp o).nonces = s.nonces := rfl
@[simp] theorem State.putOp_pot (s : State) (o : Op) : (s.putOp o).pot = s.pot := rfl
@[simp] theorem State.putOp_gathers (s : State) (o : Op) : (s.putOp o).gathers = s.gathers := rfl
@[simp] theorem State.putOp_oldCode (s : State) (o : Op) : (s.putOp o).oldCode = s.oldCode := rfl
@[simp] theorem State.putOp_l1 (s : State) (o : Op) : (s.putOp o).l1 = s.l1 := rfl
@[simp] theorem State.putOp_l2 (s : State) (o : Op) : (s.putOp o).l2 = s.l2 := rfl
@[simp] theorem State.putOp_llc (s : State) (o : Op) : (s.putOp o).llc = s.llc := rfl
@[simp] theorem State.putOp_dir (s : State) (o : Op) : (s.putOp o).dir = s.dir := rfl
@[simp] theorem State.putOp_coh (s : State) (o : Op) : (s.putOp o).coh = s.coh := rfl
@[simp] theorem State.putOp_drains (s : State) (o : Op) : (s.putOp o).drains = s.drains := rfl
@[simp] theorem State.putOp_tlb (s : State) (o : Op) : (s.putOp o).tlb = s.tlb := rfl
@[simp] theorem State.putOp_cores (s : State) (o : Op) : (s.putOp o).cores = s.cores := rfl
@[simp] theorem State.putOp_teams (s : State) (o : Op) : (s.putOp o).teams = s.teams := rfl
@[simp] theorem State.putOp_launches (s : State) (o : Op) : (s.putOp o).launches = s.launches := rfl
@[simp] theorem State.putOp_ops (s : State) (o : Op) : (s.putOp o).ops = s.ops.map fun x => if x.id = o.id then o else x := rfl
@[simp] theorem State.putOp_worlds (s : State) (o : Op) : (s.putOp o).worlds = s.worlds := rfl
@[simp] theorem State.putOp_accounts (s : State) (o : Op) : (s.putOp o).accounts = s.accounts := rfl
@[simp] theorem State.putOp_copyTurn (s : State) (o : Op) : (s.putOp o).copyTurn = s.copyTurn := rfl
@[simp] theorem State.putOp_sources (s : State) (o : Op) : (s.putOp o).sources = s.sources := rfl
@[simp] theorem State.putOp_sessions (s : State) (o : Op) : (s.putOp o).sessions = s.sessions := rfl
@[simp] theorem State.putOp_sent (s : State) (o : Op) : (s.putOp o).sent = s.sent := rfl
@[simp] theorem State.putOp_adverts (s : State) (o : Op) : (s.putOp o).adverts = s.adverts := rfl
@[simp] theorem State.putOp_evFrame (s : State) (o : Op) : (s.putOp o).evFrame = s.evFrame := rfl
@[simp] theorem State.putOp_regions (s : State) (o : Op) : (s.putOp o).regions = s.regions := rfl
@[simp] theorem State.putOp_ads (s : State) (o : Op) : (s.putOp o).ads = s.ads := rfl
@[simp] theorem State.putOp_banks (s : State) (o : Op) : (s.putOp o).banks = s.banks := rfl
@[simp] theorem State.putOp_dispctl (s : State) (o : Op) : (s.putOp o).dispctl = s.dispctl := rfl
@[simp] theorem State.putOp_boostctl (s : State) (o : Op) : (s.putOp o).boostctl = s.boostctl := rfl
@[simp] theorem State.putOp_pimctl (s : State) (o : Op) : (s.putOp o).pimctl = s.pimctl := rfl
@[simp] theorem State.putOp_preemptctl (s : State) (o : Op) : (s.putOp o).preemptctl = s.preemptctl := rfl
@[simp] theorem State.putOp_powerctl (s : State) (o : Op) : (s.putOp o).powerctl = s.powerctl := rfl
@[simp] theorem State.putOp_layoutGen (s : State) (o : Op) : (s.putOp o).layoutGen = s.layoutGen := rfl
@[simp] theorem State.putOp_power (s : State) (o : Op) : (s.putOp o).power = s.power := rfl
@[simp] theorem State.putOp_soft (s : State) (o : Op) : (s.putOp o).soft = s.soft := rfl
@[simp] theorem State.putOp_health (s : State) (o : Op) : (s.putOp o).health = s.health := rfl
@[simp] theorem State.putOp_address (s : State) (o : Op) : (s.putOp o).address = s.address := rfl
@[simp] theorem State.putOp_validAddrs (s : State) (o : Op) : (s.putOp o).validAddrs = s.validAddrs := rfl
@[simp] theorem State.putOp_measLog (s : State) (o : Op) : (s.putOp o).measLog = s.measLog := rfl
@[simp] theorem State.putOp_boot (s : State) (o : Op) : (s.putOp o).boot = s.boot := rfl
@[simp] theorem State.putOp_boots (s : State) (o : Op) : (s.putOp o).boots = s.boots := rfl
@[simp] theorem State.putOp_ticket (s : State) (o : Op) : (s.putOp o).ticket = s.ticket := rfl
@[simp] theorem State.putOp_hubTime (s : State) (o : Op) : (s.putOp o).hubTime = s.hubTime := rfl
@[simp] theorem State.putOp_nextUid (s : State) (o : Op) : (s.putOp o).nextUid = s.nextUid := rfl
@[simp] theorem State.putOp_cur (s : State) (o : Op) : (s.putOp o).cur = s.cur := rfl
@[simp] theorem State.putOp_held (s : State) (o : Op) : (s.putOp o).held = s.held := rfl
@[simp] theorem State.putOp_schedule (s : State) (o : Op) : (s.putOp o).schedule = s.schedule := rfl
@[simp] theorem State.putOp_fresh (s : State) (o : Op) : (s.putOp o).fresh = s.fresh := rfl

@[simp] theorem State.dropOp_mem (s : State) (id : Nat) : (s.dropOp id).mem = s.mem := rfl
@[simp] theorem State.dropOp_lines (s : State) (id : Nat) : (s.dropOp id).lines = s.lines := rfl
@[simp] theorem State.dropOp_cellFaults (s : State) (id : Nat) : (s.dropOp id).cellFaults = s.cellFaults := rfl
@[simp] theorem State.dropOp_badPackets (s : State) (id : Nat) : (s.dropOp id).badPackets = s.badPackets := rfl
@[simp] theorem State.dropOp_nonces (s : State) (id : Nat) : (s.dropOp id).nonces = s.nonces := rfl
@[simp] theorem State.dropOp_pot (s : State) (id : Nat) : (s.dropOp id).pot = s.pot := rfl
@[simp] theorem State.dropOp_gathers (s : State) (id : Nat) : (s.dropOp id).gathers = s.gathers := rfl
@[simp] theorem State.dropOp_oldCode (s : State) (id : Nat) : (s.dropOp id).oldCode = s.oldCode := rfl
@[simp] theorem State.dropOp_l1 (s : State) (id : Nat) : (s.dropOp id).l1 = s.l1 := rfl
@[simp] theorem State.dropOp_l2 (s : State) (id : Nat) : (s.dropOp id).l2 = s.l2 := rfl
@[simp] theorem State.dropOp_llc (s : State) (id : Nat) : (s.dropOp id).llc = s.llc := rfl
@[simp] theorem State.dropOp_dir (s : State) (id : Nat) : (s.dropOp id).dir = s.dir := rfl
@[simp] theorem State.dropOp_coh (s : State) (id : Nat) : (s.dropOp id).coh = s.coh := rfl
@[simp] theorem State.dropOp_drains (s : State) (id : Nat) : (s.dropOp id).drains = s.drains := rfl
@[simp] theorem State.dropOp_tlb (s : State) (id : Nat) : (s.dropOp id).tlb = s.tlb := rfl
@[simp] theorem State.dropOp_cores (s : State) (id : Nat) : (s.dropOp id).cores = s.cores := rfl
@[simp] theorem State.dropOp_teams (s : State) (id : Nat) : (s.dropOp id).teams = s.teams := rfl
@[simp] theorem State.dropOp_launches (s : State) (id : Nat) : (s.dropOp id).launches = s.launches := rfl
@[simp] theorem State.dropOp_ops (s : State) (id : Nat) : (s.dropOp id).ops = s.ops.filter fun o => o.id != id := rfl
@[simp] theorem State.dropOp_worlds (s : State) (id : Nat) : (s.dropOp id).worlds = s.worlds := rfl
@[simp] theorem State.dropOp_accounts (s : State) (id : Nat) : (s.dropOp id).accounts = s.accounts := rfl
@[simp] theorem State.dropOp_copyTurn (s : State) (id : Nat) : (s.dropOp id).copyTurn = s.copyTurn := rfl
@[simp] theorem State.dropOp_sources (s : State) (id : Nat) : (s.dropOp id).sources = s.sources := rfl
@[simp] theorem State.dropOp_sessions (s : State) (id : Nat) : (s.dropOp id).sessions = s.sessions := rfl
@[simp] theorem State.dropOp_sent (s : State) (id : Nat) : (s.dropOp id).sent = s.sent := rfl
@[simp] theorem State.dropOp_adverts (s : State) (id : Nat) : (s.dropOp id).adverts = s.adverts := rfl
@[simp] theorem State.dropOp_evFrame (s : State) (id : Nat) : (s.dropOp id).evFrame = s.evFrame := rfl
@[simp] theorem State.dropOp_regions (s : State) (id : Nat) : (s.dropOp id).regions = s.regions := rfl
@[simp] theorem State.dropOp_ads (s : State) (id : Nat) : (s.dropOp id).ads = s.ads := rfl
@[simp] theorem State.dropOp_banks (s : State) (id : Nat) : (s.dropOp id).banks = s.banks := rfl
@[simp] theorem State.dropOp_dispctl (s : State) (id : Nat) : (s.dropOp id).dispctl = s.dispctl := rfl
@[simp] theorem State.dropOp_boostctl (s : State) (id : Nat) : (s.dropOp id).boostctl = s.boostctl := rfl
@[simp] theorem State.dropOp_pimctl (s : State) (id : Nat) : (s.dropOp id).pimctl = s.pimctl := rfl
@[simp] theorem State.dropOp_preemptctl (s : State) (id : Nat) : (s.dropOp id).preemptctl = s.preemptctl := rfl
@[simp] theorem State.dropOp_powerctl (s : State) (id : Nat) : (s.dropOp id).powerctl = s.powerctl := rfl
@[simp] theorem State.dropOp_layoutGen (s : State) (id : Nat) : (s.dropOp id).layoutGen = s.layoutGen := rfl
@[simp] theorem State.dropOp_power (s : State) (id : Nat) : (s.dropOp id).power = s.power := rfl
@[simp] theorem State.dropOp_soft (s : State) (id : Nat) : (s.dropOp id).soft = s.soft := rfl
@[simp] theorem State.dropOp_health (s : State) (id : Nat) : (s.dropOp id).health = s.health := rfl
@[simp] theorem State.dropOp_address (s : State) (id : Nat) : (s.dropOp id).address = s.address := rfl
@[simp] theorem State.dropOp_validAddrs (s : State) (id : Nat) : (s.dropOp id).validAddrs = s.validAddrs := rfl
@[simp] theorem State.dropOp_measLog (s : State) (id : Nat) : (s.dropOp id).measLog = s.measLog := rfl
@[simp] theorem State.dropOp_boot (s : State) (id : Nat) : (s.dropOp id).boot = s.boot := rfl
@[simp] theorem State.dropOp_boots (s : State) (id : Nat) : (s.dropOp id).boots = s.boots := rfl
@[simp] theorem State.dropOp_ticket (s : State) (id : Nat) : (s.dropOp id).ticket = s.ticket := rfl
@[simp] theorem State.dropOp_hubTime (s : State) (id : Nat) : (s.dropOp id).hubTime = s.hubTime := rfl
@[simp] theorem State.dropOp_nextUid (s : State) (id : Nat) : (s.dropOp id).nextUid = s.nextUid := rfl
@[simp] theorem State.dropOp_cur (s : State) (id : Nat) : (s.dropOp id).cur = s.cur := rfl
@[simp] theorem State.dropOp_held (s : State) (id : Nat) : (s.dropOp id).held = s.held := rfl
@[simp] theorem State.dropOp_schedule (s : State) (id : Nat) : (s.dropOp id).schedule = s.schedule := rfl
@[simp] theorem State.dropOp_fresh (s : State) (id : Nat) : (s.dropOp id).fresh = s.fresh := rfl

@[simp] theorem State.setSession_mem (s : State) (k : Nat) (x : Session) : (s.setSession k x).mem = s.mem := rfl
@[simp] theorem State.setSession_lines (s : State) (k : Nat) (x : Session) : (s.setSession k x).lines = s.lines := rfl
@[simp] theorem State.setSession_cellFaults (s : State) (k : Nat) (x : Session) : (s.setSession k x).cellFaults = s.cellFaults := rfl
@[simp] theorem State.setSession_badPackets (s : State) (k : Nat) (x : Session) : (s.setSession k x).badPackets = s.badPackets := rfl
@[simp] theorem State.setSession_nonces (s : State) (k : Nat) (x : Session) : (s.setSession k x).nonces = s.nonces := rfl
@[simp] theorem State.setSession_pot (s : State) (k : Nat) (x : Session) : (s.setSession k x).pot = s.pot := rfl
@[simp] theorem State.setSession_gathers (s : State) (k : Nat) (x : Session) : (s.setSession k x).gathers = s.gathers := rfl
@[simp] theorem State.setSession_oldCode (s : State) (k : Nat) (x : Session) : (s.setSession k x).oldCode = s.oldCode := rfl
@[simp] theorem State.setSession_l1 (s : State) (k : Nat) (x : Session) : (s.setSession k x).l1 = s.l1 := rfl
@[simp] theorem State.setSession_l2 (s : State) (k : Nat) (x : Session) : (s.setSession k x).l2 = s.l2 := rfl
@[simp] theorem State.setSession_llc (s : State) (k : Nat) (x : Session) : (s.setSession k x).llc = s.llc := rfl
@[simp] theorem State.setSession_dir (s : State) (k : Nat) (x : Session) : (s.setSession k x).dir = s.dir := rfl
@[simp] theorem State.setSession_coh (s : State) (k : Nat) (x : Session) : (s.setSession k x).coh = s.coh := rfl
@[simp] theorem State.setSession_drains (s : State) (k : Nat) (x : Session) : (s.setSession k x).drains = s.drains := rfl
@[simp] theorem State.setSession_tlb (s : State) (k : Nat) (x : Session) : (s.setSession k x).tlb = s.tlb := rfl
@[simp] theorem State.setSession_cores (s : State) (k : Nat) (x : Session) : (s.setSession k x).cores = s.cores := rfl
@[simp] theorem State.setSession_teams (s : State) (k : Nat) (x : Session) : (s.setSession k x).teams = s.teams := rfl
@[simp] theorem State.setSession_launches (s : State) (k : Nat) (x : Session) : (s.setSession k x).launches = s.launches := rfl
@[simp] theorem State.setSession_ops (s : State) (k : Nat) (x : Session) : (s.setSession k x).ops = s.ops := rfl
@[simp] theorem State.setSession_worlds (s : State) (k : Nat) (x : Session) : (s.setSession k x).worlds = s.worlds := rfl
@[simp] theorem State.setSession_accounts (s : State) (k : Nat) (x : Session) : (s.setSession k x).accounts = s.accounts := rfl
@[simp] theorem State.setSession_copyTurn (s : State) (k : Nat) (x : Session) : (s.setSession k x).copyTurn = s.copyTurn := rfl
@[simp] theorem State.setSession_sources (s : State) (k : Nat) (x : Session) : (s.setSession k x).sources = s.sources := rfl
@[simp] theorem State.setSession_sessions (s : State) (k : Nat) (x : Session) : (s.setSession k x).sessions = KMap.put s.sessions k x := rfl
@[simp] theorem State.setSession_sent (s : State) (k : Nat) (x : Session) : (s.setSession k x).sent = s.sent := rfl
@[simp] theorem State.setSession_adverts (s : State) (k : Nat) (x : Session) : (s.setSession k x).adverts = s.adverts := rfl
@[simp] theorem State.setSession_evFrame (s : State) (k : Nat) (x : Session) : (s.setSession k x).evFrame = s.evFrame := rfl
@[simp] theorem State.setSession_regions (s : State) (k : Nat) (x : Session) : (s.setSession k x).regions = s.regions := rfl
@[simp] theorem State.setSession_ads (s : State) (k : Nat) (x : Session) : (s.setSession k x).ads = s.ads := rfl
@[simp] theorem State.setSession_banks (s : State) (k : Nat) (x : Session) : (s.setSession k x).banks = s.banks := rfl
@[simp] theorem State.setSession_dispctl (s : State) (k : Nat) (x : Session) : (s.setSession k x).dispctl = s.dispctl := rfl
@[simp] theorem State.setSession_boostctl (s : State) (k : Nat) (x : Session) : (s.setSession k x).boostctl = s.boostctl := rfl
@[simp] theorem State.setSession_pimctl (s : State) (k : Nat) (x : Session) : (s.setSession k x).pimctl = s.pimctl := rfl
@[simp] theorem State.setSession_preemptctl (s : State) (k : Nat) (x : Session) : (s.setSession k x).preemptctl = s.preemptctl := rfl
@[simp] theorem State.setSession_powerctl (s : State) (k : Nat) (x : Session) : (s.setSession k x).powerctl = s.powerctl := rfl
@[simp] theorem State.setSession_layoutGen (s : State) (k : Nat) (x : Session) : (s.setSession k x).layoutGen = s.layoutGen := rfl
@[simp] theorem State.setSession_power (s : State) (k : Nat) (x : Session) : (s.setSession k x).power = s.power := rfl
@[simp] theorem State.setSession_soft (s : State) (k : Nat) (x : Session) : (s.setSession k x).soft = s.soft := rfl
@[simp] theorem State.setSession_health (s : State) (k : Nat) (x : Session) : (s.setSession k x).health = s.health := rfl
@[simp] theorem State.setSession_address (s : State) (k : Nat) (x : Session) : (s.setSession k x).address = s.address := rfl
@[simp] theorem State.setSession_validAddrs (s : State) (k : Nat) (x : Session) : (s.setSession k x).validAddrs = s.validAddrs := rfl
@[simp] theorem State.setSession_measLog (s : State) (k : Nat) (x : Session) : (s.setSession k x).measLog = s.measLog := rfl
@[simp] theorem State.setSession_boot (s : State) (k : Nat) (x : Session) : (s.setSession k x).boot = s.boot := rfl
@[simp] theorem State.setSession_boots (s : State) (k : Nat) (x : Session) : (s.setSession k x).boots = s.boots := rfl
@[simp] theorem State.setSession_ticket (s : State) (k : Nat) (x : Session) : (s.setSession k x).ticket = s.ticket := rfl
@[simp] theorem State.setSession_hubTime (s : State) (k : Nat) (x : Session) : (s.setSession k x).hubTime = s.hubTime := rfl
@[simp] theorem State.setSession_nextUid (s : State) (k : Nat) (x : Session) : (s.setSession k x).nextUid = s.nextUid := rfl
@[simp] theorem State.setSession_cur (s : State) (k : Nat) (x : Session) : (s.setSession k x).cur = s.cur := rfl
@[simp] theorem State.setSession_held (s : State) (k : Nat) (x : Session) : (s.setSession k x).held = s.held := rfl
@[simp] theorem State.setSession_schedule (s : State) (k : Nat) (x : Session) : (s.setSession k x).schedule = s.schedule := rfl
@[simp] theorem State.setSession_fresh (s : State) (k : Nat) (x : Session) : (s.setSession k x).fresh = s.fresh := rfl

@[simp] theorem State.setRegion_mem (s : State) (r : Nat) (x : Region) : (s.setRegion r x).mem = s.mem := rfl
@[simp] theorem State.setRegion_lines (s : State) (r : Nat) (x : Region) : (s.setRegion r x).lines = s.lines := rfl
@[simp] theorem State.setRegion_cellFaults (s : State) (r : Nat) (x : Region) : (s.setRegion r x).cellFaults = s.cellFaults := rfl
@[simp] theorem State.setRegion_badPackets (s : State) (r : Nat) (x : Region) : (s.setRegion r x).badPackets = s.badPackets := rfl
@[simp] theorem State.setRegion_nonces (s : State) (r : Nat) (x : Region) : (s.setRegion r x).nonces = s.nonces := rfl
@[simp] theorem State.setRegion_pot (s : State) (r : Nat) (x : Region) : (s.setRegion r x).pot = s.pot := rfl
@[simp] theorem State.setRegion_gathers (s : State) (r : Nat) (x : Region) : (s.setRegion r x).gathers = s.gathers := rfl
@[simp] theorem State.setRegion_oldCode (s : State) (r : Nat) (x : Region) : (s.setRegion r x).oldCode = s.oldCode := rfl
@[simp] theorem State.setRegion_l1 (s : State) (r : Nat) (x : Region) : (s.setRegion r x).l1 = s.l1 := rfl
@[simp] theorem State.setRegion_l2 (s : State) (r : Nat) (x : Region) : (s.setRegion r x).l2 = s.l2 := rfl
@[simp] theorem State.setRegion_llc (s : State) (r : Nat) (x : Region) : (s.setRegion r x).llc = s.llc := rfl
@[simp] theorem State.setRegion_dir (s : State) (r : Nat) (x : Region) : (s.setRegion r x).dir = s.dir := rfl
@[simp] theorem State.setRegion_coh (s : State) (r : Nat) (x : Region) : (s.setRegion r x).coh = s.coh := rfl
@[simp] theorem State.setRegion_drains (s : State) (r : Nat) (x : Region) : (s.setRegion r x).drains = s.drains := rfl
@[simp] theorem State.setRegion_tlb (s : State) (r : Nat) (x : Region) : (s.setRegion r x).tlb = s.tlb := rfl
@[simp] theorem State.setRegion_cores (s : State) (r : Nat) (x : Region) : (s.setRegion r x).cores = s.cores := rfl
@[simp] theorem State.setRegion_teams (s : State) (r : Nat) (x : Region) : (s.setRegion r x).teams = s.teams := rfl
@[simp] theorem State.setRegion_launches (s : State) (r : Nat) (x : Region) : (s.setRegion r x).launches = s.launches := rfl
@[simp] theorem State.setRegion_ops (s : State) (r : Nat) (x : Region) : (s.setRegion r x).ops = s.ops := rfl
@[simp] theorem State.setRegion_worlds (s : State) (r : Nat) (x : Region) : (s.setRegion r x).worlds = s.worlds := rfl
@[simp] theorem State.setRegion_accounts (s : State) (r : Nat) (x : Region) : (s.setRegion r x).accounts = s.accounts := rfl
@[simp] theorem State.setRegion_copyTurn (s : State) (r : Nat) (x : Region) : (s.setRegion r x).copyTurn = s.copyTurn := rfl
@[simp] theorem State.setRegion_sources (s : State) (r : Nat) (x : Region) : (s.setRegion r x).sources = s.sources := rfl
@[simp] theorem State.setRegion_sessions (s : State) (r : Nat) (x : Region) : (s.setRegion r x).sessions = s.sessions := rfl
@[simp] theorem State.setRegion_sent (s : State) (r : Nat) (x : Region) : (s.setRegion r x).sent = s.sent := rfl
@[simp] theorem State.setRegion_adverts (s : State) (r : Nat) (x : Region) : (s.setRegion r x).adverts = s.adverts := rfl
@[simp] theorem State.setRegion_evFrame (s : State) (r : Nat) (x : Region) : (s.setRegion r x).evFrame = s.evFrame := rfl
@[simp] theorem State.setRegion_regions (s : State) (r : Nat) (x : Region) : (s.setRegion r x).regions = KMap.put s.regions r x := rfl
@[simp] theorem State.setRegion_ads (s : State) (r : Nat) (x : Region) : (s.setRegion r x).ads = s.ads := rfl
@[simp] theorem State.setRegion_banks (s : State) (r : Nat) (x : Region) : (s.setRegion r x).banks = s.banks := rfl
@[simp] theorem State.setRegion_dispctl (s : State) (r : Nat) (x : Region) : (s.setRegion r x).dispctl = s.dispctl := rfl
@[simp] theorem State.setRegion_boostctl (s : State) (r : Nat) (x : Region) : (s.setRegion r x).boostctl = s.boostctl := rfl
@[simp] theorem State.setRegion_pimctl (s : State) (r : Nat) (x : Region) : (s.setRegion r x).pimctl = s.pimctl := rfl
@[simp] theorem State.setRegion_preemptctl (s : State) (r : Nat) (x : Region) : (s.setRegion r x).preemptctl = s.preemptctl := rfl
@[simp] theorem State.setRegion_powerctl (s : State) (r : Nat) (x : Region) : (s.setRegion r x).powerctl = s.powerctl := rfl
@[simp] theorem State.setRegion_layoutGen (s : State) (r : Nat) (x : Region) : (s.setRegion r x).layoutGen = s.layoutGen := rfl
@[simp] theorem State.setRegion_power (s : State) (r : Nat) (x : Region) : (s.setRegion r x).power = s.power := rfl
@[simp] theorem State.setRegion_soft (s : State) (r : Nat) (x : Region) : (s.setRegion r x).soft = s.soft := rfl
@[simp] theorem State.setRegion_health (s : State) (r : Nat) (x : Region) : (s.setRegion r x).health = s.health := rfl
@[simp] theorem State.setRegion_address (s : State) (r : Nat) (x : Region) : (s.setRegion r x).address = s.address := rfl
@[simp] theorem State.setRegion_validAddrs (s : State) (r : Nat) (x : Region) : (s.setRegion r x).validAddrs = s.validAddrs := rfl
@[simp] theorem State.setRegion_measLog (s : State) (r : Nat) (x : Region) : (s.setRegion r x).measLog = s.measLog := rfl
@[simp] theorem State.setRegion_boot (s : State) (r : Nat) (x : Region) : (s.setRegion r x).boot = s.boot := rfl
@[simp] theorem State.setRegion_boots (s : State) (r : Nat) (x : Region) : (s.setRegion r x).boots = s.boots := rfl
@[simp] theorem State.setRegion_ticket (s : State) (r : Nat) (x : Region) : (s.setRegion r x).ticket = s.ticket := rfl
@[simp] theorem State.setRegion_hubTime (s : State) (r : Nat) (x : Region) : (s.setRegion r x).hubTime = s.hubTime := rfl
@[simp] theorem State.setRegion_nextUid (s : State) (r : Nat) (x : Region) : (s.setRegion r x).nextUid = s.nextUid := rfl
@[simp] theorem State.setRegion_cur (s : State) (r : Nat) (x : Region) : (s.setRegion r x).cur = s.cur := rfl
@[simp] theorem State.setRegion_held (s : State) (r : Nat) (x : Region) : (s.setRegion r x).held = s.held := rfl
@[simp] theorem State.setRegion_schedule (s : State) (r : Nat) (x : Region) : (s.setRegion r x).schedule = s.schedule := rfl
@[simp] theorem State.setRegion_fresh (s : State) (r : Nat) (x : Region) : (s.setRegion r x).fresh = s.fresh := rfl

@[simp] theorem State.setAd_mem (s : State) (a : Nat) (x : Ad) : (s.setAd a x).mem = s.mem := rfl
@[simp] theorem State.setAd_lines (s : State) (a : Nat) (x : Ad) : (s.setAd a x).lines = s.lines := rfl
@[simp] theorem State.setAd_cellFaults (s : State) (a : Nat) (x : Ad) : (s.setAd a x).cellFaults = s.cellFaults := rfl
@[simp] theorem State.setAd_badPackets (s : State) (a : Nat) (x : Ad) : (s.setAd a x).badPackets = s.badPackets := rfl
@[simp] theorem State.setAd_nonces (s : State) (a : Nat) (x : Ad) : (s.setAd a x).nonces = s.nonces := rfl
@[simp] theorem State.setAd_pot (s : State) (a : Nat) (x : Ad) : (s.setAd a x).pot = s.pot := rfl
@[simp] theorem State.setAd_gathers (s : State) (a : Nat) (x : Ad) : (s.setAd a x).gathers = s.gathers := rfl
@[simp] theorem State.setAd_oldCode (s : State) (a : Nat) (x : Ad) : (s.setAd a x).oldCode = s.oldCode := rfl
@[simp] theorem State.setAd_l1 (s : State) (a : Nat) (x : Ad) : (s.setAd a x).l1 = s.l1 := rfl
@[simp] theorem State.setAd_l2 (s : State) (a : Nat) (x : Ad) : (s.setAd a x).l2 = s.l2 := rfl
@[simp] theorem State.setAd_llc (s : State) (a : Nat) (x : Ad) : (s.setAd a x).llc = s.llc := rfl
@[simp] theorem State.setAd_dir (s : State) (a : Nat) (x : Ad) : (s.setAd a x).dir = s.dir := rfl
@[simp] theorem State.setAd_coh (s : State) (a : Nat) (x : Ad) : (s.setAd a x).coh = s.coh := rfl
@[simp] theorem State.setAd_drains (s : State) (a : Nat) (x : Ad) : (s.setAd a x).drains = s.drains := rfl
@[simp] theorem State.setAd_tlb (s : State) (a : Nat) (x : Ad) : (s.setAd a x).tlb = s.tlb := rfl
@[simp] theorem State.setAd_cores (s : State) (a : Nat) (x : Ad) : (s.setAd a x).cores = s.cores := rfl
@[simp] theorem State.setAd_teams (s : State) (a : Nat) (x : Ad) : (s.setAd a x).teams = s.teams := rfl
@[simp] theorem State.setAd_launches (s : State) (a : Nat) (x : Ad) : (s.setAd a x).launches = s.launches := rfl
@[simp] theorem State.setAd_ops (s : State) (a : Nat) (x : Ad) : (s.setAd a x).ops = s.ops := rfl
@[simp] theorem State.setAd_worlds (s : State) (a : Nat) (x : Ad) : (s.setAd a x).worlds = s.worlds := rfl
@[simp] theorem State.setAd_accounts (s : State) (a : Nat) (x : Ad) : (s.setAd a x).accounts = s.accounts := rfl
@[simp] theorem State.setAd_copyTurn (s : State) (a : Nat) (x : Ad) : (s.setAd a x).copyTurn = s.copyTurn := rfl
@[simp] theorem State.setAd_sources (s : State) (a : Nat) (x : Ad) : (s.setAd a x).sources = s.sources := rfl
@[simp] theorem State.setAd_sessions (s : State) (a : Nat) (x : Ad) : (s.setAd a x).sessions = s.sessions := rfl
@[simp] theorem State.setAd_sent (s : State) (a : Nat) (x : Ad) : (s.setAd a x).sent = s.sent := rfl
@[simp] theorem State.setAd_adverts (s : State) (a : Nat) (x : Ad) : (s.setAd a x).adverts = s.adverts := rfl
@[simp] theorem State.setAd_evFrame (s : State) (a : Nat) (x : Ad) : (s.setAd a x).evFrame = s.evFrame := rfl
@[simp] theorem State.setAd_regions (s : State) (a : Nat) (x : Ad) : (s.setAd a x).regions = s.regions := rfl
@[simp] theorem State.setAd_ads (s : State) (a : Nat) (x : Ad) : (s.setAd a x).ads = KMap.put s.ads a x := rfl
@[simp] theorem State.setAd_banks (s : State) (a : Nat) (x : Ad) : (s.setAd a x).banks = s.banks := rfl
@[simp] theorem State.setAd_dispctl (s : State) (a : Nat) (x : Ad) : (s.setAd a x).dispctl = s.dispctl := rfl
@[simp] theorem State.setAd_boostctl (s : State) (a : Nat) (x : Ad) : (s.setAd a x).boostctl = s.boostctl := rfl
@[simp] theorem State.setAd_pimctl (s : State) (a : Nat) (x : Ad) : (s.setAd a x).pimctl = s.pimctl := rfl
@[simp] theorem State.setAd_preemptctl (s : State) (a : Nat) (x : Ad) : (s.setAd a x).preemptctl = s.preemptctl := rfl
@[simp] theorem State.setAd_powerctl (s : State) (a : Nat) (x : Ad) : (s.setAd a x).powerctl = s.powerctl := rfl
@[simp] theorem State.setAd_layoutGen (s : State) (a : Nat) (x : Ad) : (s.setAd a x).layoutGen = s.layoutGen := rfl
@[simp] theorem State.setAd_power (s : State) (a : Nat) (x : Ad) : (s.setAd a x).power = s.power := rfl
@[simp] theorem State.setAd_soft (s : State) (a : Nat) (x : Ad) : (s.setAd a x).soft = s.soft := rfl
@[simp] theorem State.setAd_health (s : State) (a : Nat) (x : Ad) : (s.setAd a x).health = s.health := rfl
@[simp] theorem State.setAd_address (s : State) (a : Nat) (x : Ad) : (s.setAd a x).address = s.address := rfl
@[simp] theorem State.setAd_validAddrs (s : State) (a : Nat) (x : Ad) : (s.setAd a x).validAddrs = s.validAddrs := rfl
@[simp] theorem State.setAd_measLog (s : State) (a : Nat) (x : Ad) : (s.setAd a x).measLog = s.measLog := rfl
@[simp] theorem State.setAd_boot (s : State) (a : Nat) (x : Ad) : (s.setAd a x).boot = s.boot := rfl
@[simp] theorem State.setAd_boots (s : State) (a : Nat) (x : Ad) : (s.setAd a x).boots = s.boots := rfl
@[simp] theorem State.setAd_ticket (s : State) (a : Nat) (x : Ad) : (s.setAd a x).ticket = s.ticket := rfl
@[simp] theorem State.setAd_hubTime (s : State) (a : Nat) (x : Ad) : (s.setAd a x).hubTime = s.hubTime := rfl
@[simp] theorem State.setAd_nextUid (s : State) (a : Nat) (x : Ad) : (s.setAd a x).nextUid = s.nextUid := rfl
@[simp] theorem State.setAd_cur (s : State) (a : Nat) (x : Ad) : (s.setAd a x).cur = s.cur := rfl
@[simp] theorem State.setAd_held (s : State) (a : Nat) (x : Ad) : (s.setAd a x).held = s.held := rfl
@[simp] theorem State.setAd_schedule (s : State) (a : Nat) (x : Ad) : (s.setAd a x).schedule = s.schedule := rfl
@[simp] theorem State.setAd_fresh (s : State) (a : Nat) (x : Ad) : (s.setAd a x).fresh = s.fresh := rfl

@[simp] theorem State.retire_mem (s : State) (o : Op) : (s.retire o).mem = s.mem := rfl
@[simp] theorem State.retire_lines (s : State) (o : Op) : (s.retire o).lines = s.lines := rfl
@[simp] theorem State.retire_cellFaults (s : State) (o : Op) : (s.retire o).cellFaults = s.cellFaults := rfl
@[simp] theorem State.retire_badPackets (s : State) (o : Op) : (s.retire o).badPackets = s.badPackets := rfl
@[simp] theorem State.retire_nonces (s : State) (o : Op) : (s.retire o).nonces = s.nonces := rfl
@[simp] theorem State.retire_pot (s : State) (o : Op) : (s.retire o).pot = s.pot := rfl
@[simp] theorem State.retire_gathers (s : State) (o : Op) : (s.retire o).gathers = s.gathers := rfl
@[simp] theorem State.retire_oldCode (s : State) (o : Op) : (s.retire o).oldCode = s.oldCode := rfl
@[simp] theorem State.retire_l1 (s : State) (o : Op) : (s.retire o).l1 = s.l1 := rfl
@[simp] theorem State.retire_l2 (s : State) (o : Op) : (s.retire o).l2 = s.l2 := rfl
@[simp] theorem State.retire_llc (s : State) (o : Op) : (s.retire o).llc = s.llc := rfl
@[simp] theorem State.retire_dir (s : State) (o : Op) : (s.retire o).dir = s.dir := rfl
@[simp] theorem State.retire_coh (s : State) (o : Op) : (s.retire o).coh = s.coh := rfl
@[simp] theorem State.retire_drains (s : State) (o : Op) : (s.retire o).drains = s.drains := rfl
@[simp] theorem State.retire_tlb (s : State) (o : Op) : (s.retire o).tlb = s.tlb := rfl
@[simp] theorem State.retire_cores (s : State) (o : Op) : (s.retire o).cores = s.cores := rfl
@[simp] theorem State.retire_launches (s : State) (o : Op) : (s.retire o).launches = s.launches := rfl
@[simp] theorem State.retire_ops (s : State) (o : Op) : (s.retire o).ops = s.ops.filter fun x => x.id != o.id := rfl
@[simp] theorem State.retire_worlds (s : State) (o : Op) : (s.retire o).worlds = s.worlds := rfl
@[simp] theorem State.retire_accounts (s : State) (o : Op) : (s.retire o).accounts = s.accounts := rfl
@[simp] theorem State.retire_copyTurn (s : State) (o : Op) : (s.retire o).copyTurn = s.copyTurn := rfl
@[simp] theorem State.retire_sources (s : State) (o : Op) : (s.retire o).sources = s.sources := rfl
@[simp] theorem State.retire_sessions (s : State) (o : Op) : (s.retire o).sessions = s.sessions := rfl
@[simp] theorem State.retire_sent (s : State) (o : Op) : (s.retire o).sent = s.sent := rfl
@[simp] theorem State.retire_adverts (s : State) (o : Op) : (s.retire o).adverts = s.adverts := rfl
@[simp] theorem State.retire_evFrame (s : State) (o : Op) : (s.retire o).evFrame = s.evFrame := rfl
@[simp] theorem State.retire_regions (s : State) (o : Op) : (s.retire o).regions = s.regions := rfl
@[simp] theorem State.retire_ads (s : State) (o : Op) : (s.retire o).ads = s.ads := rfl
@[simp] theorem State.retire_banks (s : State) (o : Op) : (s.retire o).banks = s.banks := rfl
@[simp] theorem State.retire_dispctl (s : State) (o : Op) : (s.retire o).dispctl = s.dispctl := rfl
@[simp] theorem State.retire_boostctl (s : State) (o : Op) : (s.retire o).boostctl = s.boostctl := rfl
@[simp] theorem State.retire_pimctl (s : State) (o : Op) : (s.retire o).pimctl = s.pimctl := rfl
@[simp] theorem State.retire_preemptctl (s : State) (o : Op) : (s.retire o).preemptctl = s.preemptctl := rfl
@[simp] theorem State.retire_powerctl (s : State) (o : Op) : (s.retire o).powerctl = s.powerctl := rfl
@[simp] theorem State.retire_layoutGen (s : State) (o : Op) : (s.retire o).layoutGen = s.layoutGen := rfl
@[simp] theorem State.retire_power (s : State) (o : Op) : (s.retire o).power = s.power := rfl
@[simp] theorem State.retire_soft (s : State) (o : Op) : (s.retire o).soft = s.soft := rfl
@[simp] theorem State.retire_health (s : State) (o : Op) : (s.retire o).health = s.health := rfl
@[simp] theorem State.retire_address (s : State) (o : Op) : (s.retire o).address = s.address := rfl
@[simp] theorem State.retire_validAddrs (s : State) (o : Op) : (s.retire o).validAddrs = s.validAddrs := rfl
@[simp] theorem State.retire_measLog (s : State) (o : Op) : (s.retire o).measLog = s.measLog := rfl
@[simp] theorem State.retire_boot (s : State) (o : Op) : (s.retire o).boot = s.boot := rfl
@[simp] theorem State.retire_boots (s : State) (o : Op) : (s.retire o).boots = s.boots := rfl
@[simp] theorem State.retire_ticket (s : State) (o : Op) : (s.retire o).ticket = s.ticket := rfl
@[simp] theorem State.retire_hubTime (s : State) (o : Op) : (s.retire o).hubTime = s.hubTime := rfl
@[simp] theorem State.retire_nextUid (s : State) (o : Op) : (s.retire o).nextUid = s.nextUid := rfl
@[simp] theorem State.retire_cur (s : State) (o : Op) : (s.retire o).cur = s.cur := rfl
@[simp] theorem State.retire_held (s : State) (o : Op) : (s.retire o).held = s.held := rfl
@[simp] theorem State.retire_schedule (s : State) (o : Op) : (s.retire o).schedule = s.schedule := rfl
@[simp] theorem State.retire_fresh (s : State) (o : Op) : (s.retire o).fresh = s.fresh := rfl


@[simp] theorem State.post_mem (s : State) (ty world source : Nat) (body : List Byte) : (s.post ty world source body).mem = s.mem := rfl
@[simp] theorem State.post_lines (s : State) (ty world source : Nat) (body : List Byte) : (s.post ty world source body).lines = s.lines := rfl
@[simp] theorem State.post_cellFaults (s : State) (ty world source : Nat) (body : List Byte) : (s.post ty world source body).cellFaults = s.cellFaults := rfl
@[simp] theorem State.post_badPackets (s : State) (ty world source : Nat) (body : List Byte) : (s.post ty world source body).badPackets = s.badPackets := rfl
@[simp] theorem State.post_nonces (s : State) (ty world source : Nat) (body : List Byte) : (s.post ty world source body).nonces = s.nonces := rfl
@[simp] theorem State.post_pot (s : State) (ty world source : Nat) (body : List Byte) : (s.post ty world source body).pot = s.pot := rfl
@[simp] theorem State.post_gathers (s : State) (ty world source : Nat) (body : List Byte) : (s.post ty world source body).gathers = s.gathers := rfl
@[simp] theorem State.post_oldCode (s : State) (ty world source : Nat) (body : List Byte) : (s.post ty world source body).oldCode = s.oldCode := rfl
@[simp] theorem State.post_l1 (s : State) (ty world source : Nat) (body : List Byte) : (s.post ty world source body).l1 = s.l1 := rfl
@[simp] theorem State.post_l2 (s : State) (ty world source : Nat) (body : List Byte) : (s.post ty world source body).l2 = s.l2 := rfl
@[simp] theorem State.post_llc (s : State) (ty world source : Nat) (body : List Byte) : (s.post ty world source body).llc = s.llc := rfl
@[simp] theorem State.post_dir (s : State) (ty world source : Nat) (body : List Byte) : (s.post ty world source body).dir = s.dir := rfl
@[simp] theorem State.post_coh (s : State) (ty world source : Nat) (body : List Byte) : (s.post ty world source body).coh = s.coh := rfl
@[simp] theorem State.post_drains (s : State) (ty world source : Nat) (body : List Byte) : (s.post ty world source body).drains = s.drains := rfl
@[simp] theorem State.post_tlb (s : State) (ty world source : Nat) (body : List Byte) : (s.post ty world source body).tlb = s.tlb := rfl
@[simp] theorem State.post_cores (s : State) (ty world source : Nat) (body : List Byte) : (s.post ty world source body).cores = s.cores := rfl
@[simp] theorem State.post_teams (s : State) (ty world source : Nat) (body : List Byte) : (s.post ty world source body).teams = s.teams := rfl
@[simp] theorem State.post_launches (s : State) (ty world source : Nat) (body : List Byte) : (s.post ty world source body).launches = s.launches := rfl
@[simp] theorem State.post_ops (s : State) (ty world source : Nat) (body : List Byte) : (s.post ty world source body).ops = s.ops := rfl
@[simp] theorem State.post_worlds (s : State) (ty world source : Nat) (body : List Byte) : (s.post ty world source body).worlds = s.worlds := rfl
@[simp] theorem State.post_accounts (s : State) (ty world source : Nat) (body : List Byte) : (s.post ty world source body).accounts = s.accounts := rfl
@[simp] theorem State.post_copyTurn (s : State) (ty world source : Nat) (body : List Byte) : (s.post ty world source body).copyTurn = s.copyTurn := rfl
@[simp] theorem State.post_sessions (s : State) (ty world source : Nat) (body : List Byte) : (s.post ty world source body).sessions = s.sessions := rfl
@[simp] theorem State.post_sent (s : State) (ty world source : Nat) (body : List Byte) : (s.post ty world source body).sent = s.sent := rfl
@[simp] theorem State.post_adverts (s : State) (ty world source : Nat) (body : List Byte) : (s.post ty world source body).adverts = s.adverts := rfl
@[simp] theorem State.post_evFrame (s : State) (ty world source : Nat) (body : List Byte) : (s.post ty world source body).evFrame = s.evFrame := rfl
@[simp] theorem State.post_regions (s : State) (ty world source : Nat) (body : List Byte) : (s.post ty world source body).regions = s.regions := rfl
@[simp] theorem State.post_ads (s : State) (ty world source : Nat) (body : List Byte) : (s.post ty world source body).ads = s.ads := rfl
@[simp] theorem State.post_banks (s : State) (ty world source : Nat) (body : List Byte) : (s.post ty world source body).banks = s.banks := rfl
@[simp] theorem State.post_dispctl (s : State) (ty world source : Nat) (body : List Byte) : (s.post ty world source body).dispctl = s.dispctl := rfl
@[simp] theorem State.post_boostctl (s : State) (ty world source : Nat) (body : List Byte) : (s.post ty world source body).boostctl = s.boostctl := rfl
@[simp] theorem State.post_pimctl (s : State) (ty world source : Nat) (body : List Byte) : (s.post ty world source body).pimctl = s.pimctl := rfl
@[simp] theorem State.post_preemptctl (s : State) (ty world source : Nat) (body : List Byte) : (s.post ty world source body).preemptctl = s.preemptctl := rfl
@[simp] theorem State.post_powerctl (s : State) (ty world source : Nat) (body : List Byte) : (s.post ty world source body).powerctl = s.powerctl := rfl
@[simp] theorem State.post_layoutGen (s : State) (ty world source : Nat) (body : List Byte) : (s.post ty world source body).layoutGen = s.layoutGen := rfl
@[simp] theorem State.post_power (s : State) (ty world source : Nat) (body : List Byte) : (s.post ty world source body).power = s.power := rfl
@[simp] theorem State.post_soft (s : State) (ty world source : Nat) (body : List Byte) : (s.post ty world source body).soft = s.soft := rfl
@[simp] theorem State.post_health (s : State) (ty world source : Nat) (body : List Byte) : (s.post ty world source body).health = s.health := rfl
@[simp] theorem State.post_address (s : State) (ty world source : Nat) (body : List Byte) : (s.post ty world source body).address = s.address := rfl
@[simp] theorem State.post_validAddrs (s : State) (ty world source : Nat) (body : List Byte) : (s.post ty world source body).validAddrs = s.validAddrs := rfl
@[simp] theorem State.post_measLog (s : State) (ty world source : Nat) (body : List Byte) : (s.post ty world source body).measLog = s.measLog := rfl
@[simp] theorem State.post_boot (s : State) (ty world source : Nat) (body : List Byte) : (s.post ty world source body).boot = s.boot := rfl
@[simp] theorem State.post_boots (s : State) (ty world source : Nat) (body : List Byte) : (s.post ty world source body).boots = s.boots := rfl
@[simp] theorem State.post_ticket (s : State) (ty world source : Nat) (body : List Byte) : (s.post ty world source body).ticket = s.ticket := rfl
@[simp] theorem State.post_hubTime (s : State) (ty world source : Nat) (body : List Byte) : (s.post ty world source body).hubTime = s.hubTime := rfl
@[simp] theorem State.post_nextUid (s : State) (ty world source : Nat) (body : List Byte) : (s.post ty world source body).nextUid = s.nextUid := rfl
@[simp] theorem State.post_cur (s : State) (ty world source : Nat) (body : List Byte) : (s.post ty world source body).cur = s.cur := rfl
@[simp] theorem State.post_held (s : State) (ty world source : Nat) (body : List Byte) : (s.post ty world source body).held = s.held := rfl
@[simp] theorem State.post_schedule (s : State) (ty world source : Nat) (body : List Byte) : (s.post ty world source body).schedule = s.schedule := rfl
@[simp] theorem State.post_fresh (s : State) (ty world source : Nat) (body : List Byte) : (s.post ty world source body).fresh = s.fresh := rfl
@[simp] theorem State.setLineMeta_mem (s : State) (line : Nat) (m : LineMeta) : (s.setLineMeta line m).mem = s.mem := rfl
@[simp] theorem State.setLineMeta_cellFaults (s : State) (line : Nat) (m : LineMeta) : (s.setLineMeta line m).cellFaults = s.cellFaults := rfl
@[simp] theorem State.setLineMeta_badPackets (s : State) (line : Nat) (m : LineMeta) : (s.setLineMeta line m).badPackets = s.badPackets := rfl
@[simp] theorem State.setLineMeta_nonces (s : State) (line : Nat) (m : LineMeta) : (s.setLineMeta line m).nonces = s.nonces := rfl
@[simp] theorem State.setLineMeta_pot (s : State) (line : Nat) (m : LineMeta) : (s.setLineMeta line m).pot = s.pot := rfl
@[simp] theorem State.setLineMeta_gathers (s : State) (line : Nat) (m : LineMeta) : (s.setLineMeta line m).gathers = s.gathers := rfl
@[simp] theorem State.setLineMeta_oldCode (s : State) (line : Nat) (m : LineMeta) : (s.setLineMeta line m).oldCode = s.oldCode := rfl
@[simp] theorem State.setLineMeta_l1 (s : State) (line : Nat) (m : LineMeta) : (s.setLineMeta line m).l1 = s.l1 := rfl
@[simp] theorem State.setLineMeta_l2 (s : State) (line : Nat) (m : LineMeta) : (s.setLineMeta line m).l2 = s.l2 := rfl
@[simp] theorem State.setLineMeta_llc (s : State) (line : Nat) (m : LineMeta) : (s.setLineMeta line m).llc = s.llc := rfl
@[simp] theorem State.setLineMeta_dir (s : State) (line : Nat) (m : LineMeta) : (s.setLineMeta line m).dir = s.dir := rfl
@[simp] theorem State.setLineMeta_coh (s : State) (line : Nat) (m : LineMeta) : (s.setLineMeta line m).coh = s.coh := rfl
@[simp] theorem State.setLineMeta_drains (s : State) (line : Nat) (m : LineMeta) : (s.setLineMeta line m).drains = s.drains := rfl
@[simp] theorem State.setLineMeta_tlb (s : State) (line : Nat) (m : LineMeta) : (s.setLineMeta line m).tlb = s.tlb := rfl
@[simp] theorem State.setLineMeta_cores (s : State) (line : Nat) (m : LineMeta) : (s.setLineMeta line m).cores = s.cores := rfl
@[simp] theorem State.setLineMeta_teams (s : State) (line : Nat) (m : LineMeta) : (s.setLineMeta line m).teams = s.teams := rfl
@[simp] theorem State.setLineMeta_launches (s : State) (line : Nat) (m : LineMeta) : (s.setLineMeta line m).launches = s.launches := rfl
@[simp] theorem State.setLineMeta_ops (s : State) (line : Nat) (m : LineMeta) : (s.setLineMeta line m).ops = s.ops := rfl
@[simp] theorem State.setLineMeta_worlds (s : State) (line : Nat) (m : LineMeta) : (s.setLineMeta line m).worlds = s.worlds := rfl
@[simp] theorem State.setLineMeta_accounts (s : State) (line : Nat) (m : LineMeta) : (s.setLineMeta line m).accounts = s.accounts := rfl
@[simp] theorem State.setLineMeta_copyTurn (s : State) (line : Nat) (m : LineMeta) : (s.setLineMeta line m).copyTurn = s.copyTurn := rfl
@[simp] theorem State.setLineMeta_sources (s : State) (line : Nat) (m : LineMeta) : (s.setLineMeta line m).sources = s.sources := rfl
@[simp] theorem State.setLineMeta_sessions (s : State) (line : Nat) (m : LineMeta) : (s.setLineMeta line m).sessions = s.sessions := rfl
@[simp] theorem State.setLineMeta_sent (s : State) (line : Nat) (m : LineMeta) : (s.setLineMeta line m).sent = s.sent := rfl
@[simp] theorem State.setLineMeta_adverts (s : State) (line : Nat) (m : LineMeta) : (s.setLineMeta line m).adverts = s.adverts := rfl
@[simp] theorem State.setLineMeta_evFrame (s : State) (line : Nat) (m : LineMeta) : (s.setLineMeta line m).evFrame = s.evFrame := rfl
@[simp] theorem State.setLineMeta_regions (s : State) (line : Nat) (m : LineMeta) : (s.setLineMeta line m).regions = s.regions := rfl
@[simp] theorem State.setLineMeta_ads (s : State) (line : Nat) (m : LineMeta) : (s.setLineMeta line m).ads = s.ads := rfl
@[simp] theorem State.setLineMeta_banks (s : State) (line : Nat) (m : LineMeta) : (s.setLineMeta line m).banks = s.banks := rfl
@[simp] theorem State.setLineMeta_dispctl (s : State) (line : Nat) (m : LineMeta) : (s.setLineMeta line m).dispctl = s.dispctl := rfl
@[simp] theorem State.setLineMeta_boostctl (s : State) (line : Nat) (m : LineMeta) : (s.setLineMeta line m).boostctl = s.boostctl := rfl
@[simp] theorem State.setLineMeta_pimctl (s : State) (line : Nat) (m : LineMeta) : (s.setLineMeta line m).pimctl = s.pimctl := rfl
@[simp] theorem State.setLineMeta_preemptctl (s : State) (line : Nat) (m : LineMeta) : (s.setLineMeta line m).preemptctl = s.preemptctl := rfl
@[simp] theorem State.setLineMeta_powerctl (s : State) (line : Nat) (m : LineMeta) : (s.setLineMeta line m).powerctl = s.powerctl := rfl
@[simp] theorem State.setLineMeta_layoutGen (s : State) (line : Nat) (m : LineMeta) : (s.setLineMeta line m).layoutGen = s.layoutGen := rfl
@[simp] theorem State.setLineMeta_power (s : State) (line : Nat) (m : LineMeta) : (s.setLineMeta line m).power = s.power := rfl
@[simp] theorem State.setLineMeta_soft (s : State) (line : Nat) (m : LineMeta) : (s.setLineMeta line m).soft = s.soft := rfl
@[simp] theorem State.setLineMeta_health (s : State) (line : Nat) (m : LineMeta) : (s.setLineMeta line m).health = s.health := rfl
@[simp] theorem State.setLineMeta_address (s : State) (line : Nat) (m : LineMeta) : (s.setLineMeta line m).address = s.address := rfl
@[simp] theorem State.setLineMeta_validAddrs (s : State) (line : Nat) (m : LineMeta) : (s.setLineMeta line m).validAddrs = s.validAddrs := rfl
@[simp] theorem State.setLineMeta_measLog (s : State) (line : Nat) (m : LineMeta) : (s.setLineMeta line m).measLog = s.measLog := rfl
@[simp] theorem State.setLineMeta_boot (s : State) (line : Nat) (m : LineMeta) : (s.setLineMeta line m).boot = s.boot := rfl
@[simp] theorem State.setLineMeta_boots (s : State) (line : Nat) (m : LineMeta) : (s.setLineMeta line m).boots = s.boots := rfl
@[simp] theorem State.setLineMeta_ticket (s : State) (line : Nat) (m : LineMeta) : (s.setLineMeta line m).ticket = s.ticket := rfl
@[simp] theorem State.setLineMeta_hubTime (s : State) (line : Nat) (m : LineMeta) : (s.setLineMeta line m).hubTime = s.hubTime := rfl
@[simp] theorem State.setLineMeta_nextUid (s : State) (line : Nat) (m : LineMeta) : (s.setLineMeta line m).nextUid = s.nextUid := rfl
@[simp] theorem State.setLineMeta_cur (s : State) (line : Nat) (m : LineMeta) : (s.setLineMeta line m).cur = s.cur := rfl
@[simp] theorem State.setLineMeta_held (s : State) (line : Nat) (m : LineMeta) : (s.setLineMeta line m).held = s.held := rfl
@[simp] theorem State.setLineMeta_schedule (s : State) (line : Nat) (m : LineMeta) : (s.setLineMeta line m).schedule = s.schedule := rfl
@[simp] theorem State.setLineMeta_fresh (s : State) (line : Nat) (m : LineMeta) : (s.setLineMeta line m).fresh = s.fresh := rfl

@[simp] theorem Warp.goto_slot (w : Warp) (a : DWord) : (w.goto a).slot = w.slot := rfl
@[simp] theorem Warp.goto_sregs (w : Warp) (a : DWord) : (w.goto a).sregs = w.sregs := rfl
@[simp] theorem Warp.goto_vregs (w : Warp) (a : DWord) : (w.goto a).vregs = w.vregs := rfl
@[simp] theorem Warp.goto_preds (w : Warp) (a : DWord) : (w.goto a).preds = w.preds := rfl
@[simp] theorem Warp.goto_poison (w : Warp) (a : DWord) : (w.goto a).poison = w.poison := rfl
@[simp] theorem Warp.goto_active (w : Warp) (a : DWord) : (w.goto a).active = w.active := rfl
@[simp] theorem Warp.goto_live (w : Warp) (a : DWord) : (w.goto a).live = w.live := rfl
@[simp] theorem Warp.goto_hdr (w : Warp) (a : DWord) : (w.goto a).hdr = a := rfl
@[simp] theorem Warp.goto_idx (w : Warp) (a : DWord) : (w.goto a).idx = 0 := rfl
@[simp] theorem Warp.goto_clause (w : Warp) (a : DWord) : (w.goto a).clause = none := rfl
@[simp] theorem Warp.goto_stack (w : Warp) (a : DWord) : (w.goto a).stack = w.stack := rfl
@[simp] theorem Warp.goto_rstack (w : Warp) (a : DWord) : (w.goto a).rstack = w.rstack := rfl
@[simp] theorem Warp.goto_rspill (w : Warp) (a : DWord) : (w.goto a).rspill = w.rspill := rfl
@[simp] theorem Warp.goto_cntL (w : Warp) (a : DWord) : (w.goto a).cntL = w.cntL := rfl
@[simp] theorem Warp.goto_cntS (w : Warp) (a : DWord) : (w.goto a).cntS = w.cntS := rfl
@[simp] theorem Warp.goto_cntC (w : Warp) (a : DWord) : (w.goto a).cntC = w.cntC := rfl
@[simp] theorem Warp.goto_cntT (w : Warp) (a : DWord) : (w.goto a).cntT = w.cntT := rfl
@[simp] theorem Warp.goto_tokens (w : Warp) (a : DWord) : (w.goto a).tokens = w.tokens := rfl
@[simp] theorem Warp.goto_fpmode (w : Warp) (a : DWord) : (w.goto a).fpmode = w.fpmode := rfl
@[simp] theorem Warp.goto_fpstat (w : Warp) (a : DWord) : (w.goto a).fpstat = w.fpstat := rfl
@[simp] theorem Warp.goto_repcnt (w : Warp) (a : DWord) : (w.goto a).repcnt = w.repcnt := rfl
@[simp] theorem Warp.goto_tprog (w : Warp) (a : DWord) : (w.goto a).tprog = w.tprog := rfl
@[simp] theorem Warp.goto_intrap (w : Warp) (a : DWord) : (w.goto a).intrap = w.intrap := rfl
@[simp] theorem Warp.goto_park (w : Warp) (a : DWord) : (w.goto a).park = w.park := rfl
@[simp] theorem Warp.goto_arrivals (w : Warp) (a : DWord) : (w.goto a).arrivals = w.arrivals := rfl
@[simp] theorem Warp.goto_status (w : Warp) (a : DWord) : (w.goto a).status = w.status := rfl
@[simp] theorem Warp.goto_skip (w : Warp) (a : DWord) : (w.goto a).skip = w.skip := rfl
@[simp] theorem Warp.goto_age (w : Warp) (a : DWord) : (w.goto a).age = w.age := rfl
@[simp] theorem Warp.goto_fenced (w : Warp) (a : DWord) : (w.goto a).fenced = w.fenced := rfl
@[simp] theorem Warp.goto_yielded (w : Warp) (a : DWord) : (w.goto a).yielded = w.yielded := rfl
@[simp] theorem Warp.goto_inRep (w : Warp) (a : DWord) : (w.goto a).inRep = w.inRep := rfl
@[simp] theorem Warp.goto_monitors (w : Warp) (a : DWord) : (w.goto a).monitors = w.monitors := rfl
@[simp] theorem Warp.goto_watched (w : Warp) (a : DWord) : (w.goto a).watched = w.watched := rfl

@[simp] theorem Warp.setToken_slot (w : Warp) (k : Nat) (n : Nat) : (w.setToken k n).slot = w.slot := rfl
@[simp] theorem Warp.setToken_sregs (w : Warp) (k : Nat) (n : Nat) : (w.setToken k n).sregs = w.sregs := rfl
@[simp] theorem Warp.setToken_vregs (w : Warp) (k : Nat) (n : Nat) : (w.setToken k n).vregs = w.vregs := rfl
@[simp] theorem Warp.setToken_preds (w : Warp) (k : Nat) (n : Nat) : (w.setToken k n).preds = w.preds := rfl
@[simp] theorem Warp.setToken_poison (w : Warp) (k : Nat) (n : Nat) : (w.setToken k n).poison = w.poison := rfl
@[simp] theorem Warp.setToken_active (w : Warp) (k : Nat) (n : Nat) : (w.setToken k n).active = w.active := rfl
@[simp] theorem Warp.setToken_live (w : Warp) (k : Nat) (n : Nat) : (w.setToken k n).live = w.live := rfl
@[simp] theorem Warp.setToken_hdr (w : Warp) (k : Nat) (n : Nat) : (w.setToken k n).hdr = w.hdr := rfl
@[simp] theorem Warp.setToken_idx (w : Warp) (k : Nat) (n : Nat) : (w.setToken k n).idx = w.idx := rfl
@[simp] theorem Warp.setToken_clause (w : Warp) (k : Nat) (n : Nat) : (w.setToken k n).clause = w.clause := rfl
@[simp] theorem Warp.setToken_stack (w : Warp) (k : Nat) (n : Nat) : (w.setToken k n).stack = w.stack := rfl
@[simp] theorem Warp.setToken_rstack (w : Warp) (k : Nat) (n : Nat) : (w.setToken k n).rstack = w.rstack := rfl
@[simp] theorem Warp.setToken_rspill (w : Warp) (k : Nat) (n : Nat) : (w.setToken k n).rspill = w.rspill := rfl
@[simp] theorem Warp.setToken_cntL (w : Warp) (k : Nat) (n : Nat) : (w.setToken k n).cntL = w.cntL := rfl
@[simp] theorem Warp.setToken_cntS (w : Warp) (k : Nat) (n : Nat) : (w.setToken k n).cntS = w.cntS := rfl
@[simp] theorem Warp.setToken_cntC (w : Warp) (k : Nat) (n : Nat) : (w.setToken k n).cntC = w.cntC := rfl
@[simp] theorem Warp.setToken_cntT (w : Warp) (k : Nat) (n : Nat) : (w.setToken k n).cntT = w.cntT := rfl
@[simp] theorem Warp.setToken_tokens (w : Warp) (k : Nat) (n : Nat) : (w.setToken k n).tokens = Sparse.set 0 w.tokens k n := rfl
@[simp] theorem Warp.setToken_fpmode (w : Warp) (k : Nat) (n : Nat) : (w.setToken k n).fpmode = w.fpmode := rfl
@[simp] theorem Warp.setToken_fpstat (w : Warp) (k : Nat) (n : Nat) : (w.setToken k n).fpstat = w.fpstat := rfl
@[simp] theorem Warp.setToken_repcnt (w : Warp) (k : Nat) (n : Nat) : (w.setToken k n).repcnt = w.repcnt := rfl
@[simp] theorem Warp.setToken_tprog (w : Warp) (k : Nat) (n : Nat) : (w.setToken k n).tprog = w.tprog := rfl
@[simp] theorem Warp.setToken_intrap (w : Warp) (k : Nat) (n : Nat) : (w.setToken k n).intrap = w.intrap := rfl
@[simp] theorem Warp.setToken_park (w : Warp) (k : Nat) (n : Nat) : (w.setToken k n).park = w.park := rfl
@[simp] theorem Warp.setToken_arrivals (w : Warp) (k : Nat) (n : Nat) : (w.setToken k n).arrivals = w.arrivals := rfl
@[simp] theorem Warp.setToken_status (w : Warp) (k : Nat) (n : Nat) : (w.setToken k n).status = w.status := rfl
@[simp] theorem Warp.setToken_skip (w : Warp) (k : Nat) (n : Nat) : (w.setToken k n).skip = w.skip := rfl
@[simp] theorem Warp.setToken_age (w : Warp) (k : Nat) (n : Nat) : (w.setToken k n).age = w.age := rfl
@[simp] theorem Warp.setToken_fenced (w : Warp) (k : Nat) (n : Nat) : (w.setToken k n).fenced = w.fenced := rfl
@[simp] theorem Warp.setToken_yielded (w : Warp) (k : Nat) (n : Nat) : (w.setToken k n).yielded = w.yielded := rfl
@[simp] theorem Warp.setToken_inRep (w : Warp) (k : Nat) (n : Nat) : (w.setToken k n).inRep = w.inRep := rfl
@[simp] theorem Warp.setToken_monitors (w : Warp) (k : Nat) (n : Nat) : (w.setToken k n).monitors = w.monitors := rfl
@[simp] theorem Warp.setToken_watched (w : Warp) (k : Nat) (n : Nat) : (w.setToken k n).watched = w.watched := rfl

@[simp] theorem Warp.vset_slot (w : Warp) (r : Nat) (l : Nat) (v : Word) : (w.vset r l v).slot = w.slot := rfl
@[simp] theorem Warp.vset_sregs (w : Warp) (r : Nat) (l : Nat) (v : Word) : (w.vset r l v).sregs = w.sregs := rfl
@[simp] theorem Warp.vset_vregs (w : Warp) (r : Nat) (l : Nat) (v : Word) : (w.vset r l v).vregs = Sparse.set 0 w.vregs (vkey r l) v := rfl
@[simp] theorem Warp.vset_preds (w : Warp) (r : Nat) (l : Nat) (v : Word) : (w.vset r l v).preds = w.preds := rfl
@[simp] theorem Warp.vset_poison (w : Warp) (r : Nat) (l : Nat) (v : Word) : (w.vset r l v).poison = KMap.erase w.poison (vkey r l) := rfl
@[simp] theorem Warp.vset_active (w : Warp) (r : Nat) (l : Nat) (v : Word) : (w.vset r l v).active = w.active := rfl
@[simp] theorem Warp.vset_live (w : Warp) (r : Nat) (l : Nat) (v : Word) : (w.vset r l v).live = w.live := rfl
@[simp] theorem Warp.vset_hdr (w : Warp) (r : Nat) (l : Nat) (v : Word) : (w.vset r l v).hdr = w.hdr := rfl
@[simp] theorem Warp.vset_idx (w : Warp) (r : Nat) (l : Nat) (v : Word) : (w.vset r l v).idx = w.idx := rfl
@[simp] theorem Warp.vset_clause (w : Warp) (r : Nat) (l : Nat) (v : Word) : (w.vset r l v).clause = w.clause := rfl
@[simp] theorem Warp.vset_stack (w : Warp) (r : Nat) (l : Nat) (v : Word) : (w.vset r l v).stack = w.stack := rfl
@[simp] theorem Warp.vset_rstack (w : Warp) (r : Nat) (l : Nat) (v : Word) : (w.vset r l v).rstack = w.rstack := rfl
@[simp] theorem Warp.vset_rspill (w : Warp) (r : Nat) (l : Nat) (v : Word) : (w.vset r l v).rspill = w.rspill := rfl
@[simp] theorem Warp.vset_cntL (w : Warp) (r : Nat) (l : Nat) (v : Word) : (w.vset r l v).cntL = w.cntL := rfl
@[simp] theorem Warp.vset_cntS (w : Warp) (r : Nat) (l : Nat) (v : Word) : (w.vset r l v).cntS = w.cntS := rfl
@[simp] theorem Warp.vset_cntC (w : Warp) (r : Nat) (l : Nat) (v : Word) : (w.vset r l v).cntC = w.cntC := rfl
@[simp] theorem Warp.vset_cntT (w : Warp) (r : Nat) (l : Nat) (v : Word) : (w.vset r l v).cntT = w.cntT := rfl
@[simp] theorem Warp.vset_tokens (w : Warp) (r : Nat) (l : Nat) (v : Word) : (w.vset r l v).tokens = w.tokens := rfl
@[simp] theorem Warp.vset_fpmode (w : Warp) (r : Nat) (l : Nat) (v : Word) : (w.vset r l v).fpmode = w.fpmode := rfl
@[simp] theorem Warp.vset_fpstat (w : Warp) (r : Nat) (l : Nat) (v : Word) : (w.vset r l v).fpstat = w.fpstat := rfl
@[simp] theorem Warp.vset_repcnt (w : Warp) (r : Nat) (l : Nat) (v : Word) : (w.vset r l v).repcnt = w.repcnt := rfl
@[simp] theorem Warp.vset_tprog (w : Warp) (r : Nat) (l : Nat) (v : Word) : (w.vset r l v).tprog = w.tprog := rfl
@[simp] theorem Warp.vset_intrap (w : Warp) (r : Nat) (l : Nat) (v : Word) : (w.vset r l v).intrap = w.intrap := rfl
@[simp] theorem Warp.vset_park (w : Warp) (r : Nat) (l : Nat) (v : Word) : (w.vset r l v).park = w.park := rfl
@[simp] theorem Warp.vset_arrivals (w : Warp) (r : Nat) (l : Nat) (v : Word) : (w.vset r l v).arrivals = w.arrivals := rfl
@[simp] theorem Warp.vset_status (w : Warp) (r : Nat) (l : Nat) (v : Word) : (w.vset r l v).status = w.status := rfl
@[simp] theorem Warp.vset_skip (w : Warp) (r : Nat) (l : Nat) (v : Word) : (w.vset r l v).skip = w.skip := rfl
@[simp] theorem Warp.vset_age (w : Warp) (r : Nat) (l : Nat) (v : Word) : (w.vset r l v).age = w.age := rfl
@[simp] theorem Warp.vset_fenced (w : Warp) (r : Nat) (l : Nat) (v : Word) : (w.vset r l v).fenced = w.fenced := rfl
@[simp] theorem Warp.vset_yielded (w : Warp) (r : Nat) (l : Nat) (v : Word) : (w.vset r l v).yielded = w.yielded := rfl
@[simp] theorem Warp.vset_inRep (w : Warp) (r : Nat) (l : Nat) (v : Word) : (w.vset r l v).inRep = w.inRep := rfl
@[simp] theorem Warp.vset_monitors (w : Warp) (r : Nat) (l : Nat) (v : Word) : (w.vset r l v).monitors = w.monitors := rfl
@[simp] theorem Warp.vset_watched (w : Warp) (r : Nat) (l : Nat) (v : Word) : (w.vset r l v).watched = w.watched := rfl

@[simp] theorem Warp.sset_slot (w : Warp) (r : Nat) (v : Word) : (w.sset r v).slot = w.slot := by unfold Warp.sset; split <;> rfl
@[simp] theorem Warp.sset_vregs (w : Warp) (r : Nat) (v : Word) : (w.sset r v).vregs = w.vregs := by unfold Warp.sset; split <;> rfl
@[simp] theorem Warp.sset_preds (w : Warp) (r : Nat) (v : Word) : (w.sset r v).preds = w.preds := by unfold Warp.sset; split <;> rfl
@[simp] theorem Warp.sset_poison (w : Warp) (r : Nat) (v : Word) : (w.sset r v).poison = w.poison := by unfold Warp.sset; split <;> rfl
@[simp] theorem Warp.sset_active (w : Warp) (r : Nat) (v : Word) : (w.sset r v).active = w.active := by unfold Warp.sset; split <;> rfl
@[simp] theorem Warp.sset_live (w : Warp) (r : Nat) (v : Word) : (w.sset r v).live = w.live := by unfold Warp.sset; split <;> rfl
@[simp] theorem Warp.sset_hdr (w : Warp) (r : Nat) (v : Word) : (w.sset r v).hdr = w.hdr := by unfold Warp.sset; split <;> rfl
@[simp] theorem Warp.sset_idx (w : Warp) (r : Nat) (v : Word) : (w.sset r v).idx = w.idx := by unfold Warp.sset; split <;> rfl
@[simp] theorem Warp.sset_clause (w : Warp) (r : Nat) (v : Word) : (w.sset r v).clause = w.clause := by unfold Warp.sset; split <;> rfl
@[simp] theorem Warp.sset_stack (w : Warp) (r : Nat) (v : Word) : (w.sset r v).stack = w.stack := by unfold Warp.sset; split <;> rfl
@[simp] theorem Warp.sset_rstack (w : Warp) (r : Nat) (v : Word) : (w.sset r v).rstack = w.rstack := by unfold Warp.sset; split <;> rfl
@[simp] theorem Warp.sset_rspill (w : Warp) (r : Nat) (v : Word) : (w.sset r v).rspill = w.rspill := by unfold Warp.sset; split <;> rfl
@[simp] theorem Warp.sset_cntL (w : Warp) (r : Nat) (v : Word) : (w.sset r v).cntL = w.cntL := by unfold Warp.sset; split <;> rfl
@[simp] theorem Warp.sset_cntS (w : Warp) (r : Nat) (v : Word) : (w.sset r v).cntS = w.cntS := by unfold Warp.sset; split <;> rfl
@[simp] theorem Warp.sset_cntC (w : Warp) (r : Nat) (v : Word) : (w.sset r v).cntC = w.cntC := by unfold Warp.sset; split <;> rfl
@[simp] theorem Warp.sset_cntT (w : Warp) (r : Nat) (v : Word) : (w.sset r v).cntT = w.cntT := by unfold Warp.sset; split <;> rfl
@[simp] theorem Warp.sset_tokens (w : Warp) (r : Nat) (v : Word) : (w.sset r v).tokens = w.tokens := by unfold Warp.sset; split <;> rfl
@[simp] theorem Warp.sset_fpmode (w : Warp) (r : Nat) (v : Word) : (w.sset r v).fpmode = w.fpmode := by unfold Warp.sset; split <;> rfl
@[simp] theorem Warp.sset_fpstat (w : Warp) (r : Nat) (v : Word) : (w.sset r v).fpstat = w.fpstat := by unfold Warp.sset; split <;> rfl
@[simp] theorem Warp.sset_repcnt (w : Warp) (r : Nat) (v : Word) : (w.sset r v).repcnt = w.repcnt := by unfold Warp.sset; split <;> rfl
@[simp] theorem Warp.sset_tprog (w : Warp) (r : Nat) (v : Word) : (w.sset r v).tprog = w.tprog := by unfold Warp.sset; split <;> rfl
@[simp] theorem Warp.sset_intrap (w : Warp) (r : Nat) (v : Word) : (w.sset r v).intrap = w.intrap := by unfold Warp.sset; split <;> rfl
@[simp] theorem Warp.sset_park (w : Warp) (r : Nat) (v : Word) : (w.sset r v).park = w.park := by unfold Warp.sset; split <;> rfl
@[simp] theorem Warp.sset_arrivals (w : Warp) (r : Nat) (v : Word) : (w.sset r v).arrivals = w.arrivals := by unfold Warp.sset; split <;> rfl
@[simp] theorem Warp.sset_status (w : Warp) (r : Nat) (v : Word) : (w.sset r v).status = w.status := by unfold Warp.sset; split <;> rfl
@[simp] theorem Warp.sset_skip (w : Warp) (r : Nat) (v : Word) : (w.sset r v).skip = w.skip := by unfold Warp.sset; split <;> rfl
@[simp] theorem Warp.sset_age (w : Warp) (r : Nat) (v : Word) : (w.sset r v).age = w.age := by unfold Warp.sset; split <;> rfl
@[simp] theorem Warp.sset_fenced (w : Warp) (r : Nat) (v : Word) : (w.sset r v).fenced = w.fenced := by unfold Warp.sset; split <;> rfl
@[simp] theorem Warp.sset_yielded (w : Warp) (r : Nat) (v : Word) : (w.sset r v).yielded = w.yielded := by unfold Warp.sset; split <;> rfl
@[simp] theorem Warp.sset_inRep (w : Warp) (r : Nat) (v : Word) : (w.sset r v).inRep = w.inRep := by unfold Warp.sset; split <;> rfl
@[simp] theorem Warp.sset_monitors (w : Warp) (r : Nat) (v : Word) : (w.sset r v).monitors = w.monitors := by unfold Warp.sset; split <;> rfl
@[simp] theorem Warp.sset_watched (w : Warp) (r : Nat) (v : Word) : (w.sset r v).watched = w.watched := by unfold Warp.sset; split <;> rfl
@[simp] theorem Warp.sset64_slot (w : Warp) (r : Nat) (v : DWord) : (w.sset64 r v).slot = w.slot := by simp [Warp.sset64]
@[simp] theorem Warp.sset64_vregs (w : Warp) (r : Nat) (v : DWord) : (w.sset64 r v).vregs = w.vregs := by simp [Warp.sset64]
@[simp] theorem Warp.sset64_preds (w : Warp) (r : Nat) (v : DWord) : (w.sset64 r v).preds = w.preds := by simp [Warp.sset64]
@[simp] theorem Warp.sset64_poison (w : Warp) (r : Nat) (v : DWord) : (w.sset64 r v).poison = w.poison := by simp [Warp.sset64]
@[simp] theorem Warp.sset64_active (w : Warp) (r : Nat) (v : DWord) : (w.sset64 r v).active = w.active := by simp [Warp.sset64]
@[simp] theorem Warp.sset64_live (w : Warp) (r : Nat) (v : DWord) : (w.sset64 r v).live = w.live := by simp [Warp.sset64]
@[simp] theorem Warp.sset64_hdr (w : Warp) (r : Nat) (v : DWord) : (w.sset64 r v).hdr = w.hdr := by simp [Warp.sset64]
@[simp] theorem Warp.sset64_idx (w : Warp) (r : Nat) (v : DWord) : (w.sset64 r v).idx = w.idx := by simp [Warp.sset64]
@[simp] theorem Warp.sset64_clause (w : Warp) (r : Nat) (v : DWord) : (w.sset64 r v).clause = w.clause := by simp [Warp.sset64]
@[simp] theorem Warp.sset64_stack (w : Warp) (r : Nat) (v : DWord) : (w.sset64 r v).stack = w.stack := by simp [Warp.sset64]
@[simp] theorem Warp.sset64_rstack (w : Warp) (r : Nat) (v : DWord) : (w.sset64 r v).rstack = w.rstack := by simp [Warp.sset64]
@[simp] theorem Warp.sset64_rspill (w : Warp) (r : Nat) (v : DWord) : (w.sset64 r v).rspill = w.rspill := by simp [Warp.sset64]
@[simp] theorem Warp.sset64_cntL (w : Warp) (r : Nat) (v : DWord) : (w.sset64 r v).cntL = w.cntL := by simp [Warp.sset64]
@[simp] theorem Warp.sset64_cntS (w : Warp) (r : Nat) (v : DWord) : (w.sset64 r v).cntS = w.cntS := by simp [Warp.sset64]
@[simp] theorem Warp.sset64_cntC (w : Warp) (r : Nat) (v : DWord) : (w.sset64 r v).cntC = w.cntC := by simp [Warp.sset64]
@[simp] theorem Warp.sset64_cntT (w : Warp) (r : Nat) (v : DWord) : (w.sset64 r v).cntT = w.cntT := by simp [Warp.sset64]
@[simp] theorem Warp.sset64_tokens (w : Warp) (r : Nat) (v : DWord) : (w.sset64 r v).tokens = w.tokens := by simp [Warp.sset64]
@[simp] theorem Warp.sset64_fpmode (w : Warp) (r : Nat) (v : DWord) : (w.sset64 r v).fpmode = w.fpmode := by simp [Warp.sset64]
@[simp] theorem Warp.sset64_fpstat (w : Warp) (r : Nat) (v : DWord) : (w.sset64 r v).fpstat = w.fpstat := by simp [Warp.sset64]
@[simp] theorem Warp.sset64_repcnt (w : Warp) (r : Nat) (v : DWord) : (w.sset64 r v).repcnt = w.repcnt := by simp [Warp.sset64]
@[simp] theorem Warp.sset64_tprog (w : Warp) (r : Nat) (v : DWord) : (w.sset64 r v).tprog = w.tprog := by simp [Warp.sset64]
@[simp] theorem Warp.sset64_intrap (w : Warp) (r : Nat) (v : DWord) : (w.sset64 r v).intrap = w.intrap := by simp [Warp.sset64]
@[simp] theorem Warp.sset64_park (w : Warp) (r : Nat) (v : DWord) : (w.sset64 r v).park = w.park := by simp [Warp.sset64]
@[simp] theorem Warp.sset64_arrivals (w : Warp) (r : Nat) (v : DWord) : (w.sset64 r v).arrivals = w.arrivals := by simp [Warp.sset64]
@[simp] theorem Warp.sset64_status (w : Warp) (r : Nat) (v : DWord) : (w.sset64 r v).status = w.status := by simp [Warp.sset64]
@[simp] theorem Warp.sset64_skip (w : Warp) (r : Nat) (v : DWord) : (w.sset64 r v).skip = w.skip := by simp [Warp.sset64]
@[simp] theorem Warp.sset64_age (w : Warp) (r : Nat) (v : DWord) : (w.sset64 r v).age = w.age := by simp [Warp.sset64]
@[simp] theorem Warp.sset64_fenced (w : Warp) (r : Nat) (v : DWord) : (w.sset64 r v).fenced = w.fenced := by simp [Warp.sset64]
@[simp] theorem Warp.sset64_yielded (w : Warp) (r : Nat) (v : DWord) : (w.sset64 r v).yielded = w.yielded := by simp [Warp.sset64]
@[simp] theorem Warp.sset64_inRep (w : Warp) (r : Nat) (v : DWord) : (w.sset64 r v).inRep = w.inRep := by simp [Warp.sset64]
@[simp] theorem Warp.sset64_monitors (w : Warp) (r : Nat) (v : DWord) : (w.sset64 r v).monitors = w.monitors := by simp [Warp.sset64]
@[simp] theorem Warp.sset64_watched (w : Warp) (r : Nat) (v : DWord) : (w.sset64 r v).watched = w.watched := by simp [Warp.sset64]
@[simp] theorem Warp.psetLanes_slot (w : Warp) (p : Nat) (m v : LaneMask) : (w.psetLanes p m v).slot = w.slot := by unfold Warp.psetLanes; split <;> rfl
@[simp] theorem Warp.psetLanes_sregs (w : Warp) (p : Nat) (m v : LaneMask) : (w.psetLanes p m v).sregs = w.sregs := by unfold Warp.psetLanes; split <;> rfl
@[simp] theorem Warp.psetLanes_vregs (w : Warp) (p : Nat) (m v : LaneMask) : (w.psetLanes p m v).vregs = w.vregs := by unfold Warp.psetLanes; split <;> rfl
@[simp] theorem Warp.psetLanes_poison (w : Warp) (p : Nat) (m v : LaneMask) : (w.psetLanes p m v).poison = w.poison := by unfold Warp.psetLanes; split <;> rfl
@[simp] theorem Warp.psetLanes_active (w : Warp) (p : Nat) (m v : LaneMask) : (w.psetLanes p m v).active = w.active := by unfold Warp.psetLanes; split <;> rfl
@[simp] theorem Warp.psetLanes_live (w : Warp) (p : Nat) (m v : LaneMask) : (w.psetLanes p m v).live = w.live := by unfold Warp.psetLanes; split <;> rfl
@[simp] theorem Warp.psetLanes_hdr (w : Warp) (p : Nat) (m v : LaneMask) : (w.psetLanes p m v).hdr = w.hdr := by unfold Warp.psetLanes; split <;> rfl
@[simp] theorem Warp.psetLanes_idx (w : Warp) (p : Nat) (m v : LaneMask) : (w.psetLanes p m v).idx = w.idx := by unfold Warp.psetLanes; split <;> rfl
@[simp] theorem Warp.psetLanes_clause (w : Warp) (p : Nat) (m v : LaneMask) : (w.psetLanes p m v).clause = w.clause := by unfold Warp.psetLanes; split <;> rfl
@[simp] theorem Warp.psetLanes_stack (w : Warp) (p : Nat) (m v : LaneMask) : (w.psetLanes p m v).stack = w.stack := by unfold Warp.psetLanes; split <;> rfl
@[simp] theorem Warp.psetLanes_rstack (w : Warp) (p : Nat) (m v : LaneMask) : (w.psetLanes p m v).rstack = w.rstack := by unfold Warp.psetLanes; split <;> rfl
@[simp] theorem Warp.psetLanes_rspill (w : Warp) (p : Nat) (m v : LaneMask) : (w.psetLanes p m v).rspill = w.rspill := by unfold Warp.psetLanes; split <;> rfl
@[simp] theorem Warp.psetLanes_cntL (w : Warp) (p : Nat) (m v : LaneMask) : (w.psetLanes p m v).cntL = w.cntL := by unfold Warp.psetLanes; split <;> rfl
@[simp] theorem Warp.psetLanes_cntS (w : Warp) (p : Nat) (m v : LaneMask) : (w.psetLanes p m v).cntS = w.cntS := by unfold Warp.psetLanes; split <;> rfl
@[simp] theorem Warp.psetLanes_cntC (w : Warp) (p : Nat) (m v : LaneMask) : (w.psetLanes p m v).cntC = w.cntC := by unfold Warp.psetLanes; split <;> rfl
@[simp] theorem Warp.psetLanes_cntT (w : Warp) (p : Nat) (m v : LaneMask) : (w.psetLanes p m v).cntT = w.cntT := by unfold Warp.psetLanes; split <;> rfl
@[simp] theorem Warp.psetLanes_tokens (w : Warp) (p : Nat) (m v : LaneMask) : (w.psetLanes p m v).tokens = w.tokens := by unfold Warp.psetLanes; split <;> rfl
@[simp] theorem Warp.psetLanes_fpmode (w : Warp) (p : Nat) (m v : LaneMask) : (w.psetLanes p m v).fpmode = w.fpmode := by unfold Warp.psetLanes; split <;> rfl
@[simp] theorem Warp.psetLanes_fpstat (w : Warp) (p : Nat) (m v : LaneMask) : (w.psetLanes p m v).fpstat = w.fpstat := by unfold Warp.psetLanes; split <;> rfl
@[simp] theorem Warp.psetLanes_repcnt (w : Warp) (p : Nat) (m v : LaneMask) : (w.psetLanes p m v).repcnt = w.repcnt := by unfold Warp.psetLanes; split <;> rfl
@[simp] theorem Warp.psetLanes_tprog (w : Warp) (p : Nat) (m v : LaneMask) : (w.psetLanes p m v).tprog = w.tprog := by unfold Warp.psetLanes; split <;> rfl
@[simp] theorem Warp.psetLanes_intrap (w : Warp) (p : Nat) (m v : LaneMask) : (w.psetLanes p m v).intrap = w.intrap := by unfold Warp.psetLanes; split <;> rfl
@[simp] theorem Warp.psetLanes_park (w : Warp) (p : Nat) (m v : LaneMask) : (w.psetLanes p m v).park = w.park := by unfold Warp.psetLanes; split <;> rfl
@[simp] theorem Warp.psetLanes_arrivals (w : Warp) (p : Nat) (m v : LaneMask) : (w.psetLanes p m v).arrivals = w.arrivals := by unfold Warp.psetLanes; split <;> rfl
@[simp] theorem Warp.psetLanes_status (w : Warp) (p : Nat) (m v : LaneMask) : (w.psetLanes p m v).status = w.status := by unfold Warp.psetLanes; split <;> rfl
@[simp] theorem Warp.psetLanes_skip (w : Warp) (p : Nat) (m v : LaneMask) : (w.psetLanes p m v).skip = w.skip := by unfold Warp.psetLanes; split <;> rfl
@[simp] theorem Warp.psetLanes_age (w : Warp) (p : Nat) (m v : LaneMask) : (w.psetLanes p m v).age = w.age := by unfold Warp.psetLanes; split <;> rfl
@[simp] theorem Warp.psetLanes_fenced (w : Warp) (p : Nat) (m v : LaneMask) : (w.psetLanes p m v).fenced = w.fenced := by unfold Warp.psetLanes; split <;> rfl
@[simp] theorem Warp.psetLanes_yielded (w : Warp) (p : Nat) (m v : LaneMask) : (w.psetLanes p m v).yielded = w.yielded := by unfold Warp.psetLanes; split <;> rfl
@[simp] theorem Warp.psetLanes_inRep (w : Warp) (p : Nat) (m v : LaneMask) : (w.psetLanes p m v).inRep = w.inRep := by unfold Warp.psetLanes; split <;> rfl
@[simp] theorem Warp.psetLanes_monitors (w : Warp) (p : Nat) (m v : LaneMask) : (w.psetLanes p m v).monitors = w.monitors := by unfold Warp.psetLanes; split <;> rfl
@[simp] theorem Warp.psetLanes_watched (w : Warp) (p : Nat) (m v : LaneMask) : (w.psetLanes p m v).watched = w.watched := by unfold Warp.psetLanes; split <;> rfl
@[simp] theorem Warp.advance_slot (w : Warp) : w.advance.slot = w.slot := by unfold Warp.advance; split <;> rfl
@[simp] theorem Warp.advance_sregs (w : Warp) : w.advance.sregs = w.sregs := by unfold Warp.advance; split <;> rfl
@[simp] theorem Warp.advance_vregs (w : Warp) : w.advance.vregs = w.vregs := by unfold Warp.advance; split <;> rfl
@[simp] theorem Warp.advance_preds (w : Warp) : w.advance.preds = w.preds := by unfold Warp.advance; split <;> rfl
@[simp] theorem Warp.advance_poison (w : Warp) : w.advance.poison = w.poison := by unfold Warp.advance; split <;> rfl
@[simp] theorem Warp.advance_active (w : Warp) : w.advance.active = w.active := by unfold Warp.advance; split <;> rfl
@[simp] theorem Warp.advance_live (w : Warp) : w.advance.live = w.live := by unfold Warp.advance; split <;> rfl
@[simp] theorem Warp.advance_stack (w : Warp) : w.advance.stack = w.stack := by unfold Warp.advance; split <;> rfl
@[simp] theorem Warp.advance_rstack (w : Warp) : w.advance.rstack = w.rstack := by unfold Warp.advance; split <;> rfl
@[simp] theorem Warp.advance_rspill (w : Warp) : w.advance.rspill = w.rspill := by unfold Warp.advance; split <;> rfl
@[simp] theorem Warp.advance_cntL (w : Warp) : w.advance.cntL = w.cntL := by unfold Warp.advance; split <;> rfl
@[simp] theorem Warp.advance_cntS (w : Warp) : w.advance.cntS = w.cntS := by unfold Warp.advance; split <;> rfl
@[simp] theorem Warp.advance_cntC (w : Warp) : w.advance.cntC = w.cntC := by unfold Warp.advance; split <;> rfl
@[simp] theorem Warp.advance_cntT (w : Warp) : w.advance.cntT = w.cntT := by unfold Warp.advance; split <;> rfl
@[simp] theorem Warp.advance_tokens (w : Warp) : w.advance.tokens = w.tokens := by unfold Warp.advance; split <;> rfl
@[simp] theorem Warp.advance_fpmode (w : Warp) : w.advance.fpmode = w.fpmode := by unfold Warp.advance; split <;> rfl
@[simp] theorem Warp.advance_fpstat (w : Warp) : w.advance.fpstat = w.fpstat := by unfold Warp.advance; split <;> rfl
@[simp] theorem Warp.advance_repcnt (w : Warp) : w.advance.repcnt = w.repcnt := by unfold Warp.advance; split <;> rfl
@[simp] theorem Warp.advance_tprog (w : Warp) : w.advance.tprog = w.tprog := by unfold Warp.advance; split <;> rfl
@[simp] theorem Warp.advance_intrap (w : Warp) : w.advance.intrap = w.intrap := by unfold Warp.advance; split <;> rfl
@[simp] theorem Warp.advance_park (w : Warp) : w.advance.park = w.park := by unfold Warp.advance; split <;> rfl
@[simp] theorem Warp.advance_arrivals (w : Warp) : w.advance.arrivals = w.arrivals := by unfold Warp.advance; split <;> rfl
@[simp] theorem Warp.advance_status (w : Warp) : w.advance.status = w.status := by unfold Warp.advance; split <;> rfl
@[simp] theorem Warp.advance_skip (w : Warp) : w.advance.skip = w.skip := by unfold Warp.advance; split <;> rfl
@[simp] theorem Warp.advance_age (w : Warp) : w.advance.age = w.age := by unfold Warp.advance; split <;> rfl
@[simp] theorem Warp.advance_fenced (w : Warp) : w.advance.fenced = w.fenced := by unfold Warp.advance; split <;> rfl
@[simp] theorem Warp.advance_inRep (w : Warp) : w.advance.inRep = w.inRep := by unfold Warp.advance; split <;> rfl
@[simp] theorem Warp.advance_monitors (w : Warp) : w.advance.monitors = w.monitors := by unfold Warp.advance; split <;> rfl
@[simp] theorem Warp.advance_watched (w : Warp) : w.advance.watched = w.watched := by unfold Warp.advance; split <;> rfl
@[simp] theorem Warp.setCtr_slot (w : Warp) (ct : Ctr) (n : Nat) : (w.setCtr ct n).slot = w.slot := by cases ct <;> rfl
@[simp] theorem Warp.setCtr_sregs (w : Warp) (ct : Ctr) (n : Nat) : (w.setCtr ct n).sregs = w.sregs := by cases ct <;> rfl
@[simp] theorem Warp.setCtr_vregs (w : Warp) (ct : Ctr) (n : Nat) : (w.setCtr ct n).vregs = w.vregs := by cases ct <;> rfl
@[simp] theorem Warp.setCtr_preds (w : Warp) (ct : Ctr) (n : Nat) : (w.setCtr ct n).preds = w.preds := by cases ct <;> rfl
@[simp] theorem Warp.setCtr_poison (w : Warp) (ct : Ctr) (n : Nat) : (w.setCtr ct n).poison = w.poison := by cases ct <;> rfl
@[simp] theorem Warp.setCtr_active (w : Warp) (ct : Ctr) (n : Nat) : (w.setCtr ct n).active = w.active := by cases ct <;> rfl
@[simp] theorem Warp.setCtr_live (w : Warp) (ct : Ctr) (n : Nat) : (w.setCtr ct n).live = w.live := by cases ct <;> rfl
@[simp] theorem Warp.setCtr_hdr (w : Warp) (ct : Ctr) (n : Nat) : (w.setCtr ct n).hdr = w.hdr := by cases ct <;> rfl
@[simp] theorem Warp.setCtr_idx (w : Warp) (ct : Ctr) (n : Nat) : (w.setCtr ct n).idx = w.idx := by cases ct <;> rfl
@[simp] theorem Warp.setCtr_clause (w : Warp) (ct : Ctr) (n : Nat) : (w.setCtr ct n).clause = w.clause := by cases ct <;> rfl
@[simp] theorem Warp.setCtr_stack (w : Warp) (ct : Ctr) (n : Nat) : (w.setCtr ct n).stack = w.stack := by cases ct <;> rfl
@[simp] theorem Warp.setCtr_rstack (w : Warp) (ct : Ctr) (n : Nat) : (w.setCtr ct n).rstack = w.rstack := by cases ct <;> rfl
@[simp] theorem Warp.setCtr_rspill (w : Warp) (ct : Ctr) (n : Nat) : (w.setCtr ct n).rspill = w.rspill := by cases ct <;> rfl
@[simp] theorem Warp.setCtr_tokens (w : Warp) (ct : Ctr) (n : Nat) : (w.setCtr ct n).tokens = w.tokens := by cases ct <;> rfl
@[simp] theorem Warp.setCtr_fpmode (w : Warp) (ct : Ctr) (n : Nat) : (w.setCtr ct n).fpmode = w.fpmode := by cases ct <;> rfl
@[simp] theorem Warp.setCtr_fpstat (w : Warp) (ct : Ctr) (n : Nat) : (w.setCtr ct n).fpstat = w.fpstat := by cases ct <;> rfl
@[simp] theorem Warp.setCtr_repcnt (w : Warp) (ct : Ctr) (n : Nat) : (w.setCtr ct n).repcnt = w.repcnt := by cases ct <;> rfl
@[simp] theorem Warp.setCtr_tprog (w : Warp) (ct : Ctr) (n : Nat) : (w.setCtr ct n).tprog = w.tprog := by cases ct <;> rfl
@[simp] theorem Warp.setCtr_intrap (w : Warp) (ct : Ctr) (n : Nat) : (w.setCtr ct n).intrap = w.intrap := by cases ct <;> rfl
@[simp] theorem Warp.setCtr_park (w : Warp) (ct : Ctr) (n : Nat) : (w.setCtr ct n).park = w.park := by cases ct <;> rfl
@[simp] theorem Warp.setCtr_arrivals (w : Warp) (ct : Ctr) (n : Nat) : (w.setCtr ct n).arrivals = w.arrivals := by cases ct <;> rfl
@[simp] theorem Warp.setCtr_status (w : Warp) (ct : Ctr) (n : Nat) : (w.setCtr ct n).status = w.status := by cases ct <;> rfl
@[simp] theorem Warp.setCtr_skip (w : Warp) (ct : Ctr) (n : Nat) : (w.setCtr ct n).skip = w.skip := by cases ct <;> rfl
@[simp] theorem Warp.setCtr_age (w : Warp) (ct : Ctr) (n : Nat) : (w.setCtr ct n).age = w.age := by cases ct <;> rfl
@[simp] theorem Warp.setCtr_fenced (w : Warp) (ct : Ctr) (n : Nat) : (w.setCtr ct n).fenced = w.fenced := by cases ct <;> rfl
@[simp] theorem Warp.setCtr_yielded (w : Warp) (ct : Ctr) (n : Nat) : (w.setCtr ct n).yielded = w.yielded := by cases ct <;> rfl
@[simp] theorem Warp.setCtr_inRep (w : Warp) (ct : Ctr) (n : Nat) : (w.setCtr ct n).inRep = w.inRep := by cases ct <;> rfl
@[simp] theorem Warp.setCtr_monitors (w : Warp) (ct : Ctr) (n : Nat) : (w.setCtr ct n).monitors = w.monitors := by cases ct <;> rfl
@[simp] theorem Warp.setCtr_watched (w : Warp) (ct : Ctr) (n : Nat) : (w.setCtr ct n).watched = w.watched := by cases ct <;> rfl

@[simp] theorem Team.updWarp_uid (t : Team) (j : Nat) (f : Warp → Warp) : (t.updWarp j f).uid = t.uid := rfl
@[simp] theorem Team.updWarp_world (t : Team) (j : Nat) (f : Warp → Warp) : (t.updWarp j f).world = t.world := rfl
@[simp] theorem Team.updWarp_launch (t : Team) (j : Nat) (f : Warp → Warp) : (t.updWarp j f).launch = t.launch := rfl
@[simp] theorem Team.updWarp_teamId (t : Team) (j : Nat) (f : Warp → Warp) : (t.updWarp j f).teamId = t.teamId := rfl
@[simp] theorem Team.updWarp_core (t : Team) (j : Nat) (f : Warp → Warp) : (t.updWarp j f).core = t.core := rfl
@[simp] theorem Team.updWarp_entry (t : Team) (j : Nat) (f : Warp → Warp) : (t.updWarp j f).entry = t.entry := rfl
@[simp] theorem Team.updWarp_nregs (t : Team) (j : Nat) (f : Warp → Warp) : (t.updWarp j f).nregs = t.nregs := rfl
@[simp] theorem Team.updWarp_acc (t : Team) (j : Nat) (f : Warp → Warp) : (t.updWarp j f).acc = t.acc := rfl
@[simp] theorem Team.updWarp_scratchSize (t : Team) (j : Nat) (f : Warp → Warp) : (t.updWarp j f).scratchSize = t.scratchSize := rfl
@[simp] theorem Team.updWarp_barsMax (t : Team) (j : Nat) (f : Warp → Warp) : (t.updWarp j f).barsMax = t.barsMax := rfl
@[simp] theorem Team.updWarp_divd (t : Team) (j : Nat) (f : Warp → Warp) : (t.updWarp j f).divd = t.divd := rfl
@[simp] theorem Team.updWarp_prio (t : Team) (j : Nat) (f : Warp → Warp) : (t.updWarp j f).prio = t.prio := rfl
@[simp] theorem Team.updWarp_coop (t : Team) (j : Nat) (f : Warp → Warp) : (t.updWarp j f).coop = t.coop := rfl
@[simp] theorem Team.updWarp_order (t : Team) (j : Nat) (f : Warp → Warp) : (t.updWarp j f).order = t.order := rfl
@[simp] theorem Team.updWarp_place (t : Team) (j : Nat) (f : Warp → Warp) : (t.updWarp j f).place = t.place := rfl
@[simp] theorem Team.updWarp_scratch (t : Team) (j : Nat) (f : Warp → Warp) : (t.updWarp j f).scratch = t.scratch := rfl
@[simp] theorem Team.updWarp_gen (t : Team) (j : Nat) (f : Warp → Warp) : (t.updWarp j f).gen = t.gen := rfl
@[simp] theorem Team.updWarp_bars (t : Team) (j : Nat) (f : Warp → Warp) : (t.updWarp j f).bars = t.bars := rfl
@[simp] theorem Team.updWarp_slots (t : Team) (j : Nat) (f : Warp → Warp) : (t.updWarp j f).slots = t.slots := rfl
@[simp] theorem Team.updWarp_slotFaults (t : Team) (j : Nat) (f : Warp → Warp) : (t.updWarp j f).slotFaults = t.slotFaults := rfl
@[simp] theorem Team.updWarp_tiles (t : Team) (j : Nat) (f : Warp → Warp) : (t.updWarp j f).tiles = t.tiles := rfl
@[simp] theorem Team.updWarp_reel (t : Team) (j : Nat) (f : Warp → Warp) : (t.updWarp j f).reel = t.reel := rfl
@[simp] theorem Team.updWarp_asbase (t : Team) (j : Nat) (f : Warp → Warp) : (t.updWarp j f).asbase = t.asbase := rfl
@[simp] theorem Team.updWarp_aslimit (t : Team) (j : Nat) (f : Warp → Warp) : (t.updWarp j f).aslimit = t.aslimit := rfl
@[simp] theorem Team.updWarp_astop (t : Team) (j : Nat) (f : Warp → Warp) : (t.updWarp j f).astop = t.astop := rfl
@[simp] theorem Team.updWarp_old (t : Team) (j : Nat) (f : Warp → Warp) : (t.updWarp j f).old = t.old := rfl
@[simp] theorem Team.updWarp_uprog (t : Team) (j : Nat) (f : Warp → Warp) : (t.updWarp j f).uprog = t.uprog := rfl
@[simp] theorem Team.updWarp_ctxBase (t : Team) (j : Nat) (f : Warp → Warp) : (t.updWarp j f).ctxBase = t.ctxBase := rfl
@[simp] theorem Team.updWarp_ctxLen (t : Team) (j : Nat) (f : Warp → Warp) : (t.updWarp j f).ctxLen = t.ctxLen := rfl
@[simp] theorem Team.updWarp_ctxDigest (t : Team) (j : Nat) (f : Warp → Warp) : (t.updWarp j f).ctxDigest = t.ctxDigest := rfl
@[simp] theorem Team.updWarp_savedBanks (t : Team) (j : Nat) (f : Warp → Warp) : (t.updWarp j f).savedBanks = t.savedBanks := rfl
@[simp] theorem Team.updWarp_preempting (t : Team) (j : Nat) (f : Warp → Warp) : (t.updWarp j f).preempting = t.preempting := rfl
@[simp] theorem Team.updWarp_capFailed (t : Team) (j : Nat) (f : Warp → Warp) : (t.updWarp j f).capFailed = t.capFailed := rfl
@[simp] theorem Team.updWarp_deferred (t : Team) (j : Nat) (f : Warp → Warp) : (t.updWarp j f).deferred = t.deferred := rfl
@[simp] theorem Team.updWarp_warps (t : Team) (j : Nat) (f : Warp → Warp) : (t.updWarp j f).warps = t.warps.modify j f := rfl

@[simp] theorem Team.putWarp_uid (t : Team) (j : Nat) (w : Warp) : (t.putWarp j w).uid = t.uid := rfl
@[simp] theorem Team.putWarp_world (t : Team) (j : Nat) (w : Warp) : (t.putWarp j w).world = t.world := rfl
@[simp] theorem Team.putWarp_launch (t : Team) (j : Nat) (w : Warp) : (t.putWarp j w).launch = t.launch := rfl
@[simp] theorem Team.putWarp_teamId (t : Team) (j : Nat) (w : Warp) : (t.putWarp j w).teamId = t.teamId := rfl
@[simp] theorem Team.putWarp_core (t : Team) (j : Nat) (w : Warp) : (t.putWarp j w).core = t.core := rfl
@[simp] theorem Team.putWarp_entry (t : Team) (j : Nat) (w : Warp) : (t.putWarp j w).entry = t.entry := rfl
@[simp] theorem Team.putWarp_nregs (t : Team) (j : Nat) (w : Warp) : (t.putWarp j w).nregs = t.nregs := rfl
@[simp] theorem Team.putWarp_acc (t : Team) (j : Nat) (w : Warp) : (t.putWarp j w).acc = t.acc := rfl
@[simp] theorem Team.putWarp_scratchSize (t : Team) (j : Nat) (w : Warp) : (t.putWarp j w).scratchSize = t.scratchSize := rfl
@[simp] theorem Team.putWarp_barsMax (t : Team) (j : Nat) (w : Warp) : (t.putWarp j w).barsMax = t.barsMax := rfl
@[simp] theorem Team.putWarp_divd (t : Team) (j : Nat) (w : Warp) : (t.putWarp j w).divd = t.divd := rfl
@[simp] theorem Team.putWarp_prio (t : Team) (j : Nat) (w : Warp) : (t.putWarp j w).prio = t.prio := rfl
@[simp] theorem Team.putWarp_coop (t : Team) (j : Nat) (w : Warp) : (t.putWarp j w).coop = t.coop := rfl
@[simp] theorem Team.putWarp_order (t : Team) (j : Nat) (w : Warp) : (t.putWarp j w).order = t.order := rfl
@[simp] theorem Team.putWarp_place (t : Team) (j : Nat) (w : Warp) : (t.putWarp j w).place = t.place := rfl
@[simp] theorem Team.putWarp_scratch (t : Team) (j : Nat) (w : Warp) : (t.putWarp j w).scratch = t.scratch := rfl
@[simp] theorem Team.putWarp_gen (t : Team) (j : Nat) (w : Warp) : (t.putWarp j w).gen = t.gen := rfl
@[simp] theorem Team.putWarp_bars (t : Team) (j : Nat) (w : Warp) : (t.putWarp j w).bars = t.bars := rfl
@[simp] theorem Team.putWarp_slots (t : Team) (j : Nat) (w : Warp) : (t.putWarp j w).slots = t.slots := rfl
@[simp] theorem Team.putWarp_slotFaults (t : Team) (j : Nat) (w : Warp) : (t.putWarp j w).slotFaults = t.slotFaults := rfl
@[simp] theorem Team.putWarp_tiles (t : Team) (j : Nat) (w : Warp) : (t.putWarp j w).tiles = t.tiles := rfl
@[simp] theorem Team.putWarp_reel (t : Team) (j : Nat) (w : Warp) : (t.putWarp j w).reel = t.reel := rfl
@[simp] theorem Team.putWarp_asbase (t : Team) (j : Nat) (w : Warp) : (t.putWarp j w).asbase = t.asbase := rfl
@[simp] theorem Team.putWarp_aslimit (t : Team) (j : Nat) (w : Warp) : (t.putWarp j w).aslimit = t.aslimit := rfl
@[simp] theorem Team.putWarp_astop (t : Team) (j : Nat) (w : Warp) : (t.putWarp j w).astop = t.astop := rfl
@[simp] theorem Team.putWarp_old (t : Team) (j : Nat) (w : Warp) : (t.putWarp j w).old = t.old := rfl
@[simp] theorem Team.putWarp_uprog (t : Team) (j : Nat) (w : Warp) : (t.putWarp j w).uprog = t.uprog := rfl
@[simp] theorem Team.putWarp_ctxBase (t : Team) (j : Nat) (w : Warp) : (t.putWarp j w).ctxBase = t.ctxBase := rfl
@[simp] theorem Team.putWarp_ctxLen (t : Team) (j : Nat) (w : Warp) : (t.putWarp j w).ctxLen = t.ctxLen := rfl
@[simp] theorem Team.putWarp_ctxDigest (t : Team) (j : Nat) (w : Warp) : (t.putWarp j w).ctxDigest = t.ctxDigest := rfl
@[simp] theorem Team.putWarp_savedBanks (t : Team) (j : Nat) (w : Warp) : (t.putWarp j w).savedBanks = t.savedBanks := rfl
@[simp] theorem Team.putWarp_preempting (t : Team) (j : Nat) (w : Warp) : (t.putWarp j w).preempting = t.preempting := rfl
@[simp] theorem Team.putWarp_capFailed (t : Team) (j : Nat) (w : Warp) : (t.putWarp j w).capFailed = t.capFailed := rfl
@[simp] theorem Team.putWarp_deferred (t : Team) (j : Nat) (w : Warp) : (t.putWarp j w).deferred = t.deferred := rfl
@[simp] theorem Team.putWarp_warps (t : Team) (j : Nat) (w : Warp) : (t.putWarp j w).warps = t.warps.set j w := rfl

end Sys2Proof.Machine
end

