-- ==== Sys2Proof/Laws/Memory.lean ====
section
/-! SUPPORT. What the memory operations do to memory: the bytes written and no others, and the canonical form kept. -/

namespace Sys2Proof.Machine

theorem Sparse.setN_append {α : Type} [DecidableEq α] (d : α) (l r : List α) (m : Sparse α) (k : Nat) :
    Sparse.setN d m k (l ++ r) = Sparse.setN d (Sparse.setN d m k l) (k + l.length) r := by
  induction l generalizing m k with
  | nil => simp [Sparse.setN]
  | cons v l ih => simp only [List.cons_append, Sparse.setN, ih, List.length_cons]; congr 1; omega

@[simp] theorem State.noteWrite_mem (s : State) (a : Option (Nat × Nat)) (line : Nat) : (s.noteWrite a line).mem = s.mem := rfl

@[simp] theorem State.clearLine_mem (s : State) (line : Nat) : (s.clearLine line).mem = s.mem := rfl

@[simp] theorem State.touchLine_mem (s : State) (pa n : Nat) : (s.touchLine pa n).mem = s.mem := by
  unfold State.touchLine; split <;> rfl

@[simp] theorem State.writeMemLine_mem (s : State) (a : Option (Nat × Nat)) (pa : Nat) (bs : List Byte) :
    (s.writeMemLine a pa bs).mem = Sparse.setN memDefault s.mem pa bs := by simp [State.writeMemLine]

theorem State.writeMemGo_mem (a : Option (Nat × Nat)) (f : Nat) (s : State) (pa : Nat) (bs : List Byte)
    (h : bs.length ≤ 128 * f - pa % 128) : (State.writeMemGo a f s pa bs).mem = Sparse.setN memDefault s.mem pa bs := by
  induction f generalizing s pa bs with
  | zero =>
    have : bs = [] := List.length_eq_zero_iff.1 (by omega)
    simp [State.writeMemGo, this, Sparse.setN]
  | succ f ih =>
    rw [State.writeMemGo]
    by_cases hb : bs = []
    · simp [hb, Sparse.setN]
    · simp only [hb, if_false]
      have hm : (pa + (128 - pa % 128)) % 128 = 0 := by omega
      rw [ih _ _ _ (by simp only [List.length_drop, hm]; omega), State.writeMemLine_mem]
      conv_rhs => rw [← List.take_append_drop (128 - pa % 128) bs, Sparse.setN_append]
      by_cases hl : 128 - pa % 128 ≤ bs.length
      · simp [List.length_take, Nat.min_eq_left hl]
      · have : bs.drop (128 - pa % 128) = [] := List.drop_eq_nil_of_le (by omega)
        simp [this, Sparse.setN]

/-- A write to the coherent memory stores its bytes and nothing else. -/
@[simp] theorem State.writeMem_mem (s : State) (a : Option (Nat × Nat)) (pa : Nat) (bs : List Byte) :
    (s.writeMem a pa bs).mem = Sparse.setN memDefault s.mem pa bs :=
  State.writeMemGo_mem a _ s pa bs (by omega)

/-! ### The canonical form kept -/

theorem State.reset_memory : Memory.wf State.reset.mem = true := rfl

theorem State.wf_writeMem {s : State} (a : Option (Nat × Nat)) (pa : Nat) (bs : List Byte) (h : Memory.wf s.mem = true) :
    Memory.wf (s.writeMem a pa bs).mem = true := by
  rw [State.writeMem_mem]
  exact Sparse.wf_setN bs pa h

theorem State.wf_mergeList {s : State} (gs : List Gathered) (h : Memory.wf s.mem = true) :
    Memory.wf (s.mergeList gs).mem = true := by
  induction gs generalizing s with
  | nil => exact h
  | cons g r ih => exact ih (State.wf_writeMem none g.addr [g.val] h)

theorem State.foldl_mem {α : Type} (f : State → α → State) (hf : ∀ s a, (f s a).mem = s.mem) (l : List α) (s : State) :
    (l.foldl f s).mem = s.mem := by
  induction l generalizing s with
  | nil => rfl
  | cons a r ih => rw [List.foldl_cons, ih, hf]

theorem State.foldl_wf {α : Type} (f : State → α → State) (hf : ∀ s a, Memory.wf s.mem = true → Memory.wf (f s a).mem = true)
    (l : List α) {s : State} (h : Memory.wf s.mem = true) : Memory.wf (l.foldl f s).mem = true := by
  induction l generalizing s with
  | nil => exact h
  | cons a r ih => exact ih (hf s a h)

/-! Records, counters and packets leave memory as it is. -/

@[simp] theorem State.settleHealth_mem (s : State) : s.settleHealth.mem = s.mem := by unfold State.settleHealth; dsimp only; split <;> rfl
@[simp] theorem State.countEcc_mem (s : State) : s.countEcc.mem = s.mem := by simp [State.countEcc]
@[simp] theorem State.countLink_mem (s : State) : s.countLink.mem = s.mem := by simp [State.countLink]
@[simp] theorem State.dropPacket_mem (s : State) (line : Nat) : (s.dropPacket line).mem = s.mem := by simp [State.dropPacket]
@[simp] theorem State.lostWrite_mem (s : State) (world : Nat) (o : Origin) : (s.lostWrite world o).mem = s.mem := rfl
@[simp] theorem State.dramPackets_mem (s : State) (world line : Nat) (w : Bool) : (s.dramPackets world line w).mem = s.mem := by
  unfold State.dramPackets; dsimp only; split <;> rfl
@[simp] theorem State.homeTrip_mem (s : State) (c world line : Nat) (w : Bool) : (s.homeTrip c world line w).mem = s.mem := by
  unfold State.homeTrip; dsimp only; split <;> rfl

@[simp] theorem State.loseGathered_mem (s : State) (gone : List Gathered) : (s.loseGathered gone).mem = s.mem := by
  unfold State.loseGathered
  rw [State.foldl_mem _ fun _ _ => State.lostWrite_mem .., State.foldl_mem _ State.dropPacket_mem]

theorem State.wf_mergeWhere {s : State} (p : Gathered → Bool) (h : Memory.wf s.mem = true) :
    Memory.wf (s.mergeWhere p).mem = true := by
  unfold State.mergeWhere
  rw [State.foldl_mem _ fun _ _ => State.clearLine_mem ..]
  refine State.wf_mergeList _ ?_
  dsimp only
  rw [State.foldl_mem _ fun _ _ => State.homeTrip_mem .., State.loseGathered_mem]
  exact h

theorem State.wf_drainWorld {s : State} (c w : Nat) (h : Memory.wf s.mem = true) : Memory.wf (s.drainWorld c w).mem = true :=
  State.wf_mergeWhere _ h

theorem State.wf_mergeLine {s : State} (c line : Nat) (h : Memory.wf s.mem = true) : Memory.wf (s.mergeLine c line).mem = true :=
  State.wf_mergeWhere _ h

theorem State.wf_gather {s : State} (o : Origin) (c w pa : Nat) (b : Bool) (l : List Byte) (h : Memory.wf s.mem = true) :
    Memory.wf (s.gather o c w pa b l).mem = true := State.wf_mergeWhere _ h

theorem State.wf_snoopOwner {s : State} (line : Nat) (h : Memory.wf s.mem = true) : Memory.wf (s.snoopOwner line).mem = true := by
  unfold State.snoopOwner
  split
  · exact State.wf_mergeLine _ _ h
  · exact h

/-- A write at the homes of its lines keeps the canonical form. -/
theorem State.wf_homeWrite {s : State} (a : Option (Nat × Nat)) (pa : Nat) (bs : List Byte) (h : Memory.wf s.mem = true) :
    Memory.wf (s.homeWrite a pa bs).mem = true :=
  State.wf_writeMem a pa bs (State.foldl_wf _ (fun _ _ hx => State.wf_snoopOwner _ hx) _ h)

/-! Reads, which merge what the owner of a line has gathered. -/

@[simp] theorem State.readCells_mem (world : Nat) (s : State) (line : Nat) : (State.readCells world s line).2.mem = s.mem := by
  unfold State.readCells
  dsimp only
  repeat' split
  all_goals simp

theorem State.wf_readLine {s : State} (world line : Nat) (h : Memory.wf s.mem = true) :
    Memory.wf (State.readLine world s line).2.mem = true := by
  unfold State.readLine
  dsimp only
  split
  · simpa using State.wf_snoopOwner line h
  · simpa using State.wf_snoopOwner line h

theorem State.wf_walk2 (world a n : Nat) {s : State} (tbl : Nat) (h : Memory.wf s.mem = true) :
    Memory.wf (State.walk2 world a n s tbl).2.mem = true := by
  induction n generalizing s tbl with
  | zero => exact h
  | succ n ih =>
    have hd : Memory.wf (s.readDesc world (tbl + 8 * levelIndex (3 - n) a)).2.mem = true := State.wf_readLine world _ h
    rw [State.walk2]
    repeat' split
    · exact hd
    · exact ih _ hd
    · exact hd

/-- A stage-2 walk keeps the canonical form. -/
theorem State.wf_gpaWalk {s : State} (world gpa : Nat) (h : Memory.wf s.mem = true) :
    Memory.wf (s.gpaWalk world gpa).2.mem = true := by
  unfold State.gpaWalk
  split
  · exact State.wf_walk2 world gpa 4 _ h
  · exact h

theorem State.wf_walkedGpa {s : State} (world : Nat) (l : List Nat) (h : Memory.wf s.mem = true) :
    Memory.wf (s.walkedGpa world l).mem = true :=
  State.foldl_wf _ (fun _ _ hx => State.wf_gpaWalk _ _ hx) _ h

theorem State.wf_gpaPut (world f : Nat) {s : State} (gpa : Nat) (bs : List Byte) (h : Memory.wf s.mem = true) :
    Memory.wf (State.gpaPut world f s gpa bs).mem = true := by
  induction f generalizing s gpa bs with
  | zero => exact h
  | succ f ih =>
    rw [State.gpaPut]
    split
    · exact h
    · split
      · exact h
      · exact ih _ _ (State.wf_homeWrite _ _ _ h)

theorem State.wf_gpaWrite {s s' : State} (world gpa : Nat) (bs : List Byte) (h : Memory.wf s.mem = true)
    (hs : s.gpaWrite world gpa bs = .ok s') : Memory.wf s'.mem = true := by
  unfold State.gpaWrite at hs
  split at hs
  · cases hs
  · dsimp only at hs
    split at hs
    · cases hs
    · cases hs
      exact State.wf_gpaPut _ _ _ _ (State.wf_walkedGpa _ _ h)

/-- Scrubbing a page keeps the canonical form. -/
theorem State.wf_zeroPage {s : State} (page : Nat) (h : Memory.wf s.mem = true) : Memory.wf (s.zeroPage page).mem = true := by
  unfold State.zeroPage
  refine State.foldl_wf _ (fun _ _ hx => ?_) _ ?_
  · exact hx
  · exact Sparse.wf_filter _ h

/-- The firmware's writes at boot keep the canonical form. -/
theorem State.wf_bootBytes (l : List (Nat × List Byte)) {s : State} (h : Memory.wf s.mem = true) :
    Memory.wf (l.foldl (fun (x : State) p => { x with mem := Sparse.setN memDefault x.mem p.1 p.2 }) s).mem = true :=
by
  refine State.foldl_wf _ (fun _ a hx => ?_) l h
  exact Sparse.wf_setN a.2 a.1 hx

end Sys2Proof.Machine
end

