-- ==== Sys2Proof/Laws/Warp.lean ====
section
/-! SUPPORT. What the shared operations of a meaning do: the selected warp, what an instruction answers, registers read after
they are written, one team or warp updated, and the answer to a request. -/

namespace Sys2Proof.Machine

/-! ### The selected warp and what its instruction answers -/

/-- An instruction of the selected warp leaves what its answer says. -/
theorem onWarp_some {s : State} {t : Team} {j : Nat} {w : Warp} (f : Team → Nat → Warp → Issue) (h : s.curWarp = some (t, j, w)) :
    onWarp s f = .next (s.finish t j (f t j w)) := by
  simp only [onWarp, h]

theorem onWarp_none {s : State} (f : Team → Nat → Warp → Issue) (h : s.curWarp = none) : onWarp s f = .fault .noWarp := by
  simp only [onWarp, h]

/-- The selected warp is a running warp of a resident team. -/
theorem curWarp_spec {s : State} {t : Team} {j : Nat} {w : Warp} (h : s.curWarp = some (t, j, w)) :
    s.findTeam t.uid = some t ∧ t.warps[j]? = some w ∧ s.cur = some (t.uid, j) ∧ t.place = .resident ∧ w.status = .running := by
  unfold State.curWarp State.findWarp Team.warp at h
  split at h
  · cases h
  next u i hc =>
    split at h
    · cases h
    next t' w' hw =>
      split at h
      next hp =>
        cases h
        split at hw
        · cases hw
        next t1 ht =>
          split at hw
          · cases hw
          next w1 hj =>
            cases hw
            have hu : t.uid = u := by simpa using List.find?_some ht
            exact ⟨hu ▸ ht, hj, hu ▸ hc, hp.1, hp.2⟩
      · cases h

@[simp] theorem State.finish_done (s s' : State) (t : Team) (j : Nat) (w : Warp) :
    s.finish t j (.done s' w) = s'.updWarp t.uid j fun x => { w.advance with watched := x.watched } := rfl
@[simp] theorem State.finish_goto (s s' : State) (t : Team) (j : Nat) (w : Warp) :
    s.finish t j (.goto s' w) = s'.updWarp t.uid j fun x => { w with watched := x.watched } := rfl
@[simp] theorem State.finish_hold (s : State) (t : Team) (j : Nat) : s.finish t j .hold = { s with held := true } := rfl
@[simp] theorem State.finish_trap (s s' : State) (t : Team) (j : Nat) (w : Warp) (x : Trouble) :
    s.finish t j (.trap s' w x) = s'.suspend t j w x := rfl

@[simp] theorem require_true (s : State) (w : Warp) (k : Issue) : require true s w k = k := rfl
@[simp] theorem require_false (s : State) (w : Warp) (k : Issue) : require false s w k = .trap s w { code := .illegal } := rfl
theorem reading_none {s : State} {w : Warp} {regs : List Nat} {m : LaneMask} (k : Issue) (h : w.poisoned regs m = none) :
    reading s w regs m k = k := by simp only [reading, h]
theorem reading_some {s : State} {w : Warp} {regs : List Nat} {m : LaneMask} (k : Issue) {l : Nat} {p : Poison}
    (h : w.poisoned regs m = some (l, p)) : reading s w regs m k = .trap s w (Trouble.ofPoison l p) := by
  simp only [reading, h]

/-! ### Registers (R7, R76) -/

@[simp] theorem Warp.sget_s63 (w : Warp) : w.sget 63 = 0 := rfl
@[simp] theorem Warp.sset_s63 (w : Warp) (v : Word) : w.sset 63 v = w := rfl
theorem Warp.sget_sset_self (w : Warp) {r : Nat} (v : Word) (h : r ≠ 63) : (w.sset r v).sget r = v := by
  simp [Warp.sget, Warp.sset, h, Sparse.get_set_self]
theorem Warp.sget_sset_other (w : Warp) {r q : Nat} (v : Word) (h : q ≠ r) : (w.sset r v).sget q = w.sget q := by
  by_cases hr : r = 63
  · simp [Warp.sset, hr]
  · simp [Warp.sget, Warp.sset, hr, Sparse.get_set_other _ _ _ _ h]
theorem vkey_inj {r q l k : Nat} (hl : l < 32) (hk : k < 32) (h : vkey r l = vkey q k) : r = q ∧ l = k := by
  unfold vkey at h
  omega
theorem Warp.vget_vset_self (w : Warp) (r l : Nat) (v : Word) : (w.vset r l v).vget r l = v := by
  simp [Warp.vget, Warp.vset, Sparse.get_set_self]
theorem Warp.vget_vset_other (w : Warp) {r q l k : Nat} (v : Word) (h : vkey q k ≠ vkey r l) : (w.vset r l v).vget q k = w.vget q k := by
  simp [Warp.vget, Warp.vset, Sparse.get_set_other _ _ _ _ h]

/-! ### One team or one warp updated -/

theorem State.findTeam_updTeam_other {s : State} {u v : Nat} (f : Team → Team) (hf : ∀ t, (f t).uid = t.uid) (h : v ≠ u) :
    (s.updTeam u f).findTeam v = s.findTeam v := by
  show (s.teams.map _).find? _ = s.teams.find? _
  induction s.teams with
  | nil => rfl
  | cons t r ih =>
    rw [List.map_cons, List.find?_cons, List.find?_cons, ih]
    by_cases ht : t.uid = u
    · have h1 : (t.uid == v) = false := by simpa [ht] using Ne.symm h
      simp only [if_pos ht, hf, h1]
    · simp only [ht, if_false]

theorem State.findTeam_updTeam_self {s : State} {u : Nat} (f : Team → Team) (hf : ∀ t, (f t).uid = t.uid) :
    (s.updTeam u f).findTeam u = (s.findTeam u).map f := by
  show (s.teams.map _).find? _ = (s.teams.find? _).map f
  induction s.teams with
  | nil => rfl
  | cons t r ih =>
    rw [List.map_cons, List.find?_cons, List.find?_cons, ih]
    by_cases ht : t.uid = u
    · simp [ht, hf]
    · have h1 : (t.uid == u) = false := by simpa using ht
      simp only [ht, if_false, h1]

/-- The warp updated, and its team with no other warp changed. -/
theorem State.findWarp_updWarp_self {s : State} {u j : Nat} {t : Team} {w : Warp} (f : Warp → Warp) (h : s.findWarp u j = some (t, w)) :
    (s.updWarp u j f).findWarp u j = some (t.updWarp j f, f w) := by
  unfold State.findWarp at h ⊢
  unfold State.updWarp
  rw [State.findTeam_updTeam_self (fun t => t.updWarp j f) fun _ => rfl]
  split at h
  · cases h
  next t1 ht =>
    split at h
    · cases h
    next w1 hw =>
      cases h
      have : (t.updWarp j f).warp j = some (f w) := by
        simp only [Team.warp, Team.updWarp, List.getElem?_modify_eq]
        simp [show t.warps[j]? = some w from hw]
      simp [ht, this]

theorem Team.updWarp_other (t : Team) {j k : Nat} (f : Warp → Warp) (h : k ≠ j) : (t.updWarp j f).warps[k]? = t.warps[k]? := by
  simp [Team.updWarp, Ne.symm h]

/-! ### The answer to a request (R366, R370, R384) -/

/-- A frame that is not accepted changes nothing. -/
theorem onFrame_refused {s : State} {h : MsgHead} {x : Session} (ty : Nat) (req : Option LongRequest)
    (f : Session → Bool → State → Reply) (hx : KMap.find s.sessions h.session = some x) (ha : x.accept h.seq req = none) :
    onFrame h ty req s f = .next s := by
  simp only [onFrame, hx, ha]

/-- While a request is under way no other is accepted. -/
theorem Session.accept_other {x : Session} {q : LongRequest} (seq : Nat) {req : Option LongRequest} (hu : x.underWay = some q)
    (hr : req ≠ some q) : x.accept seq req = none := by
  simp only [Session.accept, hu, hr, if_false]

/-- A new request is accepted. -/
theorem Session.accept_new {x : Session} {seq : Nat} (req : Option LongRequest) (hu : x.underWay = none) (hq : x.rxSeq < seq) :
    x.accept seq req = some (false, { x with rxSeq := seq }) := by
  simp only [Session.accept, hu, hq, if_true]

/-- A new request is accepted and answered. -/
theorem onFrame_new {s : State} {h : MsgHead} {x : Session} (ty : Nat) (req : Option LongRequest)
    (f : Session → Bool → State → Reply) (hx : KMap.find s.sessions h.session = some x) (hu : x.underWay = none)
    (hq : x.rxSeq < h.seq) :
    onFrame h ty req s f = .next ((s.setSession h.session { x with rxSeq := h.seq }).answer h ty req
      (f { x with rxSeq := h.seq } false (s.setSession h.session { x with rxSeq := h.seq }))) := by
  simp only [onFrame, hx, Session.accept_new req hu hq]

/-- A new MGMT request whose RTAG names no remembered one: it is checked, then answered. -/
theorem onMgmtAs_new {s : State} {h : MsgHead} {x : Session} (req : Option LongRequest) (ok : Bool) (allowed : Nat → Bool)
    (f : Session → Bool → State → Reply) (hx : KMap.find s.sessions h.session = some x) (hu : x.underWay = none)
    (hq : x.rxSeq < h.seq) (hr : ∀ p ∈ x.remembered, p.1 ≠ h.rtag) :
    onMgmtAs req h ok allowed s f = .next ((s.setSession h.session { x with rxSeq := h.seq }).answer h 0x13 req
      (checks [(!h.formOk || !ok, stBadRequest), (!allowed x.world, stDenied)]
        (f { x with rxSeq := h.seq } false (s.setSession h.session { x with rxSeq := h.seq })))) := by
  have hn : x.remembered.find? (fun p => p.1 == h.rtag) = none := by
    simp only [List.find?_eq_none, beq_iff_eq]
    exact hr
  simp only [onMgmtAs, hx, Session.accept_new req hu hq, hn]
  exact onFrame_new 0x13 req
    (fun x again s1 => checks [(!h.formOk || !ok, stBadRequest), (!allowed x.world, stDenied)] (f x again s1)) hx hu hq

/-- A malformed MGMT request is refused. -/
theorem checks_malformed (ok : Bool) (l : List (Bool × Nat)) (k : Reply) :
    checks ((!false || !ok, stBadRequest) :: l) k = .refused stBadRequest [] := by
  simp [checks, Reply.refuse]

end Sys2Proof.Machine
end

