-- ==== Sys2Proof/Tests/Slice0.lean ====
section
/-! SUPPORT. Tests: ill-formed terms that WellFormed refuses, words of every family decoded, and for every statement with
hypotheses a concrete state and operands that meet them. -/

set_option Elab.async false

namespace Sys2Proof.Tests

open Sys2Proof.Machine Sys2Proof.Spec

/-! ### WellFormed refuses (R75 to R77): one ill-formed term for each kind of field -/

/-- None of these is well formed. -/
def allRefused (l : List Instr) : Bool := l.all fun i => !i.wf

/-- Scalar register fields hold 0 to 63; sm of the lane exchanges 0 to 15. -/
theorem test_refuses_scalar_fields :
    allRefused [.sAdd 64 0 0 false, .sAdd 0 64 0 false, .sAdd 0 0 64 true, .siAdd 64 0 0, .siAdd 0 64 0, .siMovs 64 0, .ldl 64 0,
      .brcZ 64 0, .gets 64 0 0, .sets 64 0, .pollBits 64 0 0, .combAddI32 0 0 64, .lxAt 0 0 0 false 16, .pto 0 64, .pfrom 0 64,
      .tmset 64 0 0, .tmset 0 64 0, .tmset 0 0 64, .hostcall 64 0, .setsr 64 0, .cpy 0 64, .apush 0 0 64] = true := by decide +kernel

/-- Vector register fields hold 0 to 127. -/
theorem test_refuses_vector_fields :
    allRefused [.vAdd 128 0 0, .vAdd 0 128 0, .vAdd 0 0 128, .viAdd 128 0 0, .viAdd 0 128 0, .vCmpEq 0 128 0 .i32, .vCmpEq 0 0 128 .i32,
      .cvt 128 0 .i8 .i16 .fpmode false, .vrot 0 128 .b16 0 .f32f32, .lxAt 128 0 0 false 0, .lxAt 0 0 128 false 0, .sel 0 0 128 0,
      .gets 0 128 0, .ldG .b32 .default 128 0 0, .stS .b32 0 128 0, .atomAdd 128 0 .i32 .team .rlx false, .atomSAdd 0 128 .i32 .rlx,
      .waitmon 128, .waitge 128 0 false, .getsr 128 0] = true := by decide +kernel

/-- Predicate, seed and token fields hold 0 to 7; a barrier 0 to 15; a lane 0 to 31. -/
theorem test_refuses_small_fields :
    allRefused [.vCmpEq 8 0 0 .i32, .pand 8 0 0, .pand 0 8 0, .pand 0 0 8, .sel 0 0 0 8, .brv 8 0 0, .vrot 0 0 .b16 8 .f32f32,
      .tmld 8 0 0, .mark 8, .bpost 16 1, .bhold 16, .gets 0 0 32] = true := by decide +kernel

/-- Counts and numbers: cnt of bpost, kmask and n of wait, cnt, step and sz of rep, imm9 of the system words. -/
theorem test_refuses_counts :
    allRefused [.bpost 0 2048, .wait 256 .l false 0, .wait 0 .l true 64, .rep 64 0 0, .rep 0 8 0, .rep 0 0 4, .trap 512,
      .hostcall 0 512, .getsr 0 512, .setsr 0 512, .sleep 512] = true := by decide +kernel

/-- Immediates and offsets: imm9, imm7, off7, off19, off23, off17, tgt13, join10; a store has no sign-extending type. -/
theorem test_refuses_immediates :
    allRefused [.siAdd 0 0 256, .siAdd 0 0 (-257), .viAdd 0 0 64, .viAdd 0 0 (-65), .ldG .b32 .default 0 0 64,
      .stS .b32 0 0 (-65), .ldl 0 262144, .bra 4194304, .call (-4194305), .brcZ 0 65536, .brv 0 4096 0, .brv 0 0 512,
      .stG .i8 .default 0 0 0, .stS .i16 0 0 0] = true := by decide +kernel

/-! ### Words written out from the encoding tables (R75 to R93), every field at a value with its top bit set -/

/-- Each word decodes to the instruction beside it. -/
def decodesAll (l : List (Nat × Instr)) : Prop :=
  match l with
  | [] => True
  | p :: r => decodeWord p.1 = .ok p.2 ∧ decodesAll r

/-- Opcodes 0x00. -/
theorem test_decode_scalar : decodesAll
    [(0x0218A320, .sAdd 33 34 35 true), (0x0218A321, .sSub 33 34 35 true), (0x0218A302, .sMul 33 34 35),
     (0x0218A303, .sMulhiI32 33 34 35), (0x0218A304, .sMulhiN32 33 34 35), (0x0218A325, .sAnd 33 34 35 true),
     (0x0218A326, .sOr 33 34 35 true), (0x0218A327, .sXor 33 34 35 true), (0x0218A328, .sShl 33 34 35 true),
     (0x0218A329, .sShr 33 34 35 true), (0x0218A32A, .sSra 33 34 35 true), (0x0218A30B, .sMinI32 33 34 35),
     (0x0218A30C, .sMaxI32 33 34 35), (0x0218A30D, .sMinN32 33 34 35), (0x0218A30E, .sMaxN32 33 34 35),
     (0x0218802F, .sMovs 33 34 true), (0x0218A330, .sCmpEq 33 34 35 true), (0x0218A331, .sCmpNe 33 34 35 true),
     (0x0218A332, .sCmpLtI32 33 34 35 true), (0x0218A333, .sCmpLeI32 33 34 35 true),
     (0x0218A334, .sCmpLtN32 33 34 35 true), (0x0218A335, .sCmpLeN32 33 34 35 true),
     (0x0218A336, .sCmpGtI32 33 34 35 true), (0x0218A337, .sCmpGeI32 33 34 35 true),
     (0x0218A338, .sCmpGtN32 33 34 35 true), (0x0218A339, .sCmpGeN32 33 34 35 true)] :=
  by repeat first | exact trivial | refine ⟨rfl, ?_⟩

/-- Opcodes 0x01. -/
theorem test_decode_scalar_immediate : decodesAll
    [(0x06188103, .siAdd 33 34 (-253)), (0x06188303, .siSub 33 34 (-253)), (0x06188503, .siMul 33 34 (-253)),
     (0x06188703, .siMulhiI32 33 34 (-253)), (0x06188903, .siMulhiN32 33 34 (-253)),
     (0x06188B03, .siAnd 33 34 (-253)), (0x06188D03, .siOr 33 34 (-253)), (0x06188F03, .siXor 33 34 (-253)),
     (0x06189103, .siShl 33 34 (-253)), (0x06189303, .siShr 33 34 (-253)), (0x06189503, .siSra 33 34 (-253)),
     (0x06189703, .siMinI32 33 34 (-253)), (0x06189903, .siMaxI32 33 34 (-253)), (0x06189B03, .siMinN32 33 34 (-253)),
     (0x06189D03, .siMaxN32 33 34 (-253)), (0x06101F02, .siMovs 33 (-254)), (0x0618A103, .siCmpEq 33 34 (-253)),
     (0x0618A303, .siCmpNe 33 34 (-253)), (0x0618A503, .siCmpLtI32 33 34 (-253)),
     (0x0618A703, .siCmpLeI32 33 34 (-253)), (0x0618A903, .siCmpLtN32 33 34 (-253)),
     (0x0618AB03, .siCmpLeN32 33 34 (-253)), (0x0618AD03, .siCmpGtI32 33 34 (-253)),
     (0x0618AF03, .siCmpGeI32 33 34 (-253)), (0x0618B103, .siCmpGtN32 33 34 (-253)),
     (0x0618B303, .siCmpGeN32 33 34 (-253)), (0x0618B503, .siAddI64 33 34 (-253))] :=
  by repeat first | exact trivial | refine ⟨rfl, ?_⟩

/-- Opcodes 0x02, 0x03, 0x04, 0x05, 0x06, 0x07, 0x08. -/
theorem test_decode_control_flow : decodesAll
    [(0x0A140002, .ldl 33 (-262142)), (0x0A1C0002, .ldlB64 33 (-262142)), (0x0C400001, .bra (-4194303)),
     (0x12110002, .brcZ 33 (-65534)), (0x12130002, .brcNz 33 (-65534)), (0x12150002, .brcNeg 33 (-65534)),
     (0x12170002, .brcNneg 33 (-65534)), (0x12190002, .brcPos 33 (-65534)), (0x121B0002, .brcNpos 33 (-65534)),
     (0x16C00A03, .brv 5 (-4094) (-509)), (0x1AC00800, .brRg 5 (-4094)), (0x1C400001, .call (-4194303)),
     (0x20000000, .exit), (0x20400000, .ret), (0x20800000, .nop), (0x20C00000, .yield)] :=
  by repeat first | exact trivial | refine ⟨rfl, ?_⟩

/-- Opcodes 0x09, 0x0A, 0x0B, 0x0C. -/
theorem test_decode_lane_moves_barriers_waits : decodesAll
    [(0x26185300, .gets 33 66 19), (0x26184001, .getsFirst 33 66), (0x26184002, .sets 33 66),
     (0x2A480200, .bpost 9 1025), (0x2A500000, .bhold 9), (0x28200000, .barg), (0x2E06C800, .wait 129 .c true 36),
     (0x321D8000, .rep 33 6 3)] :=
  by repeat first | exact trivial | refine ⟨rfl, ?_⟩

/-- Opcodes 0x10. -/
theorem test_decode_vector : decodesAll
    [(0x420C2860, .vAdd 65 66 67), (0x420C2861, .vSub 65 66 67), (0x420C2862, .vMul 65 66 67),
     (0x420C2863, .vMulhiI32 65 66 67), (0x420C2864, .vMulhiN32 65 66 67), (0x420C2865, .vMad 65 66 67),
     (0x420C2866, .vMinI32 65 66 67), (0x420C2867, .vMaxI32 65 66 67), (0x420C2868, .vMinN32 65 66 67),
     (0x420C2869, .vMaxN32 65 66 67), (0x420C286A, .vAnd 65 66 67), (0x420C286B, .vOr 65 66 67),
     (0x420C286C, .vXor 65 66 67), (0x420C286D, .vShl 65 66 67), (0x420C286E, .vShr 65 66 67),
     (0x420C286F, .vSra 65 66 67), (0x420C2010, .vClz 65 66), (0x420C2011, .vPopc 65 66),
     (0x420C2012, .vAbsI32 65 66), (0x420C2873, .vAddSatI32 65 66 67), (0x420C2874, .vSubSatI32 65 66 67),
     (0x420C2015, .vMov 65 66)] :=
  by repeat first | exact trivial | refine ⟨rfl, ?_⟩

/-- Opcodes 0x11. -/
theorem test_decode_vector_immediate : decodesAll
    [(0x460C2860, .viAdd 65 66 (-61)), (0x460C2861, .viSub 65 66 (-61)), (0x460C2862, .viMul 65 66 (-61)),
     (0x460C2863, .viMulhiI32 65 66 (-61)), (0x460C2864, .viMulhiN32 65 66 (-61)),
     (0x460C2866, .viMinI32 65 66 (-61)), (0x460C2867, .viMaxI32 65 66 (-61)), (0x460C2868, .viMinN32 65 66 (-61)),
     (0x460C2869, .viMaxN32 65 66 (-61)), (0x460C286A, .viAnd 65 66 (-61)), (0x460C286B, .viOr 65 66 (-61)),
     (0x460C286C, .viXor 65 66 (-61)), (0x460C286D, .viShl 65 66 (-61)), (0x460C286E, .viShr 65 66 (-61)),
     (0x460C286F, .viSra 65 66 (-61)), (0x46080850, .viMov 65 (-62))] :=
  by repeat first | exact trivial | refine ⟨rfl, ?_⟩

/-- Opcodes 0x12. -/
theorem test_decode_vector64 : decodesAll
    [(0x4A0C2860, .v64Add 65 66 67), (0x4A0C2861, .v64Sub 65 66 67), (0x4A0C2862, .v64Mul 65 66 67),
     (0x4A0C2866, .v64MinI64 65 66 67), (0x4A0C2867, .v64MaxI64 65 66 67), (0x4A0C2868, .v64MinN64 65 66 67),
     (0x4A0C2869, .v64MaxN64 65 66 67), (0x4A0C286A, .v64And 65 66 67), (0x4A0C286B, .v64Or 65 66 67),
     (0x4A0C286C, .v64Xor 65 66 67), (0x4A0C286D, .v64Shl 65 66 67), (0x4A0C286E, .v64Shr 65 66 67),
     (0x4A0C286F, .v64Sra 65 66 67), (0x4A0C2010, .v64Clz 65 66), (0x4A0C2011, .v64Popc 65 66),
     (0x4A0C2875, .v64MulWideI32 65 66 67), (0x4A0C2876, .v64MulWideN32 65 66 67)] :=
  by repeat first | exact trivial | refine ⟨rfl, ?_⟩

/-- Opcodes 0x13, 0x16. -/
theorem test_decode_compares : decodesAll
    [(0x4EC28620, .vCmpEq 5 66 67 .i64), (0x4EC28660, .vCmpNe 5 66 67 .i64), (0x4EC286A0, .vCmpLt 5 66 67 .i64),
     (0x4EC286E0, .vCmpLe 5 66 67 .i64), (0x4EC28720, .vCmpGt 5 66 67 .i64), (0x4EC28760, .vCmpGe 5 66 67 .i64),
     (0x5AC28610, .vFcmpEq 5 66 67 true), (0x5AC28650, .vFcmpNe 5 66 67 true), (0x5AC28690, .vFcmpLt 5 66 67 true),
     (0x5AC286D0, .vFcmpLe 5 66 67 true), (0x5AC28710, .vFcmpGt 5 66 67 true), (0x5AC28750, .vFcmpGe 5 66 67 true),
     (0x5AC28790, .vFcmpNum 5 66 67 true), (0x5AC287D0, .vFcmpNan 5 66 67 true)] :=
  by repeat first | exact trivial | refine ⟨rfl, ?_⟩

/-- Opcodes 0x14, 0x15. -/
theorem test_decode_fp : decodesAll
    [(0x520C2860, .vFaddF32 65 66 67), (0x520C2861, .vFsubF32 65 66 67), (0x520C2862, .vFmulF32 65 66 67),
     (0x520C2863, .vFmaF32 65 66 67), (0x520C2864, .vFminF32 65 66 67), (0x520C2865, .vFmaxF32 65 66 67),
     (0x520C2006, .vFabsF32 65 66), (0x520C2007, .vFnegF32 65 66), (0x560C2860, .vFaddF64 65 66 67),
     (0x560C2861, .vFsubF64 65 66 67), (0x560C2862, .vFmulF64 65 66 67), (0x560C2863, .vFmaF64 65 66 67),
     (0x560C2864, .vFminF64 65 66 67), (0x560C2865, .vFmaxF64 65 66 67), (0x560C2006, .vFabsF64 65 66),
     (0x560C2007, .vFnegF64 65 66)] :=
  by repeat first | exact trivial | refine ⟨rfl, ?_⟩

/-- Opcodes 0x17, 0x18. -/
theorem test_decode_special : decodesAll
    [(0x5E0C2000, .vRcpF32 65 66), (0x5E0C2001, .vRsqF32 65 66), (0x5E0C2002, .vSqrtF32 65 66),
     (0x5E0C2003, .vExp2F32 65 66), (0x5E0C2004, .vLog2F32 65 66), (0x5E0C2005, .vSinF32 65 66),
     (0x5E0C2006, .vCosF32 65 66), (0x620C2000, .vRcpF64 65 66), (0x620C2001, .vRsqF64 65 66),
     (0x620C2002, .vSqrtF64 65 66)] :=
  by repeat first | exact trivial | refine ⟨rfl, ?_⟩

/-- Opcodes 0x19, 0x1A. -/
theorem test_decode_conversions_rotations : decodesAll
    [(0x660C2926, .cvt 65 66 .f32 .i32 .rdn false), (0x6A0C2A08, .vrot 65 66 .b64 4 .f32bf16),
     (0x6A0C2A58, .virot 65 66 .b64 4 .bf16f32)] :=
  by repeat first | exact trivial | refine ⟨rfl, ?_⟩

/-- Opcodes 0x28, 0x29, 0x2A, 0x2B, 0x2C. -/
theorem test_decode_cross_lane : decodesAll
    [(0xA20C227D, .lxAt 65 66 19 true 13), (0xA60C227D, .lxLo 65 66 19 true 13), (0xAA0C227D, .lxHi 65 66 19 true 13),
     (0xAE0C227D, .lxXor 65 66 19 true 13), (0xB02868C0, .pollEvery 5 6 35), (0xB02868C1, .pollSome 5 6 35),
     (0xB10868C2, .pollBits 33 6 35), (0xB20C28C3, .peersB32 65 66 35), (0xB20C28C4, .peersB64 65 66 35),
     (0xB20C28C8, .combAddI32 65 66 35), (0xB20C28C9, .combMinI32 65 66 35), (0xB20C28CA, .combMaxI32 65 66 35),
     (0xB20C28CB, .combMinN32 65 66 35), (0xB20C28CC, .combMaxN32 65 66 35), (0xB20C28CD, .combAndB32 65 66 35),
     (0xB20C28CE, .combOrB32 65 66 35), (0xB20C28CF, .combXorB32 65 66 35), (0xB20C28D0, .combAddF32 65 66 35),
     (0xB20C28D1, .combMinF32 65 66 35), (0xB20C28D2, .combMaxF32 65 66 35)] :=
  by repeat first | exact trivial | refine ⟨rfl, ?_⟩

/-- Opcodes 0x2D, 0x2E. -/
theorem test_decode_predicates : decodesAll
    [(0xB60C2870, .sel 65 66 67 4), (0xBAEE0000, .pand 5 6 7), (0xBAEE2000, .por 5 6 7), (0xBAEE4000, .pxor 5 6 7),
     (0xBAEE6000, .pandn 5 6 7), (0xBAE08000, .pnot 5 6), (0xBAE0A000, .pmov 5 6), (0xBA80D100, .pfrom 5 34),
     (0xB850F100, .pto 5 34)] :=
  by repeat first | exact trivial | refine ⟨rfl, ?_⟩

/-- Opcodes 0x30, 0x31, 0x32, 0x33. -/
theorem test_decode_loads_stores : decodesAll
    [(0xC2F0E245, .ldG .b64 .bypass 67 68 (-59)), (0xC6F0E245, .stG .b64 .bypass 67 68 (-59)),
     (0xCA90A1C4, .ldS .b64 66 67 (-60)), (0xCE90A1C4, .stS .b64 66 67 (-60))] :=
  by repeat first | exact trivial | refine ⟨rfl, ?_⟩

/-- Opcodes 0x34. -/
theorem test_decode_atomics : decodesAll
    [(0xD20C2063, .atomLd 65 66 .i64 .dev .acq true), (0xD20C2163, .atomSt 65 66 .i64 .dev .acq true),
     (0xD20C2263, .atomExch 65 66 .i64 .dev .acq true), (0xD20C2363, .atomCas 65 66 .i64 .dev .acq true),
     (0xD20C2463, .atomAdd 65 66 .i64 .dev .acq true), (0xD20C2563, .atomMin 65 66 .i64 .dev .acq true),
     (0xD20C2663, .atomMax 65 66 .i64 .dev .acq true), (0xD20C2763, .atomAnd 65 66 .i64 .dev .acq true),
     (0xD20C2863, .atomOr 65 66 .i64 .dev .acq true)] :=
  by repeat first | exact trivial | refine ⟨rfl, ?_⟩

/-- Opcodes 0x35. -/
theorem test_decode_scratch_atomics : decodesAll
    [(0xD60C2042, .atomSLd 65 66 .i64 .acq), (0xD60C2142, .atomSSt 65 66 .i64 .acq),
     (0xD60C2242, .atomSExch 65 66 .i64 .acq), (0xD60C2342, .atomSCas 65 66 .i64 .acq),
     (0xD60C2442, .atomSAdd 65 66 .i64 .acq), (0xD60C2542, .atomSMin 65 66 .i64 .acq),
     (0xD60C2642, .atomSMax 65 66 .i64 .acq), (0xD60C2742, .atomSAnd 65 66 .i64 .acq),
     (0xD60C2842, .atomSOr 65 66 .i64 .acq)] :=
  by repeat first | exact trivial | refine ⟨rfl, ?_⟩

/-- Opcodes 0x36. -/
theorem test_decode_fences : decodesAll
    [(0xD80009C0, .fence .dev .acqrel true), (0xD8041801, .cctlInv 65 .dev), (0xD8041802, .cctlWb 65 .dev),
     (0xD8041803, .cctlWbinv 65 .dev), (0xD8041804, .prefetch 65 .dev), (0xD8041005, .waitmon 65),
     (0xDA0C2026, .waitge 65 66 true)] :=
  by repeat first | exact trivial | refine ⟨rfl, ?_⟩

/-- Opcodes 0x38, 0x39. -/
theorem test_decode_copies : decodesAll
    [(0xE2C51800, .tmld 5 34 35), (0xE0431461, .tmset 33 34 35), (0xE2C40002, .cpy 5 34), (0xE2C40003, .cpym 5 34),
     (0xE0431004, .sgset 33 34), (0xE6C40000, .rot 5 34), (0xE6C40001, .irot 5 34)] :=
  by repeat first | exact trivial | refine ⟨rfl, ?_⟩

/-- Opcodes 0x3A. -/
theorem test_decode_matrix : decodesAll
    [(0xEAC40000, .mma 5 34), (0xEAC40001, .accLd 5 34), (0xEAC40002, .accSt 5 34), (0xE8420003, .accZero 33),
     (0xE8420004, .bswap 33)] :=
  by repeat first | exact trivial | refine ⟨rfl, ?_⟩

/-- Opcodes 0x3B. -/
theorem test_decode_layers : decodesAll
    [(0xEEC40000, .layerF 5 34), (0xEEC40001, .layerT 5 34), (0xEEC40002, .layerP 5 34), (0xEEC51803, .apush 5 34 35),
     (0xEEC51804, .apop 5 34 35)] :=
  by repeat first | exact trivial | refine ⟨rfl, ?_⟩

/-- Opcodes 0x3C. -/
theorem test_decode_rows : decodesAll
    [(0xF2C40000, .reelSmax 5 34), (0xF2C40001, .reelNorm 5 34), (0xF2C40002, .reelDsmax 5 34),
     (0xF2C40003, .reelDnorm 5 34), (0xF2C40004, .reelStat 5 34), (0xF2C40005, .reelClr 5 34)] :=
  by repeat first | exact trivial | refine ⟨rfl, ?_⟩

/-- Opcodes 0x3D. -/
theorem test_decode_near_bank : decodesAll
    [(0xF6C40000, .pimx 5 34), (0xF6C51801, .pimld 5 34 35), (0xF6800002, .mark 5), (0xF4000003, .pimwait)] :=
  by repeat first | exact trivial | refine ⟨rfl, ?_⟩

/-- Opcodes 0x3E. -/
theorem test_decode_system : decodesAll
    [(0xF8000101, .trap 257), (0xF8400000, .eret), (0xF8804302, .hostcall 33 258), (0xF8E08102, .getsr 65 258),
     (0xF9004302, .setsr 33 258), (0xF9400101, .sleep 257)] :=
  by repeat first | exact trivial | refine ⟨rfl, ?_⟩


/-! ### Witnesses: for each statement with hypotheses, and each of its clauses, a state and operands that meet them together -/

open Sys2Proof.Spec

/-- A machine with one team of one warp, about to run a word of its clause. -/
def base : State := { State.reset.withFetchWord 32 0x40081000 with cur := some (1, 0), schedule := [] }
def baseHeader : Header := { cls := .valu, kwait := 0, wl := false, ws := false, yield := false, count := 2 }

/-- A page of memory mapped and allocated to the warp's world. -/
def page (v p : Nat) : TlbEntry := { placedTlb with vpage := v, gpage := p, ppage := p }

/-- Lines of world 0 that the LLC holds, so that a read of them does not reach the cells. -/
def heldLines (ls : List Nat) : List LlcLine :=
  ls.map fun n => { line := n, way := 0, world := 0, hint := .default, dirty := false }

/-- `base` with its warp and its team changed, and with pages for the team's context area. -/
def at0 (f : Warp → Warp) (g : Team → Team) : State :=
  let s := (base.updTeam 1 g).updWarp 1 0 f
  { s with
    tlb := [placedTlb, page 66 3, page 67 3]
    pot := [(0, potEntry 0 1 false 0), (3, potEntry 0 1 false 0)] }

/-- The team and the warp whose turn it is, and that it is warp 0's. -/
def team (s : State) : Team := ((s.curWarp).map (·.1)).getD (placedTeam baseHeader)
def warp (s : State) : Warp := ((s.curWarp).map (·.2.2)).getD Warp.zero
abbrev runs (s : State) : Prop := s.curWarp = some (team s, 0, warp s)

/-- Three active lanes, a register unreadable in one of the others, and register values. -/
def lanes3 : State :=
  at0 (fun w =>
    { w with
      active := 0x80000021#32, live := 0x80000023#32, sregs := [(9, 0x80000125#32), (62, 3#32)]
      vregs := [(64, 0x3FC00000#32), (69, 0x7FC00000#32), (95, 0x7F800001#32), (96, 1#32), (128, 0x80000000#32)]
      poison := [(vkey 8 1, { hdr := 64, idx := 1, addr := 77, fault := .integrity })] }) id

/-- An operation that may fail succeeds here, with some result. -/
def fine {α β : Type} (e : Except α β) : Bool := match e with | .ok _ => true | .error _ => false
theorem fine_ok {α β : Type} (e : Except α β) : fine e = true → ∃ x, e = .ok x := by
  cases e <;> simp [fine]
theorem fine_error {α β : Type} (e : Except α β) : fine e = false → ∃ x, e = .error x := by
  cases e <;> simp [fine]
/-- An operation that may fail succeeds here with `x`. -/
def okIs {α β : Type} [DecidableEq β] (e : Except α β) (x : β) : Bool := match e with | .ok y => decide (y = x) | .error _ => false
theorem okIs_ok {α β : Type} [DecidableEq β] (e : Except α β) (x : β) : okIs e x = true → e = .ok x := by
  cases e <;> simp [okIs]
/-- A read answers these bytes. -/
def reads {ε β : Type} (e : Except ε (List Byte × β)) (b : List Byte) : Bool := match e with | .ok x => decide (x.1 = b) | .error _ => false
theorem reads_ok {ε β : Type} (e : Except ε (List Byte × β)) (b : List Byte) : reads e b = true → ∃ s, e = .ok (b, s) := by
  cases e <;> simp [reads]
  intro h; exact ⟨_, by rw [← h]⟩

theorem witness_tables : scalarWide ≠ [] ∧ scalarNarrow ≠ [] ∧ scalarCompares ≠ [] ∧ scalarImm ≠ [] ∧ scalarImmShifts ≠ [] ∧
    scalarImmCompares ≠ [] ∧ vectorOps ≠ [] ∧ vectorUnary ≠ [] ∧ vectorImm ≠ [] ∧ vectorImmShifts ≠ [] ∧ vector64 ≠ [] ∧
    vector64Shifts ≠ [] ∧ vectorWiden ≠ [] ∧ vector64Counts ≠ [] ∧ vectorCompares ≠ [] ∧ fpBinary ≠ [] ∧ fpUnary ≠ [] ∧
    fpCompares ≠ [] ∧ laneExchanges ≠ [] ∧ reductions ≠ [] ∧ fpReductions ≠ [] ∧ predicateOps ≠ [] ∧ scalarBranches ≠ [] ∧
    atomics ≠ [] ∧ cacheControls ≠ [] := by simp [scalarWide, scalarNarrow, scalarCompares, scalarImm, scalarImmShifts,
      scalarImmCompares, vectorOps, vectorUnary, vectorImm, vectorImmShifts, vector64, vector64Shifts, vectorWiden,
      vector64Counts, vectorCompares, fpBinary, fpUnary, fpCompares, laneExchanges, reductions, fpReductions, predicateOps,
      scalarBranches, atomics, cacheControls]

theorem witness_ScalarArithmetic : runs lanes3 ∧ (62 % 2 = 0 ∧ 0 % 2 = 0 ∧ 8 % 2 = 0) := by decide +kernel
theorem witness_ScalarImmediateForms : runs lanes3 ∧ (31 ≤ 31 ∧ 63 ≠ 62) ∧ ((63 % 2 = 1) ∧ ((-1 : Int) < 0 ∧ (31 : Int) < 32)) := by
  decide +kernel
theorem witness_VectorArithmetic : runs lanes3 ∧ has (team lanes3) 127 ∧ has (team lanes3) 0 ∧ 31 ≤ 31 ∧
    (warp lanes3).poisoned [127, 8, 0] (warp lanes3).active = none := by unfold has; decide +kernel
theorem witness_Vector64Ops : runs lanes3 ∧ hasPair (team lanes3) 126 ∧ has (team lanes3) 127 ∧
    (warp lanes3).poisoned [126, 127, 8, 9] (warp lanes3).active = none := by unfold has hasPair; decide +kernel
theorem witness_Compares : runs lanes3 ∧ cmpLegal .i64 (team lanes3) 126 ∧ cmpLegal .n32 (team lanes3) 127 ∧
    (warp lanes3).poisoned (cmpRegs .i64 126 ++ cmpRegs .i64 8) (warp lanes3).active = none ∧
    fpHas true (team lanes3) 126 ∧ fpHas false (team lanes3) 127 ∧
    (warp lanes3).poisoned (fpReads true 126 ++ fpReads true 8) (warp lanes3).active = none := by
  unfold cmpLegal fpHas has hasPair; decide +kernel
theorem witness_FloatingPoint : runs lanes3 ∧ fpHas true (team lanes3) 126 ∧ fpHas false (team lanes3) 127 ∧
    (warp lanes3).poisoned (fpReads true 126 ++ fpReads true 8 ++ fpReads true 2) (warp lanes3).active = none := by
  unfold fpHas has hasPair; decide +kernel
theorem witness_RoundingExact : 0xFFFF < 2 * bf16.sign ∧ bf16.isNaN 0x7F80 = false ∧ 1 < 2 * fp64.sign ∧
    fp64.isNaN 1 = false ∧ fp32.isNaN 0x807FFFFF = false := by decide +kernel
theorem witness_Conversions : runs lanes3 ∧ cvtOk .f64 .bf16 .fpmode true = false ∧ cvtOk .i8 .f64 .rne true = false ∧
    (cvtOk .i32 .f64 .rtz true = true ∧ numHas .i32 (team lanes3) 127 ∧ numHas .f64 (team lanes3) 126) ∧
    (warp lanes3).poisoned (numReads .f64 126) (warp lanes3).active = none ∧
    NumTy.isFloat .n64 = false ∧ NumTy.isFloat .i8 = false ∧ NumTy.bits .i8 ≤ NumTy.bits .n64 := by
  unfold numHas has hasPair; decide +kernel
theorem witness_CrossLane_rotations : runs lanes3 ∧
    (warp lanes3).poisoned ((List.range (blkRegs .b16)).map (8 - 1 + ·)) (warp lanes3).live = none ∧
    ¬ vrotFmt .identity .f32i8 ∧ ¬ virotFmt .b16 .f32bf16 ∧
    (vrotFmt .b16 .f32i8 ∧ groupHas (team lanes3) 126 (blkRegs .b16) (2 * blkRegs .b16) ∧
      groupHas (team lanes3) 7 (blkRegs .b16) (blkRegs .b16)) ∧
    (virotFmt .b16 .i8f32 ∧ groupHas (team lanes3) 127 (blkRegs .b16) (blkRegs .b16) ∧
      groupHas (team lanes3) 6 (blkRegs .b16) (2 * blkRegs .b16) ∧
      (warp lanes3).poisoned ((List.range (2 * blkRegs .b16)).map (6 + ·)) (warp lanes3).live = none) := by
  unfold vrotFmt virotFmt groupHas; decide +kernel
theorem witness_Predicates : has (team lanes3) 127 ∧ (warp lanes3).poisoned [127, 8] (warp lanes3).active = none := by
  unfold has; decide +kernel

/-- The lanes of a mask are all here; one is missing; one active lane is outside it. -/
def missing : State := at0 (fun w =>
  { w with
    sregs := [(9, 0x80000123#32), (10, 1#32)], active := 0x80000021#32, live := 0x80000023#32
    stack := [{ join := 8, mask := 0x80000023#32, pend := 2#32, tgt := 40, phase := false }] }) id
theorem witness_CrossLane : runs lanes3 ∧ has (team lanes3) 127 ∧ hasPair (team lanes3) 126 ∧ allHere (warp lanes3) 9 ∧ 31 < 32 ∧
    (warp lanes3).poisoned [126, 127] (parts (warp lanes3) 9) = none := by
  unfold has hasPair allHere parts; decide +kernel
/-- A cross-lane instruction is among those the statement covers, on registers the team has, or has not. -/
theorem crossLane_has : ∃ i ∈ crossLane (team missing) 127 126 31 true 9, i.1 = .lxAt 127 126 31 true 9 ∧ i.2.1 ∧ i.2.2 = [126] :=
  ⟨_, .head _, rfl, ⟨by unfold has; decide +kernel, by unfold has; decide +kernel, by rw [if_pos rfl]; decide⟩, rfl⟩
theorem crossLane_lacks : ∃ i ∈ crossLane (team missing) 128 126 31 true 9, i.1 = .lxAt 128 126 31 true 9 ∧ ¬ i.2.1 :=
  ⟨_, .head _, rfl, fun h => absurd h.1 (by unfold has; decide +kernel)⟩
theorem witness_Rendezvous : runs missing ∧ (warp missing).park = none ∧ parkedHere (warp missing) = 0 ∧
    (warp missing).active &&& ~~~((warp missing).sget 10) ≠ 0 ∧
    ((warp missing).clause = some baseHeader ∧ (warp missing).active &&& ~~~((warp missing).sget 9) = 0 ∧
      parts (warp missing) 9 &&& ~~~(warp missing).active ≠ 0) := by
  unfold parkedHere parts; decide +kernel
/-- The warp of `missing`, parked, goes on with its other path. -/
def recordOf (lanes : LaneMask) : Park :=
  { hdr := 0, idx := 0, clause := baseHeader, instr := .lxAt 127 126 31 true 9, lanes := lanes, mask := 0x80000123 }
def parked : Warp := { warp missing with active := 0, park := some (recordOf 0x80000021) }
theorem witness_Rendezvous_parks :
    ∃ w2, Warp.reconverge parked.reconvergeFuel parked (warp missing).hdr = .at w2 ∧ w2.active = 2 := ⟨_, rfl, by decide +kernel⟩
/-- A warp that holds a record of `p` for the word at its PC, or the next: a lane of the mask still missing, or all come. -/
def holding (idx : Nat) (p active : LaneMask) (stack : List Reconv) : State := at0 (fun w =>
  { w with
    sregs := [(9, 0x80000123#32)], active := active, live := 0x80000023#32, stack := stack, park := some { recordOf p with idx := idx } }) id
theorem witness_Rendezvous_records :
    (runs (holding 1 2 0x80000021 []) ∧ (warp (holding 1 2 0x80000021 [])).park = some { recordOf 2 with idx := 1 } ∧
      parkedAt { recordOf 2 with idx := 1 } ≠ (warp (holding 1 2 0x80000021 [])).hdr + BitVec.ofNat 64 (4 * ((warp (holding 1 2 0x80000021 [])).idx + 1))) ∧
    (runs (holding 0 2 0x80000021 []) ∧ parkedHere (warp (holding 0 2 0x80000021 [])) = 2 ∧
      parts (warp (holding 0 2 0x80000021 [])) 9 &&& ~~~((warp (holding 0 2 0x80000021 [])).active ||| 2) = 0 ∧
      (warp (holding 0 2 0x80000021 [])).poisoned [126] (parts (warp (holding 0 2 0x80000021 [])) 9) = none) ∧
    (runs (holding 0 2 1 []) ∧ parts (warp (holding 0 2 1 [])) 9 &&& ~~~((warp (holding 0 2 1 [])).active ||| 2) ≠ 0) := by
  unfold parkedHere parts; decide +kernel
/-- With no path pending the check ends with no lane active. -/
theorem witness_Rendezvous_maskFault :
    ∃ w2, Warp.reconverge 2 { warp (holding 0 2 1 []) with active := 0, park := some (recordOf 3) } 0 = .maskFault w2 := ⟨_, rfl⟩
/-- Active lanes that exit leave the lanes parked: one of the mask is still missing, or none. -/
def exits (live : LaneMask) (stack : List Reconv) : Warp :=
  { warp (holding 0 0x80000001 2 stack) with live := live, active := 0, park := some (recordOf 0x80000001) }
theorem witness_Rendezvous_exits : (warp (holding 0 0x80000001 2 [])).park = some (recordOf 0x80000001) ∧
    (0x80000123#32 &&& 0x80000021#32 &&& ~~~0x80000001#32 ≠ 0 ∧ 0x80000123#32 &&& 0x80000001#32 &&& ~~~0x80000001#32 = 0) ∧
    (warp (holding 0 0x80000001 2 [])).sget 9 = 0x80000123 ∧ 0x80000001#32 &&& ~~~0x80000123#32 = 0 := by decide +kernel
theorem witness_Rendezvous_exits_on : (∃ w2, Warp.reconverge 4
      (exits 0x80000021 [{ join := 8, mask := 0x20#32, pend := 0x20#32, tgt := 40, phase := false }]) 0 = .at w2 ∧ w2.active = 0x20) ∧
    ∃ w2, Warp.reconverge 2 (exits 0x80000021 []) 0 = .maskFault w2 := ⟨⟨_, rfl, by decide +kernel⟩, _, rfl⟩

/-! ### Vector registers a team has not, and poisoned ones -/

/-- A team of 64 registers. -/
def small : State := at0 id fun t => { t with nregs := 64 }
theorem witness_VectorIllegal : runs small ∧ ¬ (has (team small) 64 ∧ has (team small) 1 ∧ has (team small) 2) ∧
    ¬ (hasPair (team small) 1 ∧ hasPair (team small) 2 ∧ hasPair (team small) 4) ∧ ¬ (hasPair (team small) 64 ∧ has (team small) 1 ∧ has (team small) 2) ∧
    ¬ (cmpLegal .i64 (team small) 63 ∧ cmpLegal .i64 (team small) 2) ∧ ¬ (fpHas true (team small) 3 ∧ fpHas true (team small) 2 ∧ fpHas true (team small) 2) ∧
    ((-1 : Int) < 0 ∧ (31 : Int) < 32) ∧
    (vrotFmt .b16 .f32i8 ∧ ¬ (groupHas (team small) 63 (blkRegs .b16) (2 * blkRegs .b16) ∧ groupHas (team small) 0 (blkRegs .b16) (blkRegs .b16))) ∧
    virotFmt .b16 .i8f32 ∧ ¬ (groupHas (team small) 64 (blkRegs .b16) (blkRegs .b16) ∧ groupHas (team small) 0 (blkRegs .b16) (2 * blkRegs .b16)) := by
  unfold has hasPair cmpLegal fpHas groupHas vrotFmt virotFmt has hasPair; decide +kernel
/-- Lane 5 of v8 and of v9 is poisoned, and lane 31 of v2. -/
def tainted : State := at0 (fun w =>
  { w with
    active := 0x80000021#32, live := 0x80000021#32, sregs := [(9, 0x80000021#32)]
    poison := [(vkey 2 31, { hdr := 64, idx := 0, addr := 70, fault := .uncorr }), (vkey 8 5, { hdr := 64, idx := 1, addr := 77, fault := .integrity }),
      (vkey 9 5, { hdr := 64, idx := 2, addr := 79, fault := .uncorr })] }) id
/-- The mark that reading `regs` in the active lanes meets is that of register `r` in lane 5, before which stand `pre`. -/
theorem mark5 (pre post : List Nat) (r : Nat) (p : Poison)
    (h : (decide ((warp tainted).active = 0x80000021#32) && decide (KMap.find (warp tainted).poison (vkey r 5) = some p) &&
      ((pre ++ r :: post).all fun q => decide (KMap.find (warp tainted).poison (vkey q 0) = none)) &&
      (pre.all fun q => decide (KMap.find (warp tainted).poison (vkey q 5) = none))) = true) :
    firstMark (warp tainted) (pre ++ r :: post) (warp tainted).active 5 p := by
  simp only [Bool.and_eq_true, decide_eq_true_eq, List.all_eq_true] at h
  obtain ⟨⟨⟨ha, hp⟩, h0⟩, hq⟩ := h
  refine ⟨by decide, by rw [ha]; decide, fun i hi hl q hm => ?_, pre, r, post, rfl, hp, hq⟩
  rw [ha] at hl
  have : i = 0 := by
    have : ∀ i < 5, (0x80000021#32).getLsbD i = true → i = 0 := by decide
    exact this i hi hl
  subst this
  exact h0 q hm
def mark8 : Poison := { hdr := 64, idx := 1, addr := 77, fault := .integrity }
theorem witness_PoisonedOperands : runs tainted ∧ has (team tainted) 8 ∧ hasPair (team tainted) 8 ∧
    firstMark (warp tainted) [2, 8] (warp tainted).active 5 mark8 ∧ firstMark (warp tainted) [8] (warp tainted).active 5 mark8 ∧
    firstMark (warp tainted) [2, 3, 8, 9] (warp tainted).active 5 mark8 ∧
    firstMark (warp tainted) (fpReads true 8 ++ fpReads true 2) (warp tainted).active 5 mark8 ∧
    firstMark (warp tainted) (cmpRegs .i64 8 ++ cmpRegs .i64 2) (warp tainted).active 5 mark8 ∧
    firstMark (warp tainted) ([2, 3] ++ regsOf .b64 8) (warp tainted).active 5 mark8 ∧
    firstMark (warp tainted) ([2, 3] ++ operandRegs .exch .i32 7) (warp tainted).active 5 mark8 ∧
    ((warp tainted).park = none ∧ (warp tainted).active &&& ~~~((warp tainted).sget 9) = 0 ∧
      parts (warp tainted) 9 &&& ~~~(warp tainted).active = 0) ∧ (warp tainted).cntL = 0 ∧ (warp tainted).cntS = 0 := by
  refine ⟨by decide +kernel, by unfold has; decide +kernel, by unfold hasPair; decide +kernel, mark5 [2] [] 8 _ (by decide +kernel),
    mark5 [] [] 8 _ (by decide +kernel), mark5 [2, 3] [9] 8 _ (by decide +kernel), mark5 [] [9, 2, 3] 8 _ (by decide +kernel),
    mark5 [] [9, 2, 3] 8 _ (by decide +kernel), mark5 [2, 3] [9] 8 _ (by decide +kernel), mark5 [2, 3] [] 8 _ (by decide +kernel),
    by unfold parts; decide +kernel, by decide +kernel, by decide +kernel⟩

theorem witness_MovesAndLiterals : runs lanes3 ∧ has (team lanes3) 127 ∧ (warp lanes3).live.getLsbD 4 = false ∧
    ((warp lanes3).live.getLsbD 1 = true ∧ (warp lanes3).poisoned [127] (1#32 <<< 1) = none) ∧
    (0 < 32 ∧ (warp lanes3).active.getLsbD 0 = true ∧ (warp lanes3).poisoned [8] (1#32 <<< 0) = none) := by
  unfold has; decide +kernel
theorem witness_LiteralLoads : (∃ v0, (at0 id id).fetchWord (team (at0 id id)) (wordsFrom (warp (at0 id id)) (-1)).toNat = .ok v0) ∧
    62 % 2 = 0 ∧ ∃ v1, (at0 id id).fetchWord (team (at0 id id)) (wordsFrom (warp (at0 id id)) 0).toNat = .ok v1 :=
  ⟨⟨_, rfl⟩, by decide, ⟨_, rfl⟩⟩
/-- A warp with `k` entries on its divergence stack, the top one joining after its clause, and its predicate p1. -/
def branching (k : Nat) (phase : Bool) : State := at0 (fun w =>
  { w with preds := [(1, 5#32), (2, allLanes)], stack := List.replicate k { join := 12, mask := allLanes, pend := 0, tgt := 0, phase := phase } }) id
theorem witness_BranchInstructions : runs (branching 0 false) ∧ (warp (branching 0 false)).clause = some baseHeader ∧
    (warp (branching 0 false)).pget 0 = 0 ∧ (warp (branching 0 false)).pget 2 = (warp (branching 0 false)).active ∧
    (warp (branching 0 false)).active &&& (warp (branching 0 false)).pget 1 ≠ 0 ∧
    (warp (branching 0 false)).active &&& ~~~((warp (branching 0 false)).pget 1) ≠ 0 ∧
    (warp (branching 0 false)).stack = [] ∧ (warp (branching 0 false)).park = none ∧
    (warp (branching 0 false)).intrap = false := by decide +kernel
theorem witness_DivergentBranches : (runs (branching 1 true) ∧ wordsFrom (warp (branching 1 true)) 2 = after (warp (branching 1 true)) baseHeader ∧
      (warp (branching 1 true)).stack = [{ join := 12, mask := allLanes, pend := 0, tgt := 0, phase := true }]) ∧
    (runs (branching 32 false) ∧ (warp (branching 32 false)).stack.length = (team (branching 32 false)).divd + 1 ∧
      (warp (branching 32 false)).stack ≠ []) := by decide +kernel
/-- A warp of eight return addresses in the core and `n` spilled; and one with none in the core. -/
def calling (r : List DWord) (n : Nat) : State := at0 (fun w => { w with rstack := r, rspill := n }) id
theorem witness_CallsAndExit : runs (calling [1, 2, 3, 4, 5, 6, 7, 8] 56) ∧
    (warp (calling [1, 2, 3, 4, 5, 6, 7, 8] 56)).rstack.length + (warp (calling [1, 2, 3, 4, 5, 6, 7, 8] 56)).rspill = 64 ∧
    (warp (calling [1, 2, 3, 4, 5, 6, 7] 0)).rstack.length < 8 ∧ runs (calling [] 0) ∧ (warp (calling [] 0)).park = none ∧
    (warp (calling [] 0)).stack = [] ∧ (warp (calling [] 0)).rstack.length + (warp (calling [] 0)).rspill = 0 := by decide +kernel
/-- The context area's page is mapped and writable, or not mapped. -/
def unmapped (s : State) : State := { s with tlb := [placedTlb] }
def spilled (s : State) : Option (FaultCode × Nat) × State :=
  s.storeVirt (writerOf (team s) 0 (warp s)) 0 (spillSlot (team s) 0 55) (leBytes 8 8)
def refilled (s : State) : Except (FaultCode × Nat) (List Byte) × State :=
  s.readVirt 0 0 (some (logAgent 0 0)) (spillSlot (team s) 0 2) 8
theorem witness_Calls_spill : runs (calling [1, 2, 3, 4, 5, 6, 7, 8] 55) ∧ (spilled (calling [1, 2, 3, 4, 5, 6, 7, 8] 55)).1 = none ∧
    runs (unmapped (calling [1, 2, 3, 4, 5, 6, 7, 8] 55)) ∧ (spilled (unmapped (calling [1, 2, 3, 4, 5, 6, 7, 8] 55))).1.isSome = true ∧
    (team (unmapped (calling [1, 2, 3, 4, 5, 6, 7, 8] 55))).ctxLen ≠ 0 := by decide +kernel
theorem witness_Calls_refill : runs (calling [] 3) ∧ fine (refilled (calling [] 3)).1 = true ∧ runs (unmapped (calling [] 3)) ∧
    fine (refilled (unmapped (calling [] 3))).1 = false ∧ (team (unmapped (calling [] 3))).ctxLen ≠ 0 := by decide +kernel
/-- The active lanes exit while others are pending, and where all lanes were active. -/
def leaving : Warp := { warp missing with
  live := 2, active := 0, stack := [{ join := 8, mask := 2, pend := 2, tgt := 40, phase := false }] }
theorem rejoins_leaving : ∃ w2 b, Rejoins leaving leaving.hdr w2 b ∧ settled w2 b := by
  refine ⟨_, _, .switch leaving _ _ [] _ _ rfl (.inr (by decide +kernel)) rfl (by decide +kernel) (.rest _ _), by decide +kernel, ?_⟩
  rintro e r h (h1 | h1)
  · injection h with h2 _; subst h2; exact absurd h1 (by decide +kernel)
  · exact absurd h1 (by decide +kernel)
theorem witness_Exit : runs missing ∧ (warp missing).park = none ∧ runs lanes3 ∧ (warp lanes3).park = none ∧
    (warp lanes3).stack = [] ∧ Warp.liveOf { warp lanes3 with live := (warp lanes3).live &&& ~~~(warp lanes3).active, active := 0 } 0 = 0 := by
  decide +kernel
/-- Barrier 3 posted to; and stores or loads outstanding. -/
def posting (l : Nat) (ar : KMap Bool) (coop : Bool) : State :=
  at0 (fun w => { w with cntL := l, arrivals := ar }) (fun t => { t with coop := coop })
theorem witness_BarrierInstructions : runs (posting 0 [(3, true)] true) ∧ (team (posting 0 [(3, true)] true)).barsMax < 16 ∧
    3 ≤ (team (posting 0 [(3, true)] true)).barsMax ∧ 15 ≤ (team (posting 0 [(3, true)] true)).barsMax ∧
    (warp (posting 0 [(3, true)] true)).cntL = 0 ∧ (warp (posting 0 [(3, true)] true)).cntS = 0 ∧
    KMap.find (warp (posting 0 [(3, true)] true)).arrivals 3 = some true ∧
    KMap.find (warp (posting 0 [(3, true)] true)).arrivals 15 ≠ some true ∧
    (runs (posting 63 [] true) ∧ (warp (posting 63 [] true)).cntL ≠ 0 ∧ (team (posting 63 [] true)).coop = true) ∧
    (runs (posting 0 [] false) ∧ (team (posting 0 [] false)).coop = false) := by decide +kernel
/-- A stack whose check ends with no live lane. -/
def emptying : State := at0 (fun w => { w with stack := [{ join := 8, mask := allLanes, pend := 0, tgt := 40, phase := true }] }) id
def emptied : Warp := { warp emptying with live := 0, active := 0, stack := [{ join := 8, mask := 0, pend := 0, tgt := 40, phase := true }] }
theorem witness_Exit_ends : runs emptying ∧ (warp emptying).park = none ∧ ∃ w2 b, Rejoins emptied emptied.hdr w2 b ∧ w2.stack = [] ∧
    w2.liveOf w2.active = 0 :=
  ⟨by decide +kernel, by decide +kernel, _, _, .pop emptied _ _ [] _ _ rfl (.inr (by decide +kernel)) (.inl rfl) (fun _ h => nomatch h)
    (.rest _ _), rfl, by decide +kernel⟩
/-- A second warp of the team that has not come to the grid's barrier. -/
def alone : State := posting 0 [] true
def inCompany : State := alone.updTeam 1 fun t => { t with warps := t.warps ++ [warp base] }
theorem witness_GridBarrier : runs alone ∧ (team alone).coop = true ∧ (warp alone).cntL = 0 ∧ (warp alone).cntS = 0 ∧
    gridArrived alone (team alone) 0 := by
  refine ⟨by decide +kernel, by decide +kernel, by decide +kernel, by decide +kernel, ?_⟩
  intro x hx _ i u hu
  have hs : alone.teams = [team alone] := by decide +kernel
  rw [hs, List.mem_singleton] at hx; subst hx
  have hw : (team alone).warps = [warp alone] := by decide +kernel
  rw [hw] at hu
  match i with
  | 0 => exact .inl ⟨rfl, rfl⟩
  | n + 1 => simp at hu
theorem witness_GridBarrier_waits : runs inCompany ∧ (team inCompany).coop = true ∧ (warp inCompany).cntL = 0 ∧ (warp inCompany).cntS = 0 ∧
    ¬ gridArrived inCompany (team inCompany) 0 := by
  refine ⟨by decide +kernel, by decide +kernel, by decide +kernel, by decide +kernel, fun h => ?_⟩
  rcases h (team inCompany) (by decide +kernel) rfl 1 (warp base) (by decide +kernel) with h | h | h
  · exact absurd h.2 (by decide)
  · exact absurd h (by decide +kernel)
  · exact absurd h (by decide +kernel)
/-- A token and a counter that are not zero. -/
def tokensUp : State := at0 (fun w => { w with tokens := [(7, 1)], cntC := 63 }) id
theorem witness_Waits : runs tokensUp ∧ (7 < 8 ∧ bitOf 0x80 7 = true ∧ (warp tokensUp).token 7 ≠ 0) ∧ 62 < (warp tokensUp).ctr .c ∧
    ((∀ k < 8, bitOf 0x7F k = true → (warp tokensUp).token k = 0) ∧ (warp tokensUp).ctr .c ≤ 63 ∧ (warp tokensUp).poison = []) ∧
    (∀ k < 8, bitOf 0 k = true → (warp lanes3).token k = 0) ∧ (warp lanes3).ctr .l ≤ 0 ∧
    (warp lanes3).poison = [(vkey 8 1, { hdr := 64, idx := 1, addr := 77, fault := .integrity })] := by decide +kernel
/-- A warp at a header: `h` stands at it. -/
def atHeader (h : Nat) (l : Nat) : State :=
  { at0 (fun w => { w with clause := none, cntL := l }) id with mem := Sparse.setN memDefault (placedMem baseHeader 0x40081000) 0 (leBytes 4 h) }
theorem witness_ClausesAndUnassignedWords : runs (atHeader 0x12345678 0) ∧ (warp (atHeader 0x12345678 0)).idx = 0 ∧
    (warp (atHeader 0x12345678 0)).clause = none ∧ (warp (atHeader 0x12345678 0)).stack = [] ∧
    (warp (atHeader 0x12345678 0)).liveOf (warp (atHeader 0x12345678 0)).active ≠ 0 ∧ decodeHeader 0x12345678 = none ∧
    decodeHeader 0xCA000003 = some { cls := .lit, kwait := 0, wl := false, ws := false, yield := false, count := 3 } ∧
    decodeHeader 0xC2010001 = some { cls := .valu, kwait := 0, wl := true, ws := false, yield := false, count := 1 } ∧
    (warp (atHeader 0xC2010001 0)).poison = [] ∧
    (warp (atHeader 0xC2010001 0)).headerMet { cls := .valu, kwait := 0, wl := true, ws := false, yield := false, count := 1 } = true ∧
    (warp (atHeader 0xC2010001 1)).headerMet { cls := .valu, kwait := 0, wl := true, ws := false, yield := false, count := 1 } = false := by
  decide +kernel
theorem witness_ClauseStart : (∃ v, (atHeader 0x12345678 0).fetchWord (team (atHeader 0x12345678 0)) 0 = .ok v) ∧
    ∃ v, (atHeader 0xC2010001 1).fetchWord (team (atHeader 0xC2010001 1)) 0 = .ok v := ⟨⟨_, rfl⟩, _, rfl⟩
/-- A word no row assigns, one whose class is not the clause's, and one that cannot be fetched. -/
def wordIs (v : Nat) (hdr : DWord) : State :=
  { at0 (fun w => { w with hdr := hdr }) id with mem := Sparse.setN memDefault (placedMem baseHeader 0x40081000) 4 (leBytes 4 v) }
theorem witness_UnassignedWords : runs (wordIs 0x40000017 0) ∧ (warp (wordIs 0x40000017 0)).clause = some baseHeader ∧
    (wordCheck baseHeader 0 0x40000017 = none ∧ wordAssigned 0x40000017 = false) ∧ wordCheck baseHeader 0 0xFC000000 = some .illegal ∧ wordCheck baseHeader 0 0x04000000 = some .clause := by
  decide +kernel
theorem witness_UnassignedWords_fetch : (∃ v, (wordIs 0x40000017 0).fetchWord (team (wordIs 0x40000017 0)) (wordAt (warp (wordIs 0x40000017 0))).toNat = .ok v) ∧
    ∃ e, (wordIs 0 0x4000).fetchWord (team (wordIs 0 0x4000)) (wordAt (warp (wordIs 0 0x4000))).toNat = .error e :=
  ⟨⟨_, rfl⟩, _, rfl⟩
/-- The header's WL wait is met and a register is poisoned in lane 5 of v8 and of v2, of which v2 comes first. -/
def poisonedHeader : State :=
  (atHeader 0xC2010001 0).updWarp 1 0 fun w => { w with poison := [(vkey 2 5, mark8), (vkey 8 5, { mark8 with addr := 5 })] }
theorem witness_ClauseStart_poison : runs poisonedHeader ∧ (warp poisonedHeader).cntL = 0 ∧
    (∀ e ∈ (warp poisonedHeader).poison, 5 ≤ e.1 % 32) ∧
    (warp poisonedHeader).poison.find? (fun e => e.1 % 32 == 5) = some (vkey 2 5, mark8) ∧
    decodeHeader 0xC2010001 = some { cls := .valu, kwait := 0, wl := true, ws := false, yield := false, count := 1 } := by decide +kernel
/-- A header where no reconvergence is due, where one is, where the warp's lanes are all parked, and where none is left. -/
theorem settled_none (w : Warp) (a : DWord) (h : w.liveOf w.active ≠ 0) (hs : w.stack = []) : settled w a :=
  ⟨h, fun e r he => by rw [hs] at he; exact absurd he (List.cons_ne_nil e r).symm⟩
def joining : State := (atHeader 0xC2010001 0).updWarp 1 0 fun w =>
  { w with active := 1, stack := [{ join := 0, mask := 3, pend := 2, tgt := 64, phase := true }] }
def bereft (p : Option Park) : State := (atHeader 0xC2010001 0).updWarp 1 0 fun w => { w with active := 0, park := p }
theorem witness_ClauseStart_settled : settled (warp (atHeader 0xC2010001 0)) 0 := settled_none _ _ (by decide +kernel) (by decide +kernel)
theorem witness_ClauseStart_joins : runs joining ∧ (warp joining).idx = 0 ∧
    ∃ w1 b, Rejoins (warp joining) (warp joining).hdr w1 b ∧ settled w1 b ∧ w1.active = 3 :=
  ⟨by decide +kernel, by decide +kernel, _, _, .pop _ _ _ [] _ _ rfl (.inl (by decide +kernel)) (.inl rfl) (fun _ h => nomatch h) (.rest _ _),
    settled_none _ _ (by decide +kernel) rfl, by decide +kernel⟩
theorem witness_ClauseStart_ends : (runs (bereft none) ∧ (warp (bereft none)).idx = 0 ∧ (warp (bereft none)).stack = [] ∧
      (warp (bereft none)).liveOf (warp (bereft none)).active = 0 ∧ (warp (bereft none)).park = none) ∧
    runs (bereft (some (recordOf 3))) ∧ parkBars (warp (bereft (some (recordOf 3)))) 0 (recordOf 3) :=
  ⟨by decide +kernel, by decide +kernel, by decide +kernel, .inl ⟨by decide +kernel, by decide +kernel⟩⟩
theorem witness_ClauseStart_waits : waitsMet (warp (atHeader 0xC2010001 0)) { cls := .valu, kwait := 0, wl := true, ws := false, yield := false, count := 1 } ∧
    ¬ waitsMet (warp (atHeader 0xC2010001 1)) { cls := .valu, kwait := 0, wl := true, ws := false, yield := false, count := 1 } := by
  unfold waitsMet; decide +kernel
theorem witness_Barriers_passes : KMap.find (warp (posting 0 [(3, true)] true)).arrivals 3 = some true := by decide +kernel

/-- Three lanes with addresses in v2 (v2 and v3 for a pair) and data in v4 to v7. -/
def addressed (f : Warp → Warp) : State := at0 (fun w => f { w with
  active := 0x80000021#32
  vregs := [(64, 0x100#32), (69, 0x200#32), (95, 0x300#32), (160, 11#32), (165, 12#32), (191, 13#32)] }) id
def accesses : State := addressed id
def full : State := addressed fun w => { w with cntL := 63, cntS := 63 }
/-- Every address in reach, at what physical address (the page at 0 is mapped to itself). -/
theorem reach (k : AccKind) (n : Nat) (hn : n = 1 ∨ n = 4 ∨ n = 8 ∨ n = 16) : 
    reachable accesses (team accesses) (warp accesses) k n (globalAt (warp accesses) 2 0) (globalAt (warp accesses) 2 0) := by
  intro l hl ha
  have h : l = 0 ∨ l = 5 ∨ l = 31 := by
    have : ∀ l < 32, (warp accesses).active.getLsbD l = true → l = 0 ∨ l = 5 ∨ l = 31 := by decide +kernel
    exact this l hl ha
  refine ⟨?_, ?_⟩
  · rcases h with rfl | rfl | rfl <;> rcases hn with rfl | rfl | rfl | rfl <;> decide +kernel
  · rcases h with rfl | rfl | rfl <;> cases k <;> rfl
theorem witness_MemoryAccess : runs accesses ∧ memHas .b128 (team accesses) 124 ∧ memHas .i8 (team accesses) 127 ∧
    hasPair (team accesses) 2 ∧ (warp accesses).cntL < 63 ∧ (warp accesses).cntS < 63 ∧
    (warp accesses).poisoned ([2, 3] ++ regsOf .b128 124) (warp accesses).active = none ∧
    reachable accesses (team accesses) (warp accesses) .read 16 (globalAt (warp accesses) 2 0) (globalAt (warp accesses) 2 0) ∧
    reachable accesses (team accesses) (warp accesses) .write 16 (globalAt (warp accesses) 2 0) (globalAt (warp accesses) 2 0) ∧
    runs full ∧ (warp full).cntL = 63 ∧ (warp full).cntS = 63 := by
  refine ⟨by decide +kernel, by unfold memHas; decide +kernel, by unfold memHas has; decide +kernel,
    by unfold hasPair; decide +kernel, by decide +kernel, by decide +kernel, by decide +kernel, reach _ _ (by decide),
    reach _ _ (by decide), by decide +kernel, by decide +kernel, by decide +kernel⟩
/-- An outstanding operation writes the granule of lane 0. -/
def heldGranule : State := { accesses with
  ops := [{ plainOp (team accesses) 0 (warp accesses) .c (.mark []) with id := 9, writes := [(4, 5)] }] }
theorem witness_ScratchAccess : inScratch (team accesses) (warp accesses) 16 (scratchAt (warp accesses) 2 0) ∧
    granulesFree accesses (team accesses) (warp accesses) false 16 (scratchAt (warp accesses) 2 0) ∧
    runs heldGranule ∧ (warp heldGranule).poisoned [2] (warp heldGranule).active = none ∧
    inScratch (team heldGranule) (warp heldGranule) 16 (scratchAt (warp heldGranule) 2 0) ∧
    ¬ granulesFree heldGranule (team heldGranule) (warp heldGranule) true 16 (scratchAt (warp heldGranule) 2 0) := by
  unfold inScratch granulesFree; decide +kernel
/-- Lane 5's address is no multiple of 8, and stands below the allocation when the offset is negative. -/
def misaligned : State := addressed fun w => { w with vregs := Sparse.set 0 w.vregs 69 0x204#32 }
theorem witness_AccessFaults : runs misaligned ∧
    firstMisaligned (warp misaligned) 8 (fun i => (globalAt (warp misaligned) 2 0 i : Int)) 5 ∧
    ((∀ i < 32, (warp misaligned).active.getLsbD i = true → scratchAt (warp misaligned) 2 (-256) i % 4 = 0) ∧
      (warp misaligned).active.getLsbD 0 = true ∧ scratchAt (warp misaligned) 2 (-260) 0 < 0) ∧
    ((∀ i < 0, (warp misaligned).active.getLsbD i = true → 0 ≤ scratchAt (warp misaligned) 2 (-260) i) ∧
      (team misaligned).scratchSize < scratchAt (warp misaligned) 2 65280 0 + 4) := by
  unfold firstMisaligned; decide +kernel
/-- The check of R180 that stands first is lane `l`'s, with `c`. -/
def failsFirst (s : State) (t : Team) (w : Warp) (k : AccKind) (n : Nat) (addr : Nat → Nat) (l : Nat) (c : FaultCode) : Bool :=
  decide (l < 32) && w.active.getLsbD l && decide (laneCheck s t k n (addr l) = some c) &&
    (List.range 32).all fun i => !w.active.getLsbD i ||
      match laneCheck s t k n (addr i) with
      | none => true
      | some e => decide (checkOrder c < checkOrder e ∨ c = e ∧ l ≤ i)
theorem fails_first {s : State} {t : Team} {w : Warp} {k : AccKind} {n : Nat} {addr : Nat → Nat} {l : Nat} {c : FaultCode}
    (h : failsFirst s t w k n addr l c = true) : firstFailing s t w k n addr l c := by
  simp only [failsFirst, Bool.and_eq_true, decide_eq_true_eq, List.all_eq_true, List.mem_range] at h
  refine ⟨h.1.1.1, h.1.1.2, h.1.2, fun i hi ha e he => ?_⟩
  have := h.2 i hi
  simpa [ha, he] using this
/-- The page is not mapped for lane 31; it may not be written; another world owns it. -/
def unmapped31 : State := addressed fun w => { w with vregs := Sparse.set 0 w.vregs 127 0x1000#32 }
def readOnly : State := { accesses with tlb := [{ placedTlb with w := false }] }
def foreign : State := { accesses with pot := [(0, potEntry 3 1 false 0)] }
theorem witness_AccessFaults_checks :
    firstFailing misaligned (team misaligned) (warp misaligned) .read 8 (globalAt (warp misaligned) 2 0) 5 .align ∧
    firstFailing unmapped31 (team unmapped31) (warp unmapped31) .write 4 (globalAt (warp unmapped31) 2 0) 31 .page ∧
    firstFailing readOnly (team readOnly) (warp readOnly) .write 4 (globalAt (warp readOnly) 2 0) 0 .perm ∧
    firstFailing foreign (team foreign) (warp foreign) .read 4 (globalAt (warp foreign) 2 0) 0 .owner ∧
    (runs unmapped31 ∧ (warp unmapped31).cntS < 63 ∧ (warp unmapped31).poisoned ([2, 3] ++ regsOf .b32 4) (warp unmapped31).active = none) ∧
    ¬ (memHas .b128 (team accesses) 126 ∧ hasPair (team accesses) 2) ∧ ¬ (memHas .b32 (team accesses) 1 ∧ has (team accesses) 128) :=
  ⟨fails_first (by decide +kernel), fails_first (by decide +kernel), fails_first (by decide +kernel), fails_first (by decide +kernel),
    by decide +kernel, by unfold memHas hasPair; decide +kernel, by unfold memHas has; decide +kernel⟩
theorem witness_AtomicIssue : runs accesses ∧ atomHas .n64 (team accesses) 122 ∧
    (∀ r ∈ operandsOf .cas .n64 122, atomHas .n64 (team accesses) r) ∧ (warp accesses).ctr (ctrOf .st) < 63 ∧
    ¬ orderLegal .ld .acqrel false ∧ orderLegal .cas .sc false ∧ orderLegal .add .acqrel true ∧ releases .sc ∧
    (warp full).cntL ≠ 0 ∧ ((warp accesses).cntL = 0 ∧ (warp accesses).cntS = 0) ∧
    (warp accesses).poisoned ([2, 3] ++ operandRegs .cas .n64 122) (warp accesses).active = none ∧
    reachable accesses (team accesses) (warp accesses) .atomic 8 (globalAt (warp accesses) 2 0) (globalAt (warp accesses) 2 0) ∧
    inScratch (team accesses) (warp accesses) 8 (scratchAt (warp accesses) 2 0) ∧
    granulesFree accesses (team accesses) (warp accesses) false 8 (scratchAt (warp accesses) 2 0) := by
  refine ⟨by decide +kernel, by unfold atomHas hasPair has; decide +kernel, by unfold atomHas hasPair has; decide +kernel, by decide +kernel,
    by unfold orderLegal; decide, by unfold orderLegal; decide, by unfold orderLegal; decide, by unfold releases; decide,
    by decide +kernel, by decide +kernel, by decide +kernel, reach _ _ (by decide), by unfold inScratch; decide +kernel,
    by unfold granulesFree; decide +kernel⟩
/-- A promoted fence's drains: all acknowledged, or not cluster 3's. -/
def draining (all : Bool) : State := { accesses with
  drains := (List.range 16).map fun c =>
    { no := 7, world := 0, cluster := c, line := none, who := some (1, 0), op := none, acked := all || c != 3 } }
/-- An atomic under `.sc` with its ticket outstanding, and one without. -/
def ticketed (t : Option Nat) : State := { accesses with
  ops := [{ plainOp (team accesses) 0 (warp accesses) .l (.mark []) with id := 9, ticket := t }] }
theorem witness_Fences : runs (draining true) ∧ runs (draining false) ∧ runs full ∧ releases .rel ∧ ¬ releases .acq ∧
    ((warp (draining true)).cntL = 0 ∧ (warp (draining true)).cntS = 0) ∧ (warp full).cntS ≠ 0 ∧
    (∀ m ∈ accesses.drains, m.who ≠ some (1, 0)) ∧ (team (draining true)).uid = 1 ∧
    (∀ m ∈ (draining true).drains, m.who = some (1, 0) → m.acked = true) ∧
    (∃ m ∈ (draining false).drains, m.who = some (1, 0) ∧ m.acked = false) ∧ (draining true).drains ≠ [] ∧
    (runs (ticketed (some 4)) ∧ ∃ o ∈ (ticketed (some 4)).ops, o.ticket ≠ none) ∧ (∀ o ∈ (ticketed none).ops, o.ticket = none) := by
  unfold releases; decide +kernel
theorem witness_CacheControl : runs accesses ∧ hasPair (team accesses) 2 ∧
    (warp accesses).poisoned [2, 3] (warp accesses).active = none ∧
    reachable accesses (team accesses) (warp accesses) .read 1 (globalAt (warp accesses) 2 0) (globalAt (warp accesses) 2 0) := by
  refine ⟨by decide +kernel, by unfold hasPair; decide +kernel, by decide +kernel, reach _ _ (by decide)⟩
/-- A lane whose address is not mapped. -/
def farOff : State := addressed fun w => { w with active := 1#32, vregs := [(64, 0x100#32), (96, 0x1000#32)] }
theorem witness_Prefetch : runs farOff ∧ ∀ l < 32, (warp farOff).active.getLsbD l = true →
    fine (farOff.translate 0 0 (globalAt (warp farOff) 2 0 l) .read) = false := by decide +kernel
/-- Lines 2, 4 and 6 by three lanes, and line 2 by one. -/
theorem undamaged_of {s : State} (h : s.badPackets = [] ∧ s.cellFaults = [] ∧ s.lines = []) : undamaged s :=
  ⟨h.1, h.2.1, fun n => by unfold State.lineMeta; rw [h.2.2]; rfl⟩
def oneLane : State := addressed fun w => { w with active := 1#32 }
theorem witness_Prefetch_lines : undamaged accesses ∧ undamaged oneLane ∧ runs oneLane ∧ (warp oneLane).active = 1 ∧
    okIs (accesses.translate 0 0 (globalAt (warp accesses) 2 0 5) .read) 0x200 = true ∧ accesses.potPim 0 = false ∧
    (accesses.wayMasks 0).1 ≠ 0 ∧ okIs (oneLane.translate 0 0 (globalAt (warp oneLane) 2 0 0) .read) 0x100 = true ∧
    oneLane.pimCovers 0 = false ∧ (oneLane.wayMasks 0).2 % 2 ^ 16 ≠ 0 ∧ accesses.gathers = [] :=
  ⟨undamaged_of (by decide +kernel), undamaged_of (by decide +kernel), by decide +kernel, by decide +kernel, by decide +kernel, by decide +kernel,
    by decide +kernel, by decide +kernel, by decide +kernel, by decide +kernel, by decide +kernel⟩
/-- Copies of line 2 in every state, of another line and another world, and a gathered byte of it. -/
def cached : State := { accesses with
  l1 := [{ core := 0, world := 0, line := 2, way := 0, hint := .default, data := [] }]
  l2 := [{ cluster := 0, world := 0, line := 2, way := 0, state := .m, hint := .default },
    { cluster := 3, world := 0, line := 2, way := 0, state := .s, hint := .default },
    { cluster := 0, world := 1, line := 2, way := 0, state := .e, hint := .default }]
  gathers := [{ cluster := 0, world := 0, addr := 0x101, val := 7, later := 0, whole := false, origin := writerOf (team accesses) 0 (warp accesses) }] }
theorem witness_CacheControl_copies : runs cached ∧ namesLine (warp cached) (globalAt (warp cached) 2 0) 2 ∧
    reaches .dev (team cached) 3 ∧ ¬ reaches .clu (team cached) 3 ∧ cached.badPackets = [] ∧
    (∀ g ∈ cached.gathers, g.world = 0 ∧ g.addr / 128 = 2) ∧ cached.gathers ≠ [] := by
  refine ⟨by decide +kernel, ⟨0, by decide, by decide +kernel, by decide +kernel⟩, .inl rfl, ?_, by decide +kernel, by decide +kernel, by decide +kernel⟩
  rintro (h | h)
  · exact absurd h (by decide)
  · exact absurd h (by decide +kernel)
/-- Lines learnt of, monitors in use, and lanes whose thresholds are or are not reached. -/
def learnt : State := addressed fun w => { w with watched := [(4, true)] }
theorem witness_MemoryWaits : runs accesses ∧ runs learnt ∧ hasPair (team accesses) 126 ∧
    distinctLines ((lanesOf (warp accesses).active).map fun l => globalAt (warp accesses) 2 0 l / 128) = [2, 4, 6] ∧
    KMap.find (warp learnt).watched 4 = some true ∧
    (accesses.monitorsUsed 0 + 3 ≤ 64 ∧ (∀ n ∈ [2, 4, 6], KMap.find (warp accesses).watched n ≠ some true) ∧
      (team accesses).preempting = false) ∧
    (warp accesses).poisoned [126, 127, 2, 3] (warp accesses).active = none ∧
    (∀ l < 32, (warp accesses).active.getLsbD l = true →
      ((warp accesses).vget64 126 l).toNat ≤ leVal (accesses.clusterRead 0 0 (globalAt (warp accesses) 2 0 l) 8)) ∧
    leVal (accesses.clusterRead 0 0 (globalAt (warp accesses) 2 0 0) 8) < ((warp accesses).vget64 2 0).toNat ∧
    (∀ l < 32, (warp accesses).active.getLsbD l = true →
      ((warp accesses).vget64 126 l).toNat ≤ leVal ((team accesses).scratchRead (scratchAt (warp accesses) 2 0 l).toNat 8)) := by
  unfold hasPair; decide +kernel
theorem no_marks {s : State} {t : Team} (h : s.ops = []) : noMarks s t := by
  intro o ho; rw [h] at ho; cases ho
theorem witness_noMarks : noMarks accesses (team accesses) ∧ ¬ noMarks heldGranule (team heldGranule) :=
  ⟨no_marks rfl, fun h => h _ List.mem_cons_self rfl _ rfl⟩

/-- A warp with a trap handler set, or without, in it or not, and its trap frame's pages mapped. -/
def trapping (vec : DWord) (f : Warp → Warp) : State :=
  let s := at0 (fun w => f { w with sregs := [(2, 0x1004#32), (4, 0x1002#32), (7, 0x4000000#32)] }) id
  s.setWorld 0 { s.world 0 with trapvec := vec }
theorem witness_SystemRegisters : runs (trapping 0 id) ∧ has (team (trapping 0 id)) 127 ∧ 63 < 64 ∧ (62 < 64 ∧ 62 % 2 = 0) ∧ 13 < 14 ∧
    (((warp (trapping 0 id)).sget64 2).toNat % 4 = 0 ∧ ((warp (trapping 0 id)).sget64 2).toNat < 2 ^ 58) ∧
    ((warp (trapping 0 id)).sget64 4).toNat % 4 ≠ 0 ∧ 2 ^ 58 ≤ ((warp (trapping 0 id)).sget64 6).toNat ∧
    7 ∉ [0, 1, 6, 8, 9, 10, 11] := by unfold has; decide +kernel
/-- In the handler: with the frame as saved for this warp, and with a deeper stack. -/
def handling (k : Nat) : State := trapping 0x800 fun w =>
  { w with intrap := true, stack := List.replicate k { join := 12, mask := allLanes, pend := 0, tgt := 0, phase := false } }
theorem witness_Traps : runs (trapping 0 id) ∧ ((trapping 0 id).world (team (trapping 0 id)).world).trapvec = 0 ∧
    (runs (trapping 0x800 id) ∧ ((trapping 0x800 id).world (team (trapping 0x800 id)).world).trapvec ≠ 0 ∧
      (warp (trapping 0x800 id)).intrap = false) ∧
    (runs (handling 0) ∧ (warp (handling 0)).intrap = true) ∧ runs (handling 1) := by decide +kernel
/-- The frame is read without a data fault; with one where its line is poisoned; not at all where its page is not mapped. -/
def poisonedFrame : State := { handling 0 with lines := (List.range 128).map fun i => (384 + i, ({ p := true, z := false } : LineMeta)) }
def unmappedFrame : State := { handling 0 with tlb := [placedTlb] }
def frameRead (s : State) : Except (FaultCode × Nat) (List Byte) × State := s.readVirt 0 0 (some (logAgent 0 0)) (frameOf (team s) 0) 64
theorem witness_TrapReturn_reads : noMarks (handling 0) (team (handling 0)) ∧ fine (frameRead (handling 0)).1 = true ∧
    (runs poisonedFrame ∧ (warp poisonedFrame).intrap = true ∧ noMarks poisonedFrame (team poisonedFrame) ∧
      (match (frameRead poisonedFrame).1 with | .error e => decide (e.1 = .uncorr ∨ e.1 = .integrity) | .ok _ => false) = true) ∧
    (runs unmappedFrame ∧ noMarks unmappedFrame (team unmappedFrame) ∧ fine (frameRead unmappedFrame).1 = false) :=
  ⟨no_marks rfl, by decide +kernel, ⟨by decide +kernel, by decide +kernel, no_marks rfl, by decide +kernel⟩, by decide +kernel, no_marks rfl,
    by decide +kernel⟩
/-- The team's mark is outstanding. -/
def marked : State := { handling 0 with ops := [{ plainOp (team (handling 0)) 0 (warp (handling 0)) .c (.mark []) with id := 9 }] }
theorem witness_TrapReturn_waits : runs marked ∧ (warp marked).intrap = true ∧ ¬ noMarks marked (team marked) :=
  ⟨by decide +kernel, by decide +kernel, fun h => h _ (List.mem_singleton.2 rfl) rfl _ rfl⟩
/-- The frame that `trap` 9 writes, its page mapped or not. -/
def frame9 (s : State) : Option (FaultCode × Nat) × State :=
  s.storeVirt (writerOf (team s) 0 (warp s)) 0 (frameOf (team s) 0) (leBytes 8 0 ++ leBytes 1 1 ++ leBytes 1 0 ++ leBytes 2 9 ++ leBytes 4 (2 ^ 32 - 1) ++ leBytes 4 0 ++ leBytes 4 0 ++
      leBytes 8 0 ++ leBytes 4 0 ++ leBytes 4 0 ++ leBytes 4 0 ++ leBytes 4 0 ++ leBytes 16 0)
theorem witness_TrapEntry : (frame9 (trapping 0x800 id)).1 = none ∧
    (runs (unmapped (trapping 0x800 id)) ∧ (frame9 (unmapped (trapping 0x800 id))).1.isSome = true ∧ (team (unmapped (trapping 0x800 id))).ctxLen ≠ 0) := by
  decide +kernel
/-- The frame reads as zeros: depth 0, index 0, no lane; it is this warp's with an empty stack, and not with one entry. -/
theorem witness_TrapReturn_frame : frameGood (warp (handling 0)) (List.replicate 64 0) ∧ ¬ frameGood (warp (handling 1)) (List.replicate 64 0) ∧
    okIs (frameRead (handling 0)).1 (List.replicate 64 0) = true ∧ okIs (frameRead (handling 1)).1 (List.replicate 64 0) = true := by
  unfold frameGood; decide +kernel
/-- The line of the header of world 0's event queue. -/
def evLine (s : State) : Nat := (((s.gpaAccess 0 (s.world 0).evq .read).getD 0) / 128)
/-- A host call by a warp with no earlier record, and with one pending. -/
def calls (p : List (List Byte)) : State :=
  { at0 id id with llc := heldLines [evLine (at0 id id)], sources := if p = [] then [] else [(sourceKey 0 0, { Source.reset with pending := p })] }
def postedCall (s : State) : State :=
  (s.post 4 0 0 (leBytes 2 7 ++ leBytes 2 0 ++ leBytes 4 0 ++ leBytes 8 0 ++ leBytes 4 0)).enterNext (sourceKey 0 0)
theorem witness_HostCalls : runs (calls []) ∧ (warp (calls [])).slot = 0 ∧ (team (calls [])).world = 0 ∧ 63 % 2 = 1 ∧
    ((KMap.find (calls []).sources (sourceKey 0 0)).getD Source.reset).pending = [] ∧
    (runs (calls [[]]) ∧ (KMap.find (calls [[]]).sources (sourceKey 0 0)).isSome = true) := by decide +kernel
/-- The record enters its queue, or finds it full. -/
def stillPending (s : State) : Bool := !((KMap.find (postedCall s).sources (sourceKey 0 0)).getD Source.reset).pending.isEmpty
theorem witness_HostCalls_enters : stillPending (calls []) = false := by decide +kernel
theorem witness_HostCalls_full : stillPending ((calls []).setWorld 0 { (calls []).world 0 with evTail := 4096 }) = true := by decide +kernel
/-- Ready to sleep, and while its team is pre-empted. -/
def preempted : State := at0 id fun t => { t with preempting := true }
theorem witness_WaitsAndSleep : runs preempted ∧ (team preempted).preempting = true ∧ (team accesses).preempting = false := by
  decide +kernel
/-- `rep` before a word: the first, the last and, of `v126`, a repeat beyond v127. -/
def repeating (v : Nat) (k : Word) : State :=
  { at0 (fun w => { w with repcnt := k, clause := some { baseHeader with count := 3 } }) id with
    mem := Sparse.setN memDefault (placedMem baseHeader 0x30000000) 8 (leBytes 4 v) }
theorem witness_RepeatedWords : encode (.vAdd 126 2 3) = some 0x43F02060 ∧ runs (repeating 0x43F02060 1) ∧
    (warp (repeating 0x43F02060 1)).clause = some { baseHeader with count := 3 } ∧ 0 + 1 < 3 ∧
    (warp (repeating 0x43F02060 1)).status = .running ∧ (repeating 0x43F02060 1).held = false ∧
    wordCheck { baseHeader with count := 3 } 1 0x43F02060 = none ∧ field 0x43F02060 31 26 ∈ repeatable ∧
    (stepWord 4 0 1 0x43F02060 = some 0x43F82060 ∧ field 0x43F82060 31 26 = field 0x43F02060 31 26) ∧
    (warp (repeating 0x43F02060 1)).repcnt.toNat ≤ 1 ∧ stepWord 4 1 1 0x43F02060 = none ∧ 128 ≤ 126 + 1 * 2 ^ 1 ∧
    has (team (repeating 0x43F02060 1)) 127 ∧
    (warp (repeating 0x43F02060 1)).poisoned [2, 3] (warp (repeating 0x43F02060 1)).active = none := by unfold has; decide +kernel
theorem witness_RepeatSteps : field 0xD0308426 31 26 ∉ repeatable ∧ stepWord 4 0 0 0x43F02060 ≠ none ∧
    1 < (warp (repeating 0x43F02060 2)).repcnt.toNat ∧ (repeating 0x43F02060 2).curWarp = some (team (repeating 0x43F02060 2), 0, warp (repeating 0x43F02060 2)) := by
  decide +kernel
theorem witness_Repeat : decodeWord 0x43F82060 = .ok (.vAdd 127 2 3) ∧
    ∃ v, (repeating 0x43F02060 1).fetchWord (team (repeating 0x43F02060 1)) (wordsFrom (warp (repeating 0x43F02060 1)) 1).toNat = .ok v :=
  ⟨by rfl, _, rfl⟩

/-- A slot's 128 bytes: base, format, rank, space (1: scratchpad), tag, DIMs and STRIDEs. -/
def slotBytes (base fmt rank space tag : Nat) (dims strides : List Nat) : List Byte :=
  leBytes 8 base ++ leBytes 1 fmt ++ leBytes 1 rank ++ leBytes 1 space ++ leBytes 1 0 ++ leBytes 2 tag ++ leBytes 2 0 ++
    (((dims ++ List.replicate 5 0).take 5).flatMap (leBytes 4)) ++ leBytes 4 0 ++
    (((strides ++ List.replicate 4 0).take 4).flatMap (leBytes 8)) ++ List.replicate 56 0
/-- Slots loaded, an activation stack, and a parameter block at VA 0x400, which s2 and s3 hold. -/
def engine (slots : List (List Byte)) (blk : List Byte) : State :=
  let s := at0 (fun w => { w with sregs := [(2, 0x400#32), (4, 15#32), (5, 12#32), (6, 0x1234#32), (7, 0x12345#32), (8, 16#32), (9, 18#32)] })
    fun t => { t with slots := Sparse.setN 0 [] 0 slots.flatten, aslimit := 0x1000, asbase := 0x800, astop := 0x900 }
  { s with mem := Sparse.setN memDefault s.mem 0x400 blk }
def padded (n : Nat) (l : List Byte) : List Byte := (l ++ List.replicate n 0).take n
def words (l : List Nat) : List Byte := l.flatMap (leBytes 4)
def blockFine (s : State) (al n pa : Nat) (b : List Byte) : Bool :=
  s.ops.isEmpty && decide (((warp s).sget64 2).toNat % al = 0) && okIs (s.checkRange (team s).core (team s).world ((warp s).sget64 2).toNat n .atomic) () &&
    okIs (s.translate (team s).core (team s).world ((warp s).sget64 2).toNat .atomic) pa &&
    okIs (s.readVirt (team s).core (team s).world (some (logAgent 0 (team s).core)) ((warp s).sget64 2).toNat n).1 b
/-- The state once the block of `n` bytes has been read. -/
def readBlock (s : State) (n : Nat) : State :=
  (s.readVirt (team s).core (team s).world (some (logAgent 0 (team s).core)) ((warp s).sget64 2).toNat n).2
theorem block_at {s : State} {al n pa : Nat} {b : List Byte} (h : blockFine s al n pa b = true) :
    blockAt s (readBlock s n) (team s) (warp s) 2 al n ((warp s).sget64 2).toNat pa b := by
  simp only [blockFine, Bool.and_eq_true, decide_eq_true_eq, List.isEmpty_iff] at h
  exact ⟨rfl, no_marks h.1.1.1.1, rfl, h.1.1.1.2, okIs_ok _ _ h.1.1.2, okIs_ok _ _ h.1.2, Prod.ext (okIs_ok _ _ h.2) rfl⟩
/-- A warp that may see nothing older sees its team and its world as they are. -/
theorem sees_plain {s : State} {t : Team} (h : t.old = []) (j : Nat) (st : Bool) : sees s t j st t (s.world t.world).sg s := by
  unfold sees State.seenFor Team.mayBeOld; rw [h]; rfl
def readyFine (s : State) (t : Team) (ops : List Operand) : Bool :=
  fine (s.holdOperands t ops [] []) && operandsHeld t ops && fewIvs ops && !s.scoreboardFull t.core
theorem ready_operands {s : State} {t : Team} {ops : List Operand} (h : readyFine s t ops = true) :
    ∃ pages, operandsReady s t ops [] [] pages := by
  simp only [readyFine, Bool.and_eq_true, Bool.not_eq_true'] at h
  obtain ⟨p, hp⟩ := fine_ok _ h.1.1.1
  exact ⟨p, hp, h.1.1.2, h.1.2, .inr h.2⟩

/-- A block named by an odd pair, misaligned, beyond the page; a full counter and a full token. -/
def badBlock (n : Nat) : State := at0 (fun w => { w with
  tokens := [(1, n)], cntC := n, cntT := n, sregs := [(2, 0x404#32), (4, 0#32), (5, 0x10#32)] }) id
theorem witness_BlockFaults : runs (badBlock 63) ∧ (warp (badBlock 63)).ctr .t = 63 ∧ (warp (badBlock 63)).token 1 = 63 ∧
    runs (badBlock 62) ∧ ((warp (badBlock 62)).ctr .t < 63 ∧ (warp (badBlock 62)).token 1 < 63) ∧ 63 % 2 = 1 ∧
    ((warp (badBlock 62)).sget64 2).toNat % 64 ≠ 0 ∧ ((warp (badBlock 62)).sget64 4).toNat % 128 = 0 ∧
    fine ((badBlock 62).checkRange 0 0 ((warp (badBlock 62)).sget64 4).toNat 128 .atomic) = false := by decide +kernel
theorem witness_roomFor : roomFor (warp (badBlock 62)) .t 1 := by unfold roomFor; decide +kernel
/-- A block that may be read, while a mark of the team is outstanding. -/
def markedBlock : State := { engine [] [] with ops := heldGranule.ops }
theorem witness_BlockFaults_mark : runs markedBlock ∧ ((warp markedBlock).sget64 2).toNat % 128 = 0 ∧
    okIs (markedBlock.checkRange 0 0 ((warp markedBlock).sget64 2).toNat 128 .atomic) () = true := by decide +kernel
theorem witness_BlockFaults_waits : ¬ noMarks markedBlock (team markedBlock) := fun h => h _ List.mem_cons_self rfl _ rfl
/-- A line of the block is poisoned. -/
def poisonedBlock : State := { engine [] [] with lines := [(8, ({ p := true, z := false } : LineMeta))] }
theorem witness_BlockFaults_data : runs poisonedBlock ∧ okIs (poisonedBlock.checkRange 0 0 0x400 128 .atomic) () = true ∧
    poisonedBlock.ops = [] ∧ fine (poisonedBlock.readVirt 0 0 (some (logAgent 0 0)) 0x400 128).1 = false := by decide +kernel
/-- An older value of a seed, of a slot's field and of ASTOP that warp 0 may see. -/
def older (what : OldWhat) (v : DWord) : OldValue := { what := what, writer := (1, 1), value := v, known := [1], signal := [], due := [] }
def unordered : State := at0 id fun t => { t with old := [older (.seed 3) 5, older (.field 0 12 2) 9, older (.stack 2) 0x40] }
theorem witness_Views : runs unordered ∧ maySee (team unordered).old 0 (.seed 3) 5 ∧ maySee (team unordered).old 0 (.field 0 12 2) 9 ∧
    maySee (team unordered).old 0 (.stack 2) 0x40 ∧ ¬ maySee (team unordered).old 1 (.seed 3) 5 :=
  ⟨by decide +kernel, ⟨older (.seed 3) 5, by decide +kernel, rfl, rfl, by decide⟩, ⟨older (.field 0 12 2) 9, by decide +kernel, rfl, rfl, by decide⟩,
    ⟨older (.stack 2) 0x40, by decide +kernel, rfl, rfl, by decide⟩, by
      rintro ⟨e, he, _, _, hk⟩
      have ho : (team unordered).old = [older (.seed 3) 5, older (.field 0 12 2) 9, older (.stack 2) 0x40] := by decide +kernel
      rw [ho] at he
      simp [older] at he
      rcases he with rfl | rfl | rfl <;> exact hk (by decide)⟩
theorem witness_Views_none : (team lanes3).old = [] := by decide +kernel
theorem witness_MapInstructions : runs (engine [] []) ∧ ((warp (engine [] [])).sget 4).toNat < 16 ∧
    (engine [] []).slotBusy (team (engine [] [])).uid ((warp (engine [] [])).sget 4).toNat = false ∧
    ((warp (engine [] [])).sget64 2).toNat % 128 = 0 ∧ okIs ((engine [] []).translate 0 0 ((warp (engine [] [])).sget64 2).toNat .read) 0x400 = true ∧
    16 ≤ ((warp (engine [] [])).sget 8).toNat ∧ (12, 12, 2) ∈ slotFields ∧
    ((warp (engine [] [])).sget 5).toNat = 12 ∧ ((warp (engine [] [])).sget 6).toNat < 2 ^ (8 * 2) ∧
    2 ^ (8 * 2) ≤ ((warp (engine [] [])).sget 7).toNat ∧ 18 ≤ ((warp (engine [] [])).sget 9).toNat ∧
    ((warp (engine [] [])).sget 1).toNat < 8 ∧ 8 ≤ ((warp (engine [] [])).sget 8).toNat := by decide +kernel

/-- A copy's block, and maps of global and scratchpad memory. -/
def copyBlock (ctl bar n aw : Nat) (tg : List Nat) : List Byte :=
  padded 128 (leBytes 1 0 ++ leBytes 1 1 ++ leBytes 1 ctl ++ leBytes 1 bar ++ leBytes 1 n ++ leBytes 3 0 ++ leBytes 8 aw ++
    words [4, 0, 0, 0, 0] ++ words [1, 0, 0, 0, 0] ++ words [2, 0, 0, 0, 0] ++ leBytes 4 0 ++ words tg)
def copying (b : List Byte) : State := engine [slotBytes 0x800 9 1 0 0 [16] [], slotBytes 64 9 1 1 0 [16] []] b
def copyNamed (b : List Byte) (m : Bool) : Copy := copyOf b m ((team (copying b)).tmap 0) ((team (copying b)).tmap 1)
theorem copy_block : blockFine (copying (copyBlock 7 15 0 0x200 [])) 128 128 0x400 (copyBlock 7 15 0 0x200 []) = true ∧
    blockFine (copying (copyBlock 0 0 8 0 [1, 2, 3, 4, 5, 6, 7, 0])) 128 128 0x400 (copyBlock 0 0 8 0 [1, 2, 3, 4, 5, 6, 7, 0]) = true := by
  decide +kernel
theorem witness_CopyIssue : ∃ awpa, runs (copying (copyBlock 7 15 0 0x200 [])) ∧
    roomFor (warp (copying (copyBlock 7 15 0 0x200 []))) .c 1 ∧
    blockAt (copying (copyBlock 7 15 0 0x200 [])) (readBlock (copying (copyBlock 7 15 0 0x200 [])) 128) (team (copying (copyBlock 7 15 0 0x200 []))) (warp (copying (copyBlock 7 15 0 0x200 []))) 2 128 128 0x400 0x400 (copyBlock 7 15 0 0x200 []) ∧
    slotsReady (readBlock (copying (copyBlock 7 15 0 0x200 [])) 128) (team (copying (copyBlock 7 15 0 0x200 []))) [(0, false), (1, true)] ∧
    (copyReservedOk (copyBlock 7 15 0 0x200 []) false = true ∧
      boxOk (copyNamed (copyBlock 7 15 0 0x200 []) false).src.rank (copyNamed (copyBlock 7 15 0 0x200 []) false).box
        (copyNamed (copyBlock 7 15 0 0x200 []) false).sorg (copyNamed (copyBlock 7 15 0 0x200 []) false).dorg = true) ∧
    ((copyNamed (copyBlock 7 15 0 0x200 []) false).src.fmt = (copyNamed (copyBlock 7 15 0 0x200 []) false).dst.fmt ∧
      (copyNamed (copyBlock 7 15 0 0x200 []) false).src.fmt ≠ .nq4 ∧
      (copyNamed (copyBlock 7 15 0 0x200 []) false).src.rank = (copyNamed (copyBlock 7 15 0 0x200 []) false).dst.rank) ∧
    (copyTagsOk ((copying (copyBlock 7 15 0 0x200 [])).world 0).sg (copyNamed (copyBlock 7 15 0 0x200 []) false).src
      (copyNamed (copyBlock 7 15 0 0x200 []) false).dst (copyNamed (copyBlock 7 15 0 0x200 []) false).box
      (copyNamed (copyBlock 7 15 0 0x200 []) false).sorg (copyNamed (copyBlock 7 15 0 0x200 []) false).dorg = true ∧
      (copyNamed (copyBlock 7 15 0 0x200 []) false).bar ≤ (team (copying (copyBlock 7 15 0 0x200 []))).barsMax ∧
      inBlock (copyBlock 7 15 0 0x200 []) 4 1 = 0) ∧
    arrivalCheck (readBlock (copying (copyBlock 7 15 0 0x200 [])) 128) (team (copying (copyBlock 7 15 0 0x200 [])))
      (copyNamed (copyBlock 7 15 0 0x200 []) false) = .ok awpa ∧
    copyLocalCheck (team (copying (copyBlock 7 15 0 0x200 []))) { copyNamed (copyBlock 7 15 0 0x200 []) false with awpa := awpa } = none ∧
    (readBlock (copying (copyBlock 7 15 0 0x200 [])) 128).scoreboardFull 0 = false :=
  ⟨0, by decide +kernel, by unfold roomFor; decide +kernel, block_at copy_block.1, by unfold slotsReady; decide +kernel,
    by decide +kernel, by decide +kernel, by decide +kernel, okIs_ok _ _ (by decide +kernel), by decide +kernel, by decide +kernel⟩
def multicast : List Byte := copyBlock 0 0 8 0 [1, 2, 3, 4, 5, 6, 7, 0]
theorem witness_MulticastIssue : runs (copying multicast) ∧ roomFor (warp (copying multicast)) .c 1 ∧
    blockAt (copying multicast) (readBlock (copying multicast) 128) (team (copying multicast)) (warp (copying multicast)) 2 128 128 0x400 0x400 multicast ∧
    slotsReady (readBlock (copying multicast) 128) (team (copying multicast)) [(0, false), (1, true)] ∧
    (copyReservedOk multicast true = true ∧ 1 ≤ inBlock multicast 4 1 ∧ inBlock multicast 4 1 ≤ 8) ∧
    ((List.range (inBlock multicast 4 1)).map fun i => inBlock multicast (80 + 4 * i) 4).Nodup ∧
    ((copyNamed multicast true).dst.scratch = true ∧ (copyNamed multicast true).awen = false ∧
      (copyNamed multicast true).baren = false ∧ (copyNamed multicast true).src.fmt = (copyNamed multicast true).dst.fmt ∧
      (copyNamed multicast true).src.fmt ≠ .nq4 ∧ (copyNamed multicast true).src.rank = (copyNamed multicast true).dst.rank) ∧
    boxOk (copyNamed multicast true).src.rank (copyNamed multicast true).box (copyNamed multicast true).sorg
      (copyNamed multicast true).dorg = true ∧
    copyTagsOk ((copying multicast).world 0).sg (copyNamed multicast true).src (copyNamed multicast true).dst
      (copyNamed multicast true).box (copyNamed multicast true).sorg (copyNamed multicast true).dorg = true ∧
    (readBlock (copying multicast) 128).scoreboardFull 0 = false :=
  ⟨by decide +kernel, by unfold roomFor; decide +kernel, block_at copy_block.2, by unfold slotsReady; decide +kernel,
    by decide +kernel, by decide +kernel, by decide +kernel, by decide +kernel, by decide +kernel, by decide +kernel⟩

/-- Rotations: f32 to a rotated bf16 slot, and back. -/
def rotBlock (ss ds sc rot box so dO : Nat) : List Byte :=
  padded 128 (leBytes 1 ss ++ leBytes 1 ds ++ leBytes 1 sc ++ leBytes 1 rot ++ leBytes 4 0 ++ words [box, 0, 0, 0, 0] ++
    words [so, 0, 0, 0, 0] ++ words [dO, 0, 0, 0, 0])
def seeded (s : State) : State := s.setWorld 0 { s.world 0 with sg := [(2, 0xABCD#32)] }
def rotating : State := seeded (engine [slotBytes 0 9 1 1 0 [256] [], slotBytes 4096 8 1 1 0 [256] []] (rotBlock 0 1 0x80 9 32 0 16))
def unrotating : State :=
  seeded (engine [slotBytes 4096 8 1 1 (rotTag 1 2 0xABCD#32) [256] [], slotBytes 0 9 1 1 0 [256] []] (rotBlock 0 1 0x80 0 32 0 16))
noncomputable def rotTensor (s : State) (k : TensorKind) (b : List Byte) : Tensor :=
  tensorOf (s.world 0).sg k b [(0, (team s).tmap 0), (1, (team s).tmap 1)]
theorem witness_RotationIssue : ∃ pages, runs rotating ∧ roomFor (warp rotating) .t 1 ∧
    blockAt rotating (readBlock rotating 128) (team rotating) (warp rotating) 2 128 128 0x400 0x400 (rotBlock 0 1 0x80 9 32 0 16) ∧
    slotsReady (readBlock rotating 128) (team rotating) [(0, false), (1, true)] ∧
    (rotLegal (rotTensor rotating .rot (rotBlock 0 1 0x80 9 32 0 16)) = true ∧
      bitOf (inBlock (rotBlock 0 1 0x80 9 32 0 16) 2 1) 7 = true ∧
      tagOk (rotTensor rotating .rot (rotBlock 0 1 0x80 9 32 0 16)).sg ((rotTensor rotating .rot (rotBlock 0 1 0x80 9 32 0 16)).map 0).tag = true ∧
      tagRotated ((rotTensor rotating .rot (rotBlock 0 1 0x80 9 32 0 16)).map 0).tag = !true) ∧
    operandsReady (readBlock rotating 128) (team rotating) (rotOperands (rotTensor rotating .rot (rotBlock 0 1 0x80 9 32 0 16)) true 16) [] [] pages := by
  obtain ⟨p, hp⟩ := @ready_operands (readBlock rotating 128) (team rotating) (rotOperands (rotTensor rotating .rot (rotBlock 0 1 0x80 9 32 0 16)) true 16) (by decide +kernel)
  exact ⟨p, by decide +kernel, by unfold roomFor; decide +kernel, block_at (by decide +kernel), by unfold slotsReady; decide +kernel,
    by decide +kernel, hp⟩
theorem witness_RotationIssue_back : ∃ pages, runs unrotating ∧
    blockAt unrotating (readBlock unrotating 128) (team unrotating) (warp unrotating) 2 128 128 0x400 0x400 (rotBlock 0 1 0x80 0 32 0 16) ∧
    slotsReady (readBlock unrotating 128) (team unrotating) [(0, false), (1, true)] ∧
    (irotLegal (rotTensor unrotating .irot (rotBlock 0 1 0x80 0 32 0 16)) = true ∧
      tagOk (rotTensor unrotating .irot (rotBlock 0 1 0x80 0 32 0 16)).sg ((rotTensor unrotating .irot (rotBlock 0 1 0x80 0 32 0 16)).map 0).tag = true ∧
      tagRotated ((rotTensor unrotating .irot (rotBlock 0 1 0x80 0 32 0 16)).map 0).tag = !false ∧
      (rotTensor unrotating .irot (rotBlock 0 1 0x80 0 32 0 16)).has 2 = false) ∧
    operandsReady (readBlock unrotating 128) (team unrotating) (rotOperands (rotTensor unrotating .irot (rotBlock 0 1 0x80 0 32 0 16)) false
      (blkSize (tagBlk ((rotTensor unrotating .irot (rotBlock 0 1 0x80 0 32 0 16)).map 0).tag))) [] [] pages := by
  obtain ⟨p, hp⟩ := @ready_operands (readBlock unrotating 128) (team unrotating) (rotOperands (rotTensor unrotating .irot (rotBlock 0 1 0x80 0 32 0 16)) false
    (blkSize (tagBlk ((rotTensor unrotating .irot (rotBlock 0 1 0x80 0 32 0 16)).map 0).tag))) (by decide +kernel)
  exact ⟨p, by decide +kernel, block_at (by decide +kernel), by unfold slotsReady; decide +kernel, by decide +kernel, hp⟩

/-- Accumulator tiles loaded and stored. -/
def accBlock (ms zt nt rot s1 s2 s3 : Nat) (r : List Nat) : List Byte :=
  padded 64 (leBytes 1 ms ++ leBytes 1 zt ++ leBytes 1 nt ++ leBytes 1 rot ++ leBytes 1 0 ++ leBytes 1 s1 ++ leBytes 1 s2 ++ leBytes 1 s3 ++ words r)
def ldBlock : List Byte := accBlock 0 1 2 0 0x80 0 0x80 [8, 4, 1, 1, 0]
def loading : State := engine [slotBytes 0 9 2 1 0 [16, 8] [64]] ldBlock
noncomputable def loaded : Tensor := tensorOf (loading.world 0).sg .accLd ldBlock [(0, (team loading).tmap 0)]
theorem witness_TileTransferIssue : ∃ pages, runs loading ∧ roomFor (warp loading) .t 1 ∧
    blockAt loading (readBlock loading 64) (team loading) (warp loading) 2 64 64 0x400 0x400 ldBlock ∧ slotsReady (readBlock loading 64) (team loading) [(0, false)] ∧
    (accShapeOk (team loading) loaded = true ∧ inBlock ldBlock 3 1 = 0 ∧ inBlock ldBlock 24 4 = 0 ∧ inBlock ldBlock 5 1 = 128 ∧
      inBlock ldBlock 6 1 = 0 ∧ inBlock ldBlock 7 1 = 128 ∧ (loaded.map 0).tag = 0) ∧
    operandsReady (readBlock loading 64) (team loading) [operand2 (loaded.map 0) (accOrg0 loaded) (accOrg1 loaded) (accWidth loaded) (accRows loaded) false] [] [] pages := by
  obtain ⟨p, hp⟩ := @ready_operands (readBlock loading 64) (team loading)
    [operand2 (loaded.map 0) (accOrg0 loaded) (accOrg1 loaded) (accWidth loaded) (accRows loaded) false] (by decide +kernel)
  exact ⟨p, by decide +kernel, by unfold roomFor; decide +kernel, block_at (by decide +kernel), by unfold slotsReady; decide +kernel,
    by decide +kernel, hp⟩
def stBlock : List Byte := accBlock 0 1 2 9 1 2 0x80 [32, 16, 16, 1, 0x3F800000]
def storing : State := seeded (engine [slotBytes 0 0 2 1 0 [64, 8] [64], slotBytes 4096 9 2 1 0 [16, 8] [64], slotBytes 8192 9 1 1 0 [64] []] stBlock)
noncomputable def stored : Tensor := { tensorOf (storing.world 0).sg .accSt stBlock
    [(0, (team storing).tmap 0), (1, (team storing).tmap 1), (2, (team storing).tmap 2)] with
  kinds := (strip 1 2).map (team storing).tileKind }
theorem witness_TileTransferIssue_store : ∃ pages, runs storing ∧ roomFor (warp storing) .t 1 ∧
    blockAt storing (readBlock storing 64) (team storing) (warp storing) 2 64 64 0x400 0x400 stBlock ∧
    (List.range 3).filter (fun i => !bitOf (inBlock stBlock (5 + i) 1) 7) = [0, 1] ∧
    slotsReady (readBlock storing 64) (team storing) [(0, true), (1, true), (2, false)] ∧
    ((∀ k ∈ stored.kinds, k = false) ∧ stored.kinds ≠ [] ∧ accStLegal (team storing) stored false = true ∧
      (∀ i < 2, stored.has (i + 2) = true → tagOk stored.sg (stored.map (i + 2)).tag = true)) ∧
    operandsReady (readBlock storing 64) (team storing) (accStOperands stored (blkSize (rotBlk (inBlock stBlock 3 1)))) [] [] pages := by
  obtain ⟨p, hp⟩ := @ready_operands (readBlock storing 64) (team storing) (accStOperands stored (blkSize (rotBlk (inBlock stBlock 3 1)))) (by decide +kernel)
  exact ⟨p, by decide +kernel, by unfold roomFor; decide +kernel, block_at (by decide +kernel), by decide +kernel,
    by unfold slotsReady; decide +kernel, by decide +kernel, hp⟩
/-- Tiles named by s2, with or without an operation on tile 3 outstanding. -/
def zeroing (v : Word) (busy : Bool) : State :=
  let s := at0 (fun w => { w with sregs := [(2, v)] }) id
  { s with ops := if busy then [{ plainOp (team s) 0 (warp s) .t (.mark []) with id := 9, tiles := [3] }] else [] }
theorem witness_TileZero : runs (zeroing 0x10 false) ∧ runs (zeroing 0x80009 true) ∧
    (4 ∈ (List.range 16).filter (bitOf ((warp (zeroing 0x10 false)).sget 2).toNat) ∧ (team (zeroing 0x10 false)).acc ≤ 4) ∧
    (bitOf 0x20001 (16 + 1) = true ∧ bitOf 0x20001 1 = false) ∧ ((warp (zeroing 0x80009 true)).sget 2).toNat = 0x80009 ∧
    (List.range 16).filter (bitOf 0x80009) = [0, 3] ∧ 3 < (team (zeroing 0x80009 true)).acc ∧
    (∀ n < 16, bitOf 0x80009 (16 + n) = true → bitOf 0x80009 n = true) ∧
    (∀ o ∈ (zeroing 0x80009 false).ops, o.team ≠ 1) ∧
    ∃ o ∈ (zeroing 0x80009 true).ops, o.team = 1 ∧ ∃ z ∈ o.tiles, z ∈ [0, 3] := by decide +kernel

/-- Matrix instructions: LOADB, MUL, and banks held by a team. -/
def mmaBlock (op ty fl az b zd rot m n k : Nat) : List Byte :=
  padded 64 (leBytes 1 op ++ leBytes 1 ty ++ leBytes 1 fl ++ leBytes 1 az ++ leBytes 1 b ++ leBytes 1 zd ++ leBytes 1 0 ++
    leBytes 1 rot ++ leBytes 2 m ++ leBytes 2 n ++ leBytes 4 k)
def mmaSlots : List (List Byte) := [slotBytes 0 0 2 1 0 [16, 8] [64], slotBytes 4096 0 2 1 0 [16, 4] [64]]
def loadB : List Byte := mmaBlock 1 1 0 0 0 0 0 0 8 16
def mulB : List Byte := mmaBlock 0 1 0 1 0 2 0 4 8 16
def banks1 : Banks := { Banks.empty with actb := 1, bank1 := { Bank.empty with loaded := true, k := 16, n := 8, ty := 1 } }
def owned (b : List Byte) (h : Option Nat) : State :=
  let s := engine mmaSlots b
  match h with
  | none => s
  | some u => s.setCore 0 { s.coreSt 0 with holder := some u, banks := banks1 }
noncomputable def loadBTensor : Tensor := { tensorOf ((owned loadB none).world 0).sg .mma loadB
    [(0, (team (owned loadB none)).tmap 0)] with
  bank := 1 }
theorem witness_MatrixIssue : ∃ pages, runs (owned loadB none) ∧ roomFor (warp (owned loadB none)) .t 1 ∧
    ((owned loadB none).coreSt 0).holder = none ∧
    blockAt (owned loadB none) (readBlock (owned loadB none) 64) (team (owned loadB none)) (warp (owned loadB none)) 2 64 64 0x400 0x400 loadB ∧
    slotsReady (readBlock (owned loadB none) 64) (team (owned loadB none)) [(0, false)] ∧
    (inBlock loadB 0 1 = 1 ∧ 1 - Banks.empty.actb = 1 ∧ loadbLegal loadBTensor = true ∧ fewIvs [mmaOperand loadBTensor] = true ∧
      tagOk loadBTensor.sg (loadBTensor.map 0).tag = true ∧ (loadBTensor.map 0).tag = 0 ∧ mmaFlag loadBTensor 5 = false) ∧
    operandsReady (readBlock (owned loadB none) 64) (team (owned loadB none)) [mmaOperand { loadBTensor with maps := [(0, loadBTensor.map 0)] }] [] [] pages := by
  obtain ⟨p, hp⟩ := @ready_operands (readBlock (owned loadB none) 64) (team (owned loadB none)) [mmaOperand { loadBTensor with maps := [(0, loadBTensor.map 0)] }] (by decide +kernel)
  exact ⟨p, by decide +kernel, by unfold roomFor; decide +kernel, by decide +kernel, block_at (by decide +kernel),
    by unfold slotsReady; decide +kernel, by decide +kernel, hp⟩
noncomputable def mulTensor : Tensor := { tensorOf ((owned mulB (some 1)).world 0).sg .mma mulB
    [(0, (team (owned mulB (some 1))).tmap 1)] with
  bank := 1, kinds := [(team (owned mulB (some 1))).tileKind 1] }
theorem witness_MatrixIssue_mul : ∃ pages, runs (owned mulB (some 1)) ∧ roomFor (warp (owned mulB (some 1))) .t 1 ∧
    (((owned mulB (some 1)).coreSt 0).holder = some (team (owned mulB (some 1))).uid ∧ ((owned mulB (some 1)).coreSt 0).banks = banks1) ∧
    blockAt (owned mulB (some 1)) (readBlock (owned mulB (some 1)) 64) (team (owned mulB (some 1))) (warp (owned mulB (some 1))) 2 64 64 0x400 0x400 mulB ∧
    slotsReady (readBlock (owned mulB (some 1)) 64) (team (owned mulB (some 1))) [(1, false)] ∧
    (inBlock mulB 0 1 ≠ 1 ∧ bitOf (inBlock mulB 2 1) 1 = false ∧ mulLegal (team (owned mulB (some 1))) mulTensor (banks1.bank 1) = true ∧
      tagOk mulTensor.sg (mulTag mulTensor) = true ∧ (banks1.bank 1).tag = mulTag mulTensor ∧ mmaFlag mulTensor 2 = false ∧
      mmaFlag mulTensor 4 = false ∧ fewIvs [mmaOperand mulTensor] = true) ∧
    operandsReady (readBlock (owned mulB (some 1)) 64) (team (owned mulB (some 1))) [mmaOperand { mulTensor with maps := [(0, mulTensor.map 0)] }] [] [] pages := by
  obtain ⟨p, hp⟩ := @ready_operands (readBlock (owned mulB (some 1)) 64) (team (owned mulB (some 1))) [mmaOperand { mulTensor with maps := [(0, mulTensor.map 0)] }] (by decide +kernel)
  exact ⟨p, by decide +kernel, by unfold roomFor; decide +kernel, by decide +kernel, block_at (by decide +kernel),
    by unfold slotsReady; decide +kernel, by decide +kernel, hp⟩
theorem witness_MatrixIssue_banks : (runs (owned loadB (some 7)) ∧ ((owned loadB (some 7)).coreSt 0).holder = some 7 ∧ 7 ≠ (team (owned loadB (some 7))).uid) ∧
    ((warp (owned loadB none)).sget 3).toNat ≤ 1 ∧ 1 < ((warp (owned loadB none)).sget 2).toNat := by decide +kernel

/-- A layer instruction whose handle grants a region; and with no room on the activation stack. -/
def layerBlock (b : List Nat) (rest : List Byte) : List Byte := padded 128 (leBytes 2 0 ++ b.flatMap (leBytes 1) ++ leBytes 6 0 ++ rest)
def trainBlock : List Byte := layerBlock [0, 1, 2, 1, 0, 4, 3, 0] (leBytes 2 2 ++ leBytes 2 3)
def pushBlock : List Byte := layerBlock [0, 1, 2, 1, 0, 2, 0, 0] (leBytes 2 2 ++ leBytes 2 3)
def layerSlots4 : List (List Byte) := [slotBytes 0 9 2 1 0 [16, 4] [64], slotBytes 4096 8 2 1 0 [16, 4] [64],
  slotBytes 8192 8 2 1 0 [16, 4] [64], slotBytes 12288 8 2 1 0 [16, 4] [64]]
def grantedRegion : Region :=
  { Region.reset with state := .valid, gen := 5, k := 8, n := 4, ec := 1, ej := 1, placement := [0], cols := List.replicate 4 { cs := 0, g := 0, o := 0, cflags := 0 } }
def layering (b : List Byte) (granted : Bool) (limit : DWord) : State :=
  let s := (engine layerSlots4 b).updTeam 1 fun t => { t with aslimit := limit }
  if granted then
    { s.setWorld 0 { s.world 0 with handles := [(0, 0x80000000#32 ||| (5#32 <<< 14) ||| 7#32)], hcount := 1 } with regions := [(7, grantedRegion)] }
  else s
noncomputable def layerTensor (b : List Byte) (granted : Bool) (limit : DWord) (k : TensorKind) : Tensor :=
  tensorOf ((layering b granted limit).world 0).sg k b
    ((layerSlots b).map fun q => (q.1, (team (layering b granted limit)).tmap q.2.1))
theorem witness_LayerIssue : (.layerF, .layerF, 4) ∈ layers ∧ runs (layering pushBlock false 0x1000) ∧
    roomFor (warp (layering pushBlock false 0x1000)) .t 1 ∧
    blockAt (layering pushBlock false 0x1000) (readBlock (layering pushBlock false 0x1000) 128) (team (layering pushBlock false 0x1000)) (warp (layering pushBlock false 0x1000)) 2 128 128 0x400 0x400 pushBlock ∧
    slotsReady (readBlock (layering pushBlock false 0x1000) 128) (team (layering pushBlock false 0x1000)) ((layerSlots pushBlock).map fun q => (q.2.1, q.2.2)) ∧
    layerLegal (team (layering pushBlock false 0x1000)) (layerTensor pushBlock false 0x1000 .layerF) = true ∧
    (readBlock (layering pushBlock false 0x1000) 128).grantedRegion 0 0 = none :=
  ⟨List.mem_cons_self, by decide +kernel, by unfold roomFor; decide +kernel, block_at (by decide +kernel), by unfold slotsReady; decide +kernel,
    by decide +kernel, by decide +kernel⟩
/-- The region is granted, the shape fits it, and there is room for the record when `limit` says so. -/
def layerFits (b : List Byte) (limit : DWord) (k : TensorKind) : Prop :=
  (layering b true limit).grantedRegion 0 0 = some 7 ∧
  layerIn (layerTensor b true limit k) (holdOf 7 grantedRegion) ≤ ((layerTensor b true limit k).map 0).dim 0 ∧
  (∀ z ∈ layerStrip (layerTensor b true limit k) (holdOf 7 grantedRegion), z < (team (layering b true limit)).acc) ∧
  fewIvs (layerOperands (layerTensor b true limit k) (holdOf 7 grantedRegion)) = true ∧
  layerTagsOk (layerTensor b true limit k) (holdOf 7 grantedRegion) = true ∧
  (layerMaps (team (layering b true limit)) (layerTensor b true limit k)).isSome = true ∧
  layerLegal (team (layering b true limit)) (layerTensor b true limit k) = true
theorem witness_LayerIssue_push : layerFits pushBlock 0x900 .layerF ∧ runs (layering pushBlock true 0x900) ∧
    layerFlag (layerTensor pushBlock true 0x900 .layerF) 1 = true ∧
    ¬ ((team (layering pushBlock true 0x900)).stackOk = true ∧
      (team (layering pushBlock true 0x900)).astop.toNat + recLen (layerTensor pushBlock true 0x900 .layerF) (holdOf 7 grantedRegion) ≤
        (team (layering pushBlock true 0x900)).aslimit.toNat) ∧
    (layerFits pushBlock 0x1000 .layerF ∧ (team (layering pushBlock true 0x1000)).stackOk = true ∧
      (team (layering pushBlock true 0x1000)).astop.toNat + recLen (layerTensor pushBlock true 0x1000 .layerF) (holdOf 7 grantedRegion) ≤
        (team (layering pushBlock true 0x1000)).aslimit.toNat) := by unfold layerFits; decide +kernel
/-- The operands of a training layer, with its maps, tile kinds, generations and region. -/
noncomputable def trained : Tensor :=
  { layerTensor trainBlock true 0x1000 .layerT with
    maps := (layerMaps (team (layering trainBlock true 0x1000)) (layerTensor trainBlock true 0x1000 .layerT)).getD []
    kinds := (layerStrip (layerTensor trainBlock true 0x1000 .layerT) (holdOf 7 grantedRegion)).map (team (layering trainBlock true 0x1000)).tileKind
    astop := (team (layering trainBlock true 0x1000)).astop.toNat, layer := some (holdOf 7 grantedRegion)
    gena := ((layerTensor trainBlock true 0x1000 .layerT).map 1).curGen, genb := ((layerTensor trainBlock true 0x1000 .layerT).map 2).curGen }
theorem witness_LayerIssue_ready : layerFits trainBlock 0x1000 .layerT ∧ layerFlag (layerTensor trainBlock true 0x1000 .layerT) 1 = false ∧
    ∃ pages, operandsReady (layering trainBlock true 0x1000) (team (layering trainBlock true 0x1000))
      (layerOperands trained (holdOf 7 grantedRegion)) [] [] pages :=
  ⟨by unfold layerFits; decide +kernel, by decide +kernel, ready_operands (by decide +kernel)⟩

/-- Row instructions. -/
def rowBlock (b : List Nat) (l rows : Nat) : List Byte :=
  padded 64 (b.flatMap (leBytes 1) ++ leBytes 1 0 ++ leBytes 4 l ++ leBytes 2 rows ++ leBytes 2 0 ++ words [0x3F800000, 0x358637BD])
def softmax : List Byte := rowBlock [0, 1, 0x80, 0x80, 0x80, 0x80, 0x80] 4 2
def rowing : State := engine [slotBytes 0 9 2 1 0 [4, 2] [64], slotBytes 4096 9 2 1 0 [4, 2] [64]] softmax
noncomputable def rowTensor : Tensor := tensorOf (rowing.world 0).sg .smax softmax [(0, (team rowing).tmap 0), (1, (team rowing).tmap 1)]
theorem witness_RowIssue : ∃ pages, runs rowing ∧ roomFor (warp rowing) .t 1 ∧
    blockAt rowing (readBlock rowing 64) (team rowing) (warp rowing) 2 64 64 0x400 0x400 softmax ∧
    ((List.range 7).filter fun i => (decide (i ∈ (reelUses .smax false).1) || decide (i ∈ (reelUses .smax false).2)) && !bitOf (inBlock softmax i 1) 7) = [0, 1] ∧
    slotsReady (readBlock rowing 64) (team rowing) [(0, false), (1, true)] ∧ reelLegal (team rowing) rowTensor = true ∧ (∀ m ∈ rowTensor.maps, m.2.tag = 0) ∧
    operandsReady (readBlock rowing 64) (team rowing) (reelOperands rowTensor) [] [] pages := by
  obtain ⟨p, hp⟩ := @ready_operands (readBlock rowing 64) (team rowing) (reelOperands rowTensor) (by decide +kernel)
  exact ⟨p, by decide +kernel, by unfold roomFor; decide +kernel, block_at (by decide +kernel), by decide +kernel,
    by unfold slotsReady; decide +kernel, by decide +kernel, by decide +kernel, hp⟩

/-- Pushing 256 or 2048 bytes of a scratchpad slot onto a stack from 0x800 to 0x1000 with its top at 0x900, and popping them. -/
def stacking : State := (engine [slotBytes 0 0 1 1 0 [16] []] []).updWarp 1 0 fun w => { w with sregs := [(4, 0#32), (5, 0x100#32), (6, 0x800#32)] }
theorem witness_StackCopyIssue : runs stacking ∧ roomFor (warp stacking) .c 1 ∧ ((warp stacking).sget 4).toNat < 16 ∧
    slotsReady stacking (team stacking) [(0, true)] ∧ (((team stacking).tmap 0).wrap = 0 ∧ ((team stacking).tmap 0).base % 64 = 0 ∧
      ((team stacking).tmap 0).scratch = true ∧ (team stacking).stackOk = true) ∧
    ((team stacking).aslimit.toNat < (team stacking).astop.toNat + 0x800 ∧ (team stacking).astop.toNat < (team stacking).asbase.toNat + 0x800) ∧
    ((team stacking).astop.toNat + 0x100 ≤ (team stacking).aslimit.toNat ∧ (team stacking).asbase.toNat + 0x100 ≤ (team stacking).astop.toNat) ∧
    fine (stacking.holdOperands (team stacking) [] [] [(0x900, 0x100)]) = true ∧
    fine (stacking.holdOperands (team stacking) [] [(0x800, 0x100)] []) = true ∧
    (((team stacking).tmap 0).base + 0x100 ≤ (team stacking).scratchSize ∧ stacking.scoreboardFull 0 = false) := by
  unfold roomFor slotsReady; decide +kernel

/-- Near-bank instructions: a program of 256 words, a command block of one FILL command, and operations outstanding. -/
def pimBlock : List Byte := padded 64 (leBytes 2 1 ++ leBytes 1 1 ++ leBytes 1 3) ++ padded 16 (leBytes 1 1 ++ leBytes 1 0 ++ leBytes 2 2 ++ leBytes 4 7 ++ leBytes 8 0x100000)
def pimming (busy : Bool) : State :=
  let s := (engine [] pimBlock).updWarp 1 0 fun w => { w with sregs := [(2, 0x400#32), (4, 256#32), (6, 257#32)] }
  { s with ops := if busy then [{ plainOp (team s) 0 (warp s) .c (.pimld 0 1 [0]) with id := 9 }] else [] }
theorem witness_NearBankIssue : runs (pimming false) ∧ roomFor (warp (pimming false)) .c 1 ∧
    (((warp (pimming false)).sget 4).toNat = 256 ∧ ((warp (pimming false)).sget64 2).toNat % 64 = 0 ∧
      okIs ((pimming false).checkRange 0 0 0x400 1024 .read) () = true) ∧
    256 < ((warp (pimming false)).sget 6).toNat ∧ (pimming false).teamHas 1 OpKind.isPimld = false ∧
    (pimHeaderOk pimBlock = true ∧ okIs ((readBlock (pimming false) 64).checkRange 0 0 0x400 80 .atomic) () = true ∧
      okIs ((readBlock (pimming false) 64).readVirt 0 0 (some (logAgent 0 0)) 0x400 80).1 pimBlock = true ∧ inBlock pimBlock 0 2 = 1 ∧
      (readCommand pimBlock 0).isSome = true ∧ ((readCommand pimBlock 0).map fun c => c.fill) = some true ∧
      ((pimming false).world 0).pimok = true ∧ inBlock pimBlock 3 1 ≤ (team (pimming false)).barsMax ∧ (team (pimming false)).uprog = none) ∧
    (warp (pimming false)).token 7 < 63 ∧ (pimming false).ops = [] ∧
    ∃ o ∈ (pimming true).ops, o.team = 1 ∧ o.warp = 0 ∧ o.kind.isPimld = true := by unfold roomFor; decide +kernel
theorem witness_NearBankIssue_block : blockAt (pimming false) (readBlock (pimming false) 64) (team (pimming false)) (warp (pimming false)) 2 64 64 0x400 0x400 (pimBlock.take 64) :=
  block_at (by decide +kernel)

/-! ### What the engines compute -/

theorem witness_RotatedBlocks : (List.replicate 16 (XR.fin false 1 1)).length = 2 ^ 4 ∧
    (∀ x ∈ List.replicate 16 (XR.fin false 1 1), proper x) ∧ proper (.inf true) := by
  refine ⟨rfl, fun x hx => ?_, trivial⟩
  rw [List.eq_of_mem_replicate hx]; exact Nat.one_pos
theorem topExp_one : topExp [.fin false 1 1] 0 :=
  ⟨⟨_, List.mem_singleton.2 rfl, by decide +kernel⟩, fun x hx => by rw [List.mem_singleton.1 hx]; decide +kernel⟩
theorem witness_NarrowedGroups : topExp [.fin false 1 1] 0 ∧ topExp [.fin false (2 ^ 140) 1] 140 ∧ proper (.fin false 1 1) ∧
    (f32 0x3F800000).isFin = true ∧ (f32 0x7F800000).isFin = false ∧ largest [.fin false 1 1] 1 :=
  ⟨topExp_one, ⟨⟨_, List.mem_singleton.2 rfl, by decide +kernel⟩, fun x hx => by rw [List.mem_singleton.1 hx]; decide +kernel⟩, Nat.one_pos,
    by decide +kernel, by decide +kernel, ⟨_, List.mem_singleton.2 rfl, by decide +kernel⟩, fun x hx => by rw [List.mem_singleton.1 hx]; decide +kernel⟩
theorem witness_NarrowedGroups_scale : 0 ≤ rat (f32 0x3F800000) := by decide +kernel
/-- A block of a rotation to BF16, its identity form, to INT8 and to NQ4, by kind and formats. -/
noncomputable def rotated1 : Tensor := rotTensor rotating .rot (rotBlock 0 1 0x80 9 32 0 16)
theorem witness_RotationResults : rotated1.kind = .rot ∧ rotBlk (rotated1.nat 3 1) = 1 ∧ (rotBox rotated1).getD 0 0 % blkSize 1 = 0 ∧
    (rotated1.map 1).fmt.float = some bf16 ∧ 0 < (rotBox rotated1).getD 0 0 ∧
    (rotTensor unrotating .irot (rotBlock 0 1 0x80 0 32 0 16)).kind = .irot ∧
    tagBlk ((rotTensor unrotating .irot (rotBlock 0 1 0x80 0 32 0 16)).map 0).tag = 1 ∧ rotBlk (0x20 : Nat) = 0 := by decide +kernel
theorem witness_TileTransferResults : loaded.kind = .accLd ∧ stored.kind = .accSt ∧ 0 < accLen stored ∧ (stored.map 0).fmt = .i8 ∧
    rotBlk (stored.nat 3 1) ≠ 0 ∧ accLen stored % blkSize (rotBlk (stored.nat 3 1)) = 0 ∧
    accCount stored % blkSize (rotBlk (stored.nat 3 1)) = 0 := by decide +kernel
/-- A matrix operation's block read as a tensor without operands, for its fields. -/
def bare (k : TensorKind) (b : List Byte) : Tensor := tensorOf [] k b []
theorem witness_MatrixSums : loadBTensor.kind = .mma ∧ mmaIsLoad loadBTensor = true ∧
    (mmaIsLoad (bare .mma (mmaBlock 0 0 2 1 0 2 1 4 8 16)) = false ∧ mmaType (bare .mma (mmaBlock 0 0 2 1 0 2 1 4 8 16)) ≠ 1 ∧
      mmaFlag (bare .mma (mmaBlock 0 0 2 1 0 2 1 4 8 16)) 1 = true ∧
      mmaK (bare .mma (mmaBlock 0 0 2 1 0 2 1 4 8 16)) % blkSize (rotBlk ((bare .mma (mmaBlock 0 0 2 1 0 2 1 4 8 16)).nat 7 1)) = 0) ∧
    1 ≤ ceilDiv (mmaK (bare .mma (mmaBlock 0 0 2 1 0 2 1 4 8 16))) 32 := by decide +kernel
theorem witness_RowResults : rowTensor.kind = .smax ∧ (bare .dsmax []).kind = .dsmax ∧ (bare .norm []).kind = .norm ∧
    (bare .dnorm []).kind = .dnorm ∧ (bare .dnorm []).has 5 = false ∧
    ({ bare .dnorm [] with maps := [(5, { (default : TMap) with fmt := .f64 })] } : Tensor).has 5 = true ∧
    (({ bare .dnorm [] with maps := [(5, { (default : TMap) with fmt := .f64 })] } : Tensor).map 5).fmt = .f64 ∧
    (bare .stat []).kind = .stat ∧ reelImport [] = false ∧ reelImport (List.replicate 24 0 ++ [2]) = true ∧ (bare .clr []).kind = .clr := by
  decide +kernel
/-- Layer operations that hold the region, with their vectors read: a forward with its record, a backward with its tap, a probe. -/
def heldLayer : LayerHold := { holdOf 7 grantedRegion with k := 16, n := 4, rotk := 1, rotn := 0, inputs := [(0, List.replicate 16 0), (1, List.replicate 16 0)] }
def layerOf (k : TensorKind) (b : List Byte) (h : LayerHold) (f : ElemFmt) : Tensor :=
  { bare k b with maps := [(0, { (default : TMap) with fmt := f })], layer := some h }
def backwardHold : LayerHold := { heldLayer with k := 4, n := 16, rotk := 0, rotn := 1, cols := List.replicate 16 default }
theorem witness_LayerResults : (layerOf .layerF pushBlock heldLayer .f32).layer = some heldLayer ∧
    (((layerOf .layerF pushBlock heldLayer .f32).map 0).fmt.float = some fp32 ∧ heldLayer.cols.length = heldLayer.n ∧
      layerM (layerOf .layerF pushBlock heldLayer .f32) = 2 ∧ (∀ m < 2, ((KMap.find heldLayer.inputs m).getD []).length = heldLayer.k) ∧
      heldLayer.k % sideBlk (layerOf .layerF pushBlock heldLayer .f32) heldLayer = 0 ∧ heldLayer.n % blkSize heldLayer.rotn = 0 ∧
      layerFlag (layerOf .layerF pushBlock heldLayer .f32) 2 = false ∧ layerFlag (layerOf .layerF pushBlock heldLayer .f32) 1 = true ∧
      layerRank (layerOf .layerF pushBlock heldLayer .f32) ≤ 64 ∧ layerHandle (layerOf .layerF pushBlock heldLayer .f32) < 65536 ∧
      heldLayer.gen < 65536 ∧ heldLayer.k < 2 ^ 24) ∧
    (backwardHold.cols.length = backwardHold.n ∧ (∀ m < 2, ((KMap.find backwardHold.inputs m).getD []).length = backwardHold.n) ∧
      backwardHold.n % sideBlk (layerOf .layerT trainBlock backwardHold .f32) backwardHold = 0 ∧ backwardHold.k % blkSize backwardHold.rotk = 0 ∧
      layerFlag (layerOf .layerT trainBlock backwardHold .f32) 1 = false ∧ layerM (layerOf .layerT trainBlock backwardHold .f32) = 2 ∧
      layerFlag (layerOf .layerT trainBlock backwardHold .f32) 2 = true ∧ layerNoad (layerOf .layerT trainBlock backwardHold .f32) = false) ∧
    ((layerOf .layerP [] heldLayer .i8).map 0).fmt = .i8 := by decide +kernel

/-- Operation 9 of the warp outstanding, with its counters raised. -/
def event (k : OpKind) (ctr : Ctr) (kn : Option Nat) : State :=
  let s := at0 (fun w => { w with cntL := 2, cntS := 2, cntC := 2, cntT := 2, tokens := [(3, 1)] }) id
  { s with ops := [{ plainOp (team s) 0 (warp s) ctr k with id := 9, kn := kn, blkpa := 0x400, opaddr := 0x400 }], cur := none }
def opOf (s : State) : Op := s.ops.headD (plainOp (placedTeam baseHeader) 0 Warp.zero .l (.mark []))
def team1 (s : State) : Team := (s.findTeam 1).getD (placedTeam baseHeader)
def warp1 (s : State) : Warp := ((team1 s).warps[0]?).getD Warp.zero
/-- Lane 0 and lane 31 at one address, lane 5 beyond it; the two halves of lane 0's 16 bytes; and 32 lanes that cover line 2. -/
def share (l p a v : Nat) : LaneAcc := { lane := l, part := p, va := a + 7, pa := a, op1 := v, op2 := 0 }
def shares : List LaneAcc := [share 0 0 0x120 0x11223344, share 5 0 0x128 0x99, share 31 0 0x120 0x55667788]
def halves : List LaneAcc := [share 0 0 0x120 0, share 0 1 0x128 0]
def covering : List LaneAcc := (List.range 32).map fun l => share l 0 (0x100 + 4 * l) l
def scratchLoad : State := event (.load true .b128 .default 124 halves) .l none
def globalLoad : State := event (.load false .i8 .default 127 shares) .l none
/-- Line 2 with its L2's copy, poisoned, with bad cells, with a packet that fails. -/
def inL2 (c : Nat) (st : Moesi) : L2Line := { cluster := c, line := 2, way := 0, world := 0, hint := .default, state := st }
def heldLoad (p : Bool) : State := { globalLoad with l2 := [inL2 0 .s], lines := if p then [(2, { p := true, z := false })] else [] }
def badCells : State := { globalLoad with cellFaults := [(2, ⟨false, some .uncorr⟩)] }
def badPacket : State := { globalLoad with badPackets := [2] }
theorem witness_LoadCompletion : outstanding scratchLoad 9 (opOf scratchLoad) (team1 scratchLoad) (warp1 scratchLoad) ∧
    (opOf scratchLoad).ctr = some .l ∧ (opOf scratchLoad).kn = none ∧ (nowOf halves [1] ≠ [] ∧ leftOf halves [1] ≠ [] ∧ leftOf halves [0, 1] = []) ∧
    (opOf scratchLoad).kind = .load true .b128 .default 124 halves ∧ scratchLoad.scratchOlder (opOf scratchLoad) = false ∧
    outstanding globalLoad 9 (opOf globalLoad) (team1 globalLoad) (warp1 globalLoad) ∧
    (opOf globalLoad).kind = .load false .i8 .default 127 shares ∧ globalLoad.markBlocked (opOf globalLoad) = false ∧
    (∀ a ∈ nowOf shares [0, 62], a.pa / 128 = 2) ∧ nowOf shares [0, 62] ≠ [] := by
  unfold outstanding; decide +kernel
theorem units_ok : unitsOk .b128 halves ∧ unitsOk .i8 shares ∧ unitsOk .b32 shares ∧ unitsOk .b32 covering := by
  unfold unitsOk; decide +kernel
/-- A unit waits for its line; it sees its L2's copy, that copy's poison, the cells' fault, the packet's. -/
theorem witness_LoadCompletion_sees : loadSees globalLoad (opOf globalLoad) false .default 1 0x127 (share 0 0 0x120 0) = none ∧
    (loadSees (heldLoad false) (opOf globalLoad) false .default 1 0x127 (share 0 0 0x120 0)) = some (0, none) ∧
    (loadSees (heldLoad true) (opOf globalLoad) true .default 1 0x127 (share 0 0 0x120 0)) = some (0, some .integrity) ∧
    (loadSees badCells (opOf globalLoad) false .default 1 0x127 (share 0 0 0x120 0)) = some (0, some .uncorr) ∧
    (loadSees badPacket (opOf globalLoad) false .bypass 1 0x127 (share 0 0 0x120 0)) = some (0, some .integrity) := by decide +kernel
/-- Stores to the scratchpad, to a PIM page, to another page with gathered bytes about, and of a whole line. -/
def byStore : Origin := { team := 1, teamId := 0, warp := 0, core := 0, hdr := 0, idx := 0, va := 0x121 }
def gatheredBytes : List Gathered :=
  [{ cluster := 0, world := 0, addr := 0x121, val := 0x77, later := 0, whole := false, origin := byStore },
   { cluster := 1, world := 0, addr := 0x140, val := 0x78, later := 127, whole := false, origin := byStore }]
def scratchStore : State := event (.store true .b32 .default shares) .s none
def pimStore : State := { event (.store false .b32 .default shares) .s none with pot := [(0, potEntry 0 1 true 0)] }
def lostStore : State := { pimStore with badPackets := [2], ops := pimStore.ops.map fun o => { o with kind := .store false .b32 .default (shares.take 1) } }
def lineStore : State := { event (.store false .b32 .default covering) .s none with gathers := gatheredBytes.take 1 }
theorem witness_StoreCompletion : outstanding scratchStore 9 (opOf scratchStore) (team1 scratchStore) (warp1 scratchStore) ∧
    (opOf scratchStore).kind = .store true .b32 .default shares ∧ scratchStore.scratchOlder (opOf scratchStore) = false ∧
    (outstanding pimStore 9 (opOf pimStore) (team1 pimStore) (warp1 pimStore) ∧ pimStore.markBlocked (opOf pimStore) = false ∧
      storedNow shares 4 [0, 62] = [share 0 0 0x120 0x11223344, share 31 0 0x120 0x55667788] ∧
      (∀ a ∈ shares, pimStore.potPim (a.pa / 16384) = true ∧ pimStore.badPackets.contains (a.pa / 128) = false)) ∧
    (outstanding lostStore 9 (opOf lostStore) (team1 lostStore) (warp1 lostStore) ∧
      storedNow (shares.take 1) 4 [0] = [share 0 0 0x120 0x11223344] ∧ lostStore.potPim 0 = true ∧ lostStore.badPackets.contains 2 = true) ∧
    (outstanding lineStore 9 (opOf lineStore) (team1 lineStore) (warp1 lineStore) ∧ lineStore.markBlocked (opOf lineStore) = false ∧
      storedNow covering 4 [62] = covering ∧ (∀ a ∈ covering, lineStore.potPim (a.pa / 16384) = false) ∧
      (∀ g ∈ lineStore.gathers, g.cluster = 0 ∧ g.world = 0) ∧ lineStore.gathers ≠ []) := by
  unfold outstanding; decide +kernel
theorem witness_StoreCompletion_drain :
    (∀ h ∈ lineStore.gathers, h.addr = 0x121 → h ∈ gatheredBytes.take 1) ∧ lineStore.badPackets.contains (0x121 / 128) = false ∧
    ({ lineStore with badPackets := [2] } : State).badPackets.contains (0x121 / 128) = true ∧
    (∀ h ∈ gatheredBytes.take 1, goesHome lineStore h ∧ ¬ goesHome { lineStore with l2 := [inL2 0 .m] } h) := by
  unfold goesHome; decide +kernel
/-- Atomics: in the scratchpad; in memory, with the line's last release narrow, or the line poisoned, or a ticket before it. -/
def scratchAtomic : State := event (.atomic true .cas .n64 .team .acqrel false 122 shares) .l none
def memoryAtomic (scope : Scope) (ord : Order) (pro : Bool) (r : Option Scope) (p : Bool) : State :=
  { event (.atomic false .add .i32 scope ord pro 127 (shares.take 1)) .l none with
    dir := [(2, { DirEntry.invalid with lrs := r, lrc := 3 })]
    lines := if p then [(2, { p := true, z := false })] else [] }
def ticketBefore : State :=
  let s := memoryAtomic .dev .sc false none false
  { s with ticket := 5, ops := s.ops ++ [{ opOf s with id := 10, ticket := some 4 }] }
theorem atomic_held {s : State} {o : Op} {scope : Scope} {ord : Order} {pro : Bool} {line : Nat}
    (h : atHomeFor s o scope ord pro line = true) (hb : (s.dirEntry line).busy = .idle) (hc : s.coh = []) :
    heldAlone s o scope ord pro line := by
  unfold heldAlone; rw [if_pos h]; exact ⟨hb, by rw [hc]; intro m hm; cases hm⟩
theorem witness_AtomicCompletion : outstanding scratchAtomic 9 (opOf scratchAtomic) (team1 scratchAtomic) (warp1 scratchAtomic) ∧
    (opOf scratchAtomic).ctr ≠ none ∧ lanesOnce shares ∧ scratchAtomic.scratchOlder (opOf scratchAtomic) = false ∧
    (outstanding (memoryAtomic .dev .acqrel true (some .clu) false) 9 (opOf (memoryAtomic .dev .acqrel true (some .clu) false))
        (team1 (memoryAtomic .dev .acqrel true (some .clu) false)) (warp1 (memoryAtomic .dev .acqrel true (some .clu) false)) ∧
      (memoryAtomic .dev .acqrel true (some .clu) false).markBlocked (opOf (memoryAtomic .dev .acqrel true (some .clu) false)) = false ∧
      narrowRelease (memoryAtomic .dev .acqrel true (some .clu) false) 2) ∧
    (¬ narrowRelease (memoryAtomic .dev .acqrel true none true) 2 ∧
      ((atomFirst (memoryAtomic .dev .acqrel true none true) (opOf globalLoad) .dev .acqrel).lineMeta 2).p = true ∧
      (memoryAtomic .dev .acqrel true none true).potPim (2 / 128) = false ∧ (memoryAtomic .dev .acqrel true none true).gathers = []) ∧
    lineClean (atomFirst (memoryAtomic .dev .acqrel false none false) (opOf globalLoad) .dev .acqrel) 2 := by
  unfold outstanding lanesOnce narrowRelease lineClean; decide +kernel
theorem witness_AtomicCompletion_held :
    heldAlone (memoryAtomic .dev .acqrel false none false) (opOf globalLoad) .dev .acqrel false 2 ∧
    (∃ x, ({ memoryAtomic .clu .rlx false none false with l2 := [inL2 0 .m] } : State).l2.find? (fun y => y.cluster == 0 && y.world == 0 && y.line == 2) = some x ∧
      (x.state = .m ∨ x.state = .e)) ∧
    (({ memoryAtomic .clu .rlx false none false with l2 := [inL2 0 .s] } : State).l2.find? (fun y => y.cluster == 0 && y.world == 0 && y.line == 2) = some (inL2 0 .s) ∧
      atHomeFor { memoryAtomic .clu .rlx false none false with l2 := [inL2 0 .s] } (opOf globalLoad) .clu .rlx false 2 = false ∧
      l2Holds { memoryAtomic .clu .rlx false none false with l2 := [inL2 0 .s] } 0 0 2 = true) :=
  ⟨atomic_held (by decide +kernel) (by decide +kernel) rfl, ⟨_, rfl, .inl rfl⟩, by decide +kernel⟩
theorem witness_AtomicCompletion_tickets : ¬ firstTicket ticketBefore (opOf ticketBefore) .sc ∧
    firstTicket (memoryAtomic .dev .acqrel true none true) (opOf (memoryAtomic .dev .acqrel true none true)) .acqrel :=
  ⟨fun h => absurd (h 5 (by decide +kernel) { opOf ticketBefore with id := 10, ticket := some 4 } (by decide +kernel) 4 rfl) (by decide),
   fun n h => by simp [ticketOf, opOf, memoryAtomic, event, plainOp] at h⟩

/-- A store to the home, its packet lost. -/
def homeStore : State := { event (.atomic false .st .i32 .dev .rel false 127 (shares.take 1)) .l none with badPackets := [2] }
theorem witness_AtomicCompletion_lost : outstanding homeStore 9 (opOf homeStore) (team1 homeStore) (warp1 homeStore) ∧
    (opOf homeStore).kind = .atomic false .st .i32 .dev .rel false 127 (shares.take 1) ∧ homeStore.markBlocked (opOf homeStore) = false ∧
    atHomeFor homeStore (opOf homeStore) .dev .rel false 2 = true ∧
    (atomFirst homeStore (opOf homeStore) .dev .rel).badPackets.contains 2 = true := by
  unfold outstanding; decide +kernel

/-- A message about line 2 in flight to or from cluster 4, and an entry at the home, with requests waiting. -/
def message (k : CohKind) : CohMsg := { kind := k, line := 2, cluster := 4, world := 0, hint := .stream }
def queueing (q : List CohMsg) (st : DirState) (owner : Nat) (sh : List Nat) (b : DirBusy) (k : CohKind) : State :=
  { at0 id id with
    dir := [(2, { DirEntry.invalid with state := st, owner := owner, sharers := sh, busy := b, lrs := some .clu, lrc := 3, queue := q })]
    coh := [message k], cur := none, l2 := [inL2 4 .e], gathers := gatheredBytes }
abbrev home := queueing []
def entry (s : State) : DirEntry := s.dirEntry 2
theorem grant_goes {s : State} {l c : Nat} : grantGoes s l c ↔ s.granted l c = true := by
  simp only [grantGoes, State.granted, State.cohMsg, State.hasMsg, List.find?_isSome]
  constructor
  · rintro ⟨x, hx, rfl, rfl, st, d, h⟩; exact ⟨x, hx, by simp [h]⟩
  · rintro ⟨x, hx, h⟩
    cases hk : x.kind <;> simp [hk] at h
    exact ⟨x, hx, h.1, h.2, _, _, hk⟩
/-- The same with the cluster's own Put, or a grant to it, on its way. -/
def withPut (s : State) : State := { s with coh := s.coh ++ [message .putM] }
def withGrant (s : State) : State := { s with coh := s.coh ++ [message (.grant .s true)] }
theorem witness_HomeEvents : inFlight (home .i 0 [] .idle .getS) 2 4 .getS (message .getS) ∧
    inFlight (home .o 1 [4, 5] .idle .getM) 2 4 .getM (message .getM) ∧ inFlight (home .x 1 [] .idle .upg) 2 4 .upg (message .upg) ∧
    (¬ waitsAtHome (home .i 0 [] .idle .getS) 2 4 ∧ ¬ waitsAtHome (home .o 1 [4, 5] .idle .getM) 2 4 ∧
      ¬ waitsAtHome (home .x 4 [] .idle .getM) 2 4) ∧
    (waitsAtHome (home .s 0 [1] (.id 3 true) .getS) 2 4 ∧ waitsAtHome (withPut (home .x 4 [] .idle .getM)) 2 4 ∧
      inFlight (withPut (home .x 4 [] .idle .getM)) 2 4 .getM (message .getM)) ∧
    ((entry (queueing [message .getS] .i 0 [] .idle .getM)).queue = message .getS :: [] ∧ ¬ waitsAtHome (queueing [message .getS] .i 0 [] .idle .getM) 2 4 ∧
      waitsAtHome (queueing [message .getS] .i 0 [] (.id 3 true) .getM) 2 4 ∧
      inFlight (queueing [message .getS] .i 0 [] .idle .getM) 2 4 .getM (message .getM) ∧ (message .getS).kind ≠ .getM) := by
  unfold inFlight waitsAtHome putGoes; decide +kernel
theorem witness_HomeEvents_answers : inFlight (home .x 4 [] .idle .putM) 2 4 .putM (message .putM) ∧
    isOwner (entry (home .x 4 [] .idle .putM)) 4 ∧ ¬ isOwner (entry (home .x 1 [] .idle .putM)) 4 ∧
    ((home .x 4 [] .idle .putM).badPackets.contains 2 = false ∧ ({ home .x 4 [] .idle .putM with badPackets := [2] } : State).badPackets.contains 2 = true ∧
      inFlight { home .x 4 [] .idle .putM with badPackets := [2] } 2 4 .putM (message .putM)) ∧
    (holdsOther (home .x 4 [] .idle .putM) 2 4 ∧ ¬ holdsOther { home .x 4 [] .idle .putM with l2 := [] } 2 4) ∧
    (entry (home .i 0 [] (.id 6 true) .getS)).busy = .id 6 true ∧
    (inFlight (home .s 0 [4, 5] (.sa 6 true [4, 5]) .invAck) 2 4 .invAck (message .invAck) ∧
      (entry (home .s 0 [4, 5] (.sa 6 true [4, 5]) .invAck)).busy = .sa 6 true [4, 5] ∧
      (entry (home .s 0 [4] (.sa 4 true [4]) .invAck)).busy = .sa 4 true [4] ∧ ¬ putGoes (home .s 0 [4] (.sa 4 true [4]) .invAck) 2 4 ∧
      inFlight (withPut (home .s 0 [4] (.sa 4 true [4]) .invAck)) 2 4 .invAck (message .invAck) ∧ putGoes (withPut (home .s 0 [4] (.sa 4 true [4]) .invAck)) 2 4) ∧
    ((home .x 4 [] (.fd 6 false 4) (.confirm true)).coh.find? (fun x => x.line == 2 && x.cluster == 4 && (x.kind == .confirm true ||
        x.kind == .confirm false)) = some (message (.confirm true)) ∧
      (entry (home .x 4 [] (.fd 6 false 4) (.confirm true))).busy = .fd 6 false 4 ∧
      (entry (home .i 0 [5] (.fd 6 false 4) (.confirm false))).state = .i) := by
  simp only [inFlight, isOwner, putGoes, holdsOther, grant_goes]; decide +kernel
/-- A core's walk of a world's tables reaches page 5. -/
def walking : State := { at0 id id with
  worlds := KMap.put base.worlds 0 { base.world 0 with s1root := 0xC000 }, cur := none
  pot := [(0, potEntry 0 1 false 0), (3, potEntry 0 1 false 0), (5, potEntry 0 1 false 0)]
  mem := Sparse.setN memDefault (Sparse.setN memDefault base.mem 0xC000 (leBytes 8 0x14003)) 0x14000 (leBytes 8 0xD) }
/-- A line no L2 holds, whose last release was narrow. -/
def idleEntry (r : Option Scope) : State := { at0 id id with dir := [(2, { DirEntry.invalid with lrs := r, lrc := 3 })], cur := none }
theorem witness_CacheEvents : inFlight (home .s 0 [4] .idle .inv) 2 4 .inv (message .inv) ∧ ¬ grantGoes (home .s 0 [4] .idle .inv) 2 4 ∧
    grantGoes (withGrant (home .s 0 [4] .idle .inv)) 2 4 ∧ ¬ grantGoes (home .x 4 [] .idle (.fwd true 6)) 2 4 ∧
    (inFlight (home .x 4 [] .idle (.fwd true 6)) 2 4 (.fwd true 6) (message (.fwd true 6)) ∧
      (∀ x ∈ (home .x 4 [] .idle (.fwd true 6)).coh, x.kind = .fwd true 6)) ∧
    (inFlight (home .x 4 [] .idle (.grant .m true)) 2 4 (.grant .m true) (message (.grant .m true)) ∧
      (∀ x ∈ (home .x 4 [] .idle (.grant .m true)).coh, x.kind = .grant .m true) ∧
      (home .x 4 [] .idle (.grant .m true)).l2.find? (fun y => y.cluster == 4 && y.world == 0 && y.line == 2) = some (inL2 4 .e) ∧
      (({ home .x 4 [] .idle (.grant .m true) with l2 := [] } : State).l2.find? fun y => y.cluster == 4 && y.world == 0 && y.line == 2) = none) ∧
    (∃ m ∈ (draining false).drains, m.world = 0 ∧ m.cluster = 3 ∧ m.acked = false) ∧
    (∃ m ∈ (draining true).drains, m.world = 0 ∧ m.cluster = 3 ∧ m.acked = true) ∧
    (((idleEntry (some .clu)).dirEntry 2).busy = .idle ∧ ((idleEntry (some .clu)).dirEntry 2).queue = [] ∧ ((idleEntry (some .clu)).dirEntry 2).state = .i ∧
      ((idleEntry (some .clu)).dirEntry 2).draining = none ∧ narrowRelease (idleEntry (some .clu)) 2 ∧ (∀ m ∈ (idleEntry (some .clu)).coh, m.line ≠ 2)) ∧
    ¬ narrowRelease (idleEntry (some .dev)) 2 ∧ ¬ narrowRelease walking 2 ∧
    (127 < 128 ∧ 0x14000 < 2 ^ 58 ∧ (walking.world 0).state = .active ∧
      (match walking.walkPage 127 0 0x14000 with | .ok e => walking.potAllows 0 e.ppage .read | .error _ => false) = true) := by
  simp only [inFlight, narrowRelease, grant_goes]; decide +kernel

/-- Copies under way: source at physical 0x100, destination in the scratchpad; and a multicast's targets. -/
def srcMap : TMap := (team (engine [slotBytes 0x100 9 1 0 0 [40] []] [])).tmap 0
def dstMap : TMap := (team (engine [slotBytes 64 9 1 1 0 [40] []] [])).tmap 0
def target (st : TgtState) (gen got : Nat) : CopyTgt :=
  { team := 1, core := 0, gen := gen, state := st, got := got, bytes := 0, writes := [(1, 3)], reg := 10 }
def copyAt (next : Nat) (tg : List CopyTgt) : Copy :=
  { multi := !tg.isEmpty, src := srcMap, dst := dstMap, box := [20, 0, 0, 0, 0], sorg := [1, 0, 0, 0, 0], dorg := [2, 0, 0, 0, 0],
    baren := true, awen := true, awsp := tg.isEmpty, bar := 15, awaddr := 0x800, awpa := 0x200, next := next, part := 0,
    flight := [], bytes := 4 * next, status := 0, smask := 0, targets := tg }
def mapLoad : State := event (.tmld 15 0x100 0x100) .l (some 3)
def copyEvent (c : Copy) : State := event (.copy c) .c (some 3)
/-- Two worlds, one with a copy allotment. -/
def billed : State := { base with
  worlds := KMap.put base.worlds 3 { World.reset with state := .active, cpybw := BitVec.ofNat 64 (2 ^ 63 + 5 * 2 ^ 38 + 7 * 2 ^ 24) }
  accounts := [(3 * 16 + 2, { bucket := 446, debt := 1, deficit := 4 })] }
/-- The copy of 20 elements, 16 moved: as it stands, with its source's page not mapped, or its line poisoned. -/
def midCopy : State := { copyEvent (copyAt 16 []) with llc := heldLines [2, 3] }
def unmappedCopy : State := { midCopy with tlb := [] }
def poisonedCopy : State := { midCopy with lines := [(2, { p := true, z := false })] }
/-- An older operation of the team writes the granules the copy writes. -/
def heldCopy (c : Copy) : State := { copyEvent c with
  ops := { plainOp (team midCopy) 0 (warp midCopy) .c (.tmld 0 0 0) with id := 4, team := 1, writes := [(1, 3)] } ::
    (copyEvent c).ops.map fun o => { o with writes := [(1, 3)] } }
def copyOp (s : State) : Op := s.ops.getLastD (opOf midCopy)
theorem witness_CopyEvents : outstanding mapLoad 9 (opOf mapLoad) (team1 mapLoad) (warp1 mapLoad) ∧ mapLoad.mayRun (opOf mapLoad) = true ∧
    (loadFault mapLoad 0 0 (0x100 / 128) = none ∧
      loadFault { mapLoad with lines := [(2, { p := true, z := false })] } 0 0 (0x100 / 128) = some .integrity) ∧
    (outstanding midCopy 9 (opOf midCopy) (team1 midCopy) (warp1 midCopy) ∧ (opOf midCopy).kind = .copy (copyAt 16 []) ∧
      midCopy.beatWaits (opOf midCopy) = true ∧ (midCopy.grantBeat 0 0).isSome = true ∧ srcMap.fmt ≠ .nq4 ∧ dstMap.scratch = true ∧
      srcMap.scratch = false ∧ midCopy.mayWrite (opOf midCopy) = true) ∧
    ((heldCopy (copyAt 16 [])).beatWaits (copyOp (heldCopy (copyAt 16 []))) = true ∧ (heldCopy (copyAt 16 [])).mayWrite (copyOp (heldCopy (copyAt 16 []))) = false ∧
      (heldCopy (copyAt 16 [])).findOp 9 = some (copyOp (heldCopy (copyAt 16 [])))) ∧
    (billed.worlds.map Prod.fst).Nodup ∧ ((copyAt 20 []).total ≤ 20 ∧ 0x200 % 8 = 0 ∧ 0x200 / 128 ≠ (0x400 + 6) / 128) := by
  unfold outstanding; decide +kernel
/-- Elements that can be read; one that parks the copy; one that stops it; and elements read and still to be written. -/
def bytesOf (u : UnitRead) : Option (List Byte) := match u with | .bytes b => some b | _ => none
theorem bytes_of {u : UnitRead} (h : (bytesOf u).isSome = true) : u = .bytes ((bytesOf u).getD []) := by
  cases u <;> simp_all [bytesOf]
def parksAs (u : UnitRead) (c : FaultCode) : Bool := match u with | .parks e _ => e == c | _ => false
def stopsAs (u : UnitRead) (c : FaultCode) : Bool := match u with | .stops e _ => e == c | _ => false
theorem witness_CopyEvents_reads : ∃ bs : Nat → List Byte, ∀ e ∈ beatElems (copyAt 16 []),
    (midCopy.readUnit (opOf midCopy) (copyAt 16 []) e).1 = .bytes (bs e) := by
  refine ⟨fun e => (bytesOf (midCopy.readUnit (opOf midCopy) (copyAt 16 []) e).1).getD [], fun e he => bytes_of ?_⟩
  have h : ∀ e ∈ beatElems (copyAt 16 []), (bytesOf (midCopy.readUnit (opOf midCopy) (copyAt 16 []) e).1).isSome = true := by decide +kernel
  exact h e he
theorem witness_CopyEvents_faults :
    parksAs (unmappedCopy.readUnit (opOf unmappedCopy) (copyAt 16 []) 16).1 .page = true ∧ (unmappedCopy.grantBeat 0 0).isSome = true ∧
    stopsAs (poisonedCopy.readUnit (opOf poisonedCopy) (copyAt 16 []) 16).1 .integrity = true ∧ (poisonedCopy.grantBeat 0 0).isSome = true ∧
    (copyAt 16 []).flight = [] ∧ 0 < 128 := by decide +kernel
/-- A fault met while elements are in flight. -/
def flying : Copy := { copyAt 16 [] with flight := [(15, [5, 6, 7, 8])] }
theorem witness_CopyEvents_held : beatReady { heldCopy flying with tlb := [] } (copyOp { heldCopy flying with tlb := [] }) flying ∧
    parksAs (State.readUnit { heldCopy flying with tlb := [] } (copyOp { heldCopy flying with tlb := [] }) flying 16).1 .page = true ∧
    beatReady unmappedCopy (opOf unmappedCopy) (copyAt 16 []) := by
  unfold beatReady; decide +kernel
theorem witness_CopyEvents_landing : ({ copyAt 16 [] with flight := [(14, [1, 2, 3, 4]), (15, [5, 6, 7, 8])] } : Copy).flight ≠ [] ∧
    (copyEvent { copyAt 16 [] with flight := [(14, [1, 2, 3, 4]), (15, [5, 6, 7, 8])] }).mayWrite
      (opOf (copyEvent { copyAt 16 [] with flight := [(14, [1, 2, 3, 4]), (15, [5, 6, 7, 8])] })) = true := by decide +kernel
def targets17 : List CopyTgt := [target .done 0 17, target .registered 0 16]
def sending : State := copyEvent (copyAt 17 targets17)
theorem witness_CopyEvents_targets : takes (target .registered 0 16) ∧ takes (target .waiting 7 0) ∧ 16 < 17 ∧
    (copyAt 17 targets17).multi = true ∧ sending.targetHere (opOf sending) (target .registered 0 16) = true ∧
    sending.targetHere (opOf sending) (target .waiting 7 0) = false ∧ sending.findTeam 1 = some (team1 sending) ∧
    sending.mustWait 1 10 [] [(1, 3)] = false ∧
    min 17 (16 + 64 / srcMap.esize) < (copyAt 17 []).total ∧ ¬ takes (target .done 0 17) ∧ ¬ takes (target .dropped 0 3) ∧
    (opOf sending).parked = none ∧ (opOf sending).paused = false := by
  unfold takes; decide +kernel

/-- What an engine's instruction leaves at issue. -/
noncomputable def issued (i : Instr) (s : State) : State :=
  { (match exec i s with
     | .next s' => s'
     | _ => s) with
    cur := none }
noncomputable def tensorIn (s : State) : Tensor :=
  match (opOf s).kind with
  | .tensor x => x
  | _ => rowTensor
/-- Tiles cleared in their turn, tiles loaded, and a product. -/
noncomputable def clearing : State := { issued (.accZero 2) (zeroing 0x80009 true) with ops := (issued (.accZero 2) (zeroing 0x80009 true)).ops.drop 1 }
noncomputable def tileLoad : State := issued (.accLd 3 2) loading
noncomputable def product : State := issued (.mma 3 2) (owned mulB (some 1))
/-- Tiles loaded from global memory, whose line is clean, or poisoned. -/
noncomputable def globalTiles (p : Bool) : State :=
  { issued (.accLd 3 2) (engine [slotBytes 0x800 9 2 0 0 [16, 8] [64]] ldBlock) with
    lines := if p then (List.range 16).map fun i => (16 + i, ({ p := true, z := false } : LineMeta)) else [] }
/-- What an operation reads, with the data fault met. -/
noncomputable def opRead (s : State) (o : Op) (x : Tensor) : Option (Nat × DataFault) × State :=
  (s.noteSpans o x.pages (logAgent 2 o.core) logRead x.readSpans).readSpans o x.pages x.readSpans
noncomputable def opData (s : State) (o : Op) (x : Tensor) : Option (Nat × DataFault) :=
  if (opRead s o x).1 = none ∧ (x.layer.map LayerHold.linkFault).getD false = true then some (0, .integrity) else (opRead s o x).1
theorem reads_operands (s : State) (o : Op) (x : Tensor) : operandsRead s o x (opData s o x) (opRead s o x).2 := ⟨_, rfl, rfl⟩
noncomputable def globalStore (lost : List Nat) : State :=
  { issued (.accSt 3 2) (seeded (engine [slotBytes 0 0 2 1 0 [64, 8] [64], slotBytes 0x800 9 2 0 0 [16, 8] [64], slotBytes 8192 9 1 1 0 [64] []] stBlock)) with
    badPackets := lost }
noncomputable def storeEffect (lost : List Nat) : Effect :=
  tensorEffect (globalStore lost) (opOf (globalStore lost)) (team1 (globalStore lost)) (tensorIn (globalStore lost)) none
/-- A rotation whose destination an older operation still reads, and one that has its result. -/
noncomputable def rotation : State := issued (.rot 3 2) rotating
noncomputable def waitingRotation : State := { rotation with
  ops := { plainOp (team1 rotation) 0 (warp1 rotation) .t (.tmld 0 0 0) with id := 0, reads := [(0, 4096)] } :: rotation.ops }
noncomputable def lastOp (s : State) : Op := s.ops.getLastD (opOf rotation)
noncomputable def computed : Tensor :=
  { tensorIn rotation with result := some { effect := {}, open' := false, status := 4, fault := some (.matrixCheck, 0) } }
theorem witness_EngineEvents : (outstanding clearing (opOf clearing).id (opOf clearing) (team1 clearing) (warp1 clearing) ∧
      (opOf clearing).kind = .tensor (tensorIn clearing) ∧ (tensorIn clearing).kind = .zero ∧ (tensorIn clearing).result = none ∧
      clearing.tensorReady (opOf clearing) (tensorIn clearing) = true) ∧
    (outstanding tileLoad (opOf tileLoad).id (opOf tileLoad) (team1 tileLoad) (warp1 tileLoad) ∧
      (opOf tileLoad).kind = .tensor (tensorIn tileLoad) ∧ (tensorIn tileLoad).kind ≠ .zero ∧
      tileLoad.tensorReady (opOf tileLoad) (tensorIn tileLoad) = true ∧ tileLoad.mayWrite (opOf tileLoad) = true ∧
      opData tileLoad (opOf tileLoad) (tensorIn tileLoad) = none) := by
  unfold outstanding; decide +kernel
theorem witness_EngineEvents_faults : (globalTiles true).tensorReady (opOf (globalTiles true)) (tensorIn (globalTiles true)) = true ∧
    (globalTiles true).mayWrite (opOf (globalTiles true)) = true ∧
    (opData (globalTiles true) (opOf (globalTiles true)) (tensorIn (globalTiles true))).map
      Prod.snd = some .integrity ∧
    opData (globalTiles false) (opOf (globalTiles false)) (tensorIn (globalTiles false)) = none := by
  decide +kernel
/-- Tiles stored to global memory, no packet of which fails, or one. -/
theorem witness_EngineEvents_results : writesGo (globalStore []) (tensorIn (globalStore [])) (storeEffect []) ∧
    ¬ writesGo (globalStore [16]) (tensorIn (globalStore [16])) (storeEffect [16]) ∧
    (∀ p ∈ (storeEffect []).mem, p.2.2.length ≤ 16384) ∧ (∃ p ∈ (storeEffect []).mem, p.1 = false) := by
  unfold writesGo; decide +kernel
theorem witness_EngineEvents_waits : (lastOp waitingRotation).kind = .tensor (tensorIn rotation) ∧ (tensorIn rotation).kind ≠ .zero ∧
    waitingRotation.tensorReady (lastOp waitingRotation) (tensorIn rotation) = true ∧ waitingRotation.mayWrite (lastOp waitingRotation) = false ∧
    rotation.mayWrite (opOf rotation) = true ∧ computed.result.isSome = true ∧ computed.kind ≠ .zero := by decide +kernel
theorem witness_MatrixProduct : (opOf product).kind = .tensor (tensorIn product) ∧ (tensorIn product).multiplies = true ∧
    product.tensorReady (opOf product) (tensorIn product) = true ∧ product.mayWrite (opOf product) = true ∧ 0 < (tensorIn product).chunks ∧
    opData product (opOf product) (tensorIn product) = none ∧
    mmaType (tensorIn product) = 1 ∧ mmaFlag (tensorIn product) 1 = false := by decide +kernel
noncomputable def evaluating : State := issued (.layerT 3 2) (layering trainBlock true 0x1000)
theorem witness_TileEvaluation : (opOf evaluating).kind = .tensor (tensorIn evaluating) ∧ evaluating.mayRead (opOf evaluating) = true ∧
    (match (tensorIn evaluating).layer with
      | some h => decide (1 < layerM (tensorIn evaluating) ∧ 0 < tileRows h.k * tileCols h.n ∧ 1 * 65536 + 0 ∉ h.evaluated)
      | none => false) = true := by decide +kernel
/-- A layer operation one of whose packets on a link with an AD has failed. -/
noncomputable def unlinked : Tensor :=
  { tensorIn evaluating with layer := (tensorIn evaluating).layer.map fun h => { h with linkFault := true } }
theorem witness_EngineEvents_link : unlinked.dataFault none = some (0, .integrity) ∧
    (tensorIn evaluating).dataFault none = none := by decide +kernel
/-- A stack copy whose stack reads without a fault, or meets a poisoned line. -/
noncomputable def popping (p : Bool) : State :=
  { issued (.apop 3 4 5) stacking with lines := if p then (List.range 16).map fun i => (16 + i, ({ p := true, z := false } : LineMeta)) else [] }
noncomputable def poppedFault (p : Bool) : Option DataFault :=
  match (opOf (popping p)).kind with
  | .stackCopy c => (spansFault (popping p) (opOf (popping p)) c.pages [(c.stack, c.bytes)]).map Prod.snd
  | _ => some .uncorr
theorem witness_StackCopy : outstanding (popping false) (opOf (popping false)).id (opOf (popping false)) (team1 (popping false)) (warp1 (popping false)) ∧
    (popping false).mayRun (opOf (popping false)) = true ∧
    (match (opOf (popping false)).kind with
      | .stackCopy c => decide (c.next = 0 ∧ c.bytes % 64 = 0 ∧ c.push = false ∧ c.map.scratch = true)
      | _ => false) = true ∧
    poppedFault false = none ∧ poppedFault true = some .integrity := by
  unfold outstanding; decide +kernel

/-- Pops and pushes move whole pieces; a push into a page that is mapped. -/
noncomputable def pushing : State := issued (.apush 3 4 5) stacking
noncomputable def stackOf (s : State) : StackCopy :=
  match (opOf s).kind with
  | .stackCopy c => c
  | _ => { push := true, map := (team stacking).tmap 0, bytes := 0, stack := 0, next := 0, pages := [] }
theorem push_bytes : (stackOf pushing).bytes = 256 ∧ (stackOf pushing).push = true ∧ (stackOf pushing).stack = 0x900 ∧
    pushing.badPackets = [] ∧ srcLocal (stackOf pushing) := by
  unfold srcLocal; decide +kernel
theorem witness_StackCopy_plain : stackPlain pushing (stackOf pushing) := by
  obtain ⟨hb, hp, hs, hl, hc⟩ := push_bytes
  have hd : ∀ i, stackDst (stackOf pushing) i = 0x900 + i := fun i => by rw [stackDst, hp, hs]; rfl
  unfold stackPlain
  refine ⟨by decide +kernel, by rw [hb], by decide +kernel, by decide +kernel, by rw [hd], by decide +kernel, fun _ =>
    ⟨fun i _ => by rw [hl]; rfl, fun i hi k hk h => ?_, fun h => absurd hc h⟩⟩
  rw [hb] at hi hk
  rw [hd, hd, heldPa, heldPa, show (0x900 + i) / 16384 = 0 by omega, show (0x900 + k) / 16384 = 0 by omega] at h
  omega
theorem witness_StackCopy_plain_pop : stackPlain (popping false) (stackOf (popping false)) := by
  unfold stackPlain
  exact ⟨by decide +kernel, by decide +kernel, by decide +kernel, by decide +kernel, by decide +kernel, by decide +kernel,
    fun h => absurd (show dstLocal _ by unfold dstLocal; decide +kernel) h⟩
theorem witness_StackCopy_moves : (opOf pushing).kind = .stackCopy (stackOf pushing) ∧ srcLocal (stackOf pushing) ∧
    pushing.mayRun (opOf pushing) = true ∧
    (opOf (popping false)).kind = .stackCopy (stackOf (popping false)) ∧ dstLocal (stackOf (popping false)) ∧ ¬ srcLocal (stackOf (popping false)) ∧
    ((popping true).readSpans (opOf (popping true)) (stackOf (popping true)).pages
      [(stackSrc (stackOf (popping true)) 0, (stackOf (popping true)).bytes)]).1.map Prod.snd = some .integrity := by
  unfold srcLocal dstLocal; decide +kernel

/-- Near-bank work: a program read, a mark, a command to start, the last row of a block, and a block at its end. -/
def programLoad : State := event (.pimld 0x800 2 [0x800, 0x804]) .c (some 3)
def marking (b : List Nat) : State := event (.mark b) .c (some 3)
def fillCommand (f : Bool) : PimCmd := { fill := f, nrows := 1, pat := 7, gpa := 0x100000 }
def pimWork (f : Bool) (pages : Option (List Nat)) (pend : List (Nat × Nat)) (cmd : Nat) : PimBlock :=
  { cmds := [fillCommand f], prog := some { valid := true, words := [0] }, baren := true, bar := 15, cmd := cmd, pages := pages, row := pend.length,
    pend := pend, faults := [], acc := [1, 2, 3, 4], bpAcc := [(bankOf 64, [5, 6, 7, 8])], stopped := false, status := 0 }
def pimEvent (b : PimBlock) : State := { event (.pimx b) .c (some 3) with pot := [(0, potEntry 0 1 false 0), (64, potEntry 0 1 true 0)] }
theorem witness_NearBankEvents : outstanding programLoad 9 (opOf programLoad) (team1 programLoad) (warp1 programLoad) ∧
    programLoad.markBlocked (opOf programLoad) = false ∧ (∀ x ∈ programLoad.ops, ¬ x.id < 9) ∧
    (programFault programLoad (opOf programLoad) 0x800 [0x800, 0x804] = none ∧ offending (programRead programLoad (opOf programLoad) [0x800, 0x804]) = none ∧
      offending (programRead { programLoad with mem := Sparse.setN memDefault programLoad.mem 0x804 (leBytes 4 0xF0000000) } (opOf programLoad) [0x800, 0x804]) = some 1 ∧
      programFault { programLoad with lines := [(16, { p := true, z := false })] } (opOf programLoad) 0x800 [0x800, 0x804] = some (0, .integrity)) ∧
    (∀ x ∈ (marking [8]).ops, x.id ∉ [8]) ∧
    (∃ x ∈ (marking [9]).ops, x.id ∈ [9]) ∧
    (outstanding (pimEvent (pimWork true none [] 0)) 9 (opOf (pimEvent (pimWork true none [] 0))) (team1 (pimEvent (pimWork true none [] 0)))
      (warp1 (pimEvent (pimWork true none [] 0))) ∧ (pimEvent (pimWork true none [] 0)).markBlocked (opOf (pimEvent (pimWork true none [] 0))) = false ∧
      (fillCommand true).npages = 1 ∧ (fillCommand true).pageGpa 0 = 0x100000) ∧
    (∃ l, (pimEvent (pimWork true none [] 0)).stage2 0 0x100000 = some l ∧ l.page = 64 ∧ l.w = true) ∧
    ((64 < usablePages ∧ (pimEvent (pimWork true none [] 0)).potWorld 64 = 0) ∧ (pimEvent (pimWork true none [] 0)).potState 64 = 1 ∧
      (pimEvent (pimWork true none [] 0)).potPim 64 = true) ∧
    fine (({ pimEvent (pimWork true none [] 0) with pot := [] } : State).pimPages 0 (fillCommand true) 1) = false := by
  unfold outstanding
  exact ⟨by decide +kernel, by decide +kernel, by decide +kernel, by decide +kernel, by decide +kernel, by decide +kernel, by decide +kernel,
    ⟨_, rfl, by decide +kernel, by decide +kernel⟩, by decide +kernel, by decide +kernel⟩
/-- A program that writes 1 into the first element of each field of a row and then checks its residue. -/
def checking : List Word := [0x00000001, 0x0800FFFF, 0x34000000, 0x20000000, 0xA2000000]
/-- The same, and a LOOP of two runs of one micro-operation. -/
theorem witness_MicroOperations : offending checking = none ∧ (∀ w ∈ checking, plainWord w) ∧
    (uopOk 0x50403000 = true ∧ ubits 0x50403000 31 28 = 5 ∧ ubits 0x50403000 21 18 + 1 = 1 ∧ ubits 0x50403000 27 22 + 1 = 2) ∧
    plainWord 0x20000000 := by
  have h : checking.all (fun w => uopOk w && ubits w 31 28 != 5) = true := by decide +kernel
  exact ⟨by decide +kernel, fun w hw => by simpa [plainWord] using List.all_eq_true.1 h w hw, by decide +kernel,
    by unfold plainWord; decide +kernel⟩
theorem witness_NearBankEvents_rows : lastRow (opOf (pimEvent (pimWork true (some [64]) [(5, 0)] 0)))
      (pimWork true (some [64]) [(5, 0)] 0) (fillCommand true) (5, 0) [64] ∧
    lastRow (opOf (pimEvent (pimWork false (some [64]) [(5, 0)] 0)))
      (pimWork false (some [64]) [(5, 0)] 0) (fillCommand false) (5, 0) [64] ∧
    (runRow [0] [5, 6, 7, 8] ((pimEvent (pimWork false (some [64]) [(5, 0)] 0)).readRow ((pimWork false (some [64]) [(5, 0)] 0).rowPa (fillCommand false) 0))).stop = none ∧
    (runRow checking [5, 6, 7, 8] ((pimEvent (pimWork false (some [64]) [(5, 0)] 0)).readRow ((pimWork false (some [64]) [(5, 0)] 0).rowPa (fillCommand false) 0))).stop = some (0, 0) ∧
    ((pimWork true none [] 1).cmds.length ≤ 1 ∧ (opOf (pimEvent (pimWork true none [] 1))).blkpa % 64 = 0) ∧
    (2047 < 2048 ∧ (pimEvent (pimWork true (some [64]) [(5, 0)] 0)).bankQueue (bankOf 64) ≠ [] ∧ (pimEvent (pimWork true (some [64]) [(5, 0)] 0)).bankQueue 2047 = []) ∧
    KMap.find ({ pimEvent (pimWork true none [] 1) with banks := [(64, { queued := 3, yielding := true })] } : State).banks 64 = some { queued := 3, yielding := true } := by
  unfold lastRow; decide +kernel

/-! ### Warps, dispatch and pre-emption -/

def stands (st : WStatus) (f : Warp → Warp) : State :=
  { at0 (fun w => f { w with status := st, live := 0x80000021#32, active := 0x80000021#32, preds := [(1, 0x80000021#32), (2, 1#32)], vregs := [(64, 0x100#32), (69, 0x200#32), (95, 0x300#32), (4095, 1#32)] }) id with
    cur := none }
def theTeam (s : State) : Team := ((s.findWarp 1 0).map Prod.fst).getD (placedTeam baseHeader)
def theWarp (s : State) : Warp := ((s.findWarp 1 0).map Prod.snd).getD Warp.zero
/-- A warp blocked at a shared `waitge` whose doublewords have reached their thresholds, or lane 31's has not. -/
def rereading (d : Nat) : State := stands (.waitge d 2 true) id
def returns (n k : Nat) : State := stands .running fun w => { w with rstack := List.replicate n 0x40#64, rspill := k }
theorem witness_WarpEvents : resident (stands .sleeping id) 1 0 (theTeam (stands .sleeping id)) (theWarp (stands .sleeping id)) ∧
    (theWarp (stands .sleeping id)).status = .sleeping ∧ (theWarp (stands .waitmon id)).status = .waitmon ∧
    (resident (rereading 124) 1 0 (theTeam (rereading 124)) (theWarp (rereading 124)) ∧ hasPair (theTeam (rereading 124)) 124 ∧
      has (theTeam (rereading 124)) 2 ∧ (theWarp (rereading 124)).poisoned [124, 125, 2] (theWarp (rereading 124)).active = none ∧
      inScratch (theTeam (rereading 124)) (theWarp (rereading 124)) 8 (scratchAt (theWarp (rereading 124)) 2 0) ∧
      ∀ l < 32, (theWarp (rereading 124)).active.getLsbD l = true →
        ((theWarp (rereading 124)).vget64 124 l).toNat ≤ leVal ((theTeam (rereading 124)).scratchRead (scratchAt (theWarp (rereading 124)) 2 0 l).toNat 8)) ∧
    leVal ((theTeam (rereading 126)).scratchRead (scratchAt (theWarp (rereading 126)) 2 0 31).toNat 8) < ((theWarp (rereading 126)).vget64 126 31).toNat ∧
    min 7 8 ≤ (theWarp (returns 8 55)).rstack.length ∧
    ((theWarp (returns 0 1)).rstack.length + 1 = min 1 8 ∧ 0 < (theWarp (returns 0 1)).rspill) := by
  unfold resident hasPair has inScratch; decide +kernel
/-- The entry's page is mapped, or not. -/
theorem witness_ReturnStackFill :
    fine ((returns 0 1).readVirt (theTeam (returns 0 1)).core (theTeam (returns 0 1)).world (some (logAgent 0 0)) (spillSlot (theTeam (returns 0 1)) 0 0) 8).1 = true ∧
    fine (({ returns 0 1 with tlb := [placedTlb] } : State).readVirt 0 0 (some (logAgent 0 0)) (spillSlot (theTeam (returns 0 1)) 0 0) 8).1 = false ∧
    (theWarp (returns 0 1)).rstack.length < min 1 8 := by decide +kernel
/-- A warp blocked at `waitge` of global doublewords that reach its thresholds, or not; a mark of its team outstanding. -/
def rereadingGlobal (d : Nat) : State := stands (.waitge d 2 false) id
def rereadingMarked : State := { rereadingGlobal 124 with ops := heldGranule.ops }
abbrev again (d : Nat) : State := rereads (rereadingGlobal d) 1 0 (theWarp (rereadingGlobal d))
theorem witness_WarpEvents_global : resident (rereadingGlobal 124) 1 0 (theTeam (rereadingGlobal 124)) (theWarp (rereadingGlobal 124)) ∧
    (theWarp (rereadingGlobal 124)).status = .waitge 124 2 false ∧ hasPair (theTeam (rereadingGlobal 124)) 124 ∧ hasPair (theTeam (rereadingGlobal 124)) 2 ∧
    (theWarp (rereadingGlobal 124)).poisoned [124, 125, 2, 3] (theWarp (rereadingGlobal 124)).active = none ∧
    noMarks (rereadingGlobal 124) (theTeam (rereadingGlobal 124)) ∧ ¬ noMarks rereadingMarked (theTeam rereadingMarked) ∧
    ∀ d, d = 124 ∨ d = 126 → reachable (again d) (theTeam (rereadingGlobal d)) (theWarp (rereadingGlobal d)) .read 8
      (globalAt (theWarp (rereadingGlobal d)) 2 0) (globalAt (theWarp (rereadingGlobal d)) 2 0) := by
  refine ⟨by unfold resident; decide +kernel, rfl, by unfold hasPair; decide +kernel, by unfold hasPair; decide +kernel, by decide +kernel,
    no_marks rfl, fun h => h _ List.mem_cons_self rfl _ rfl, fun d hd l hl ha => ?_⟩
  have h : l = 0 ∨ l = 5 ∨ l = 31 := by
    have : ∀ l < 32, (0x80000021#32).getLsbD l = true → l = 0 ∨ l = 5 ∨ l = 31 := by decide +kernel
    exact this l hl ha
  rcases hd with rfl | rfl <;> rcases h with rfl | rfl | rfl <;> exact ⟨by decide +kernel, rfl⟩
theorem witness_WarpEvents_reached : (∀ l < 32, (theWarp (rereadingGlobal 124)).active.getLsbD l = true →
      ((theWarp (rereadingGlobal 124)).vget64 124 l).toNat ≤ leVal (((again 124).readWaited 0 0 (linesRead (theWarp (rereadingGlobal 124))
        (globalAt (theWarp (rereadingGlobal 124)) 2 0) (globalAt (theWarp (rereadingGlobal 124)) 2 0))).clusterRead 0 0 (globalAt (theWarp (rereadingGlobal 124)) 2 0 l) 8)) ∧
    leVal (((again 126).readWaited 0 0 (linesRead (theWarp (rereadingGlobal 126)) (globalAt (theWarp (rereadingGlobal 126)) 2 0)
      (globalAt (theWarp (rereadingGlobal 126)) 2 0))).clusterRead 0 0 (globalAt (theWarp (rereadingGlobal 126)) 2 0 31) 8) < ((theWarp (rereadingGlobal 126)).vget64 126 31).toNat := by
  decide +kernel
/-- A lone warp at a regrouping branch: all its lanes on one side, or some on each. -/
def regrouping (p : Nat) : State := stands (.regroup p 0x40 12) id
theorem witness_WarpEvents_regroup : resident (regrouping 1) 1 0 (theTeam (regrouping 1)) (theWarp (regrouping 1)) ∧
    (theTeam (regrouping 1)).warps = [theWarp (regrouping 1)] ∧ (theWarp (regrouping 1)).status = .regroup 1 0x40 12 ∧
    (theWarp (regrouping 1)).active ≠ 0 ∧ (theWarp (regrouping 1)).active &&& ~~~((theWarp (regrouping 1)).pget 1) = 0 ∧
    (theWarp (regrouping 0)).active &&& (theWarp (regrouping 0)).pget 0 = 0 ∧
    (0x40#64 ≠ 12#64 ∧ (theWarp (regrouping 2)).park = none ∧ (theWarp (regrouping 2)).stack = [] ∧
      (theWarp (regrouping 2)).live = (theWarp (regrouping 2)).active ∧
      (theWarp (regrouping 2)).active &&& ~~~((theWarp (regrouping 2)).pget 2) ≠ 0 ∧
      (theWarp (regrouping 2)).active &&& (theWarp (regrouping 2)).pget 2 ≠ 0 ∧
      (theWarp (regrouping 2)).clause = some baseHeader ∧ 12#64 = after (theWarp (regrouping 2)) baseHeader) := by
  unfold resident; decide +kernel
theorem quiet_warp {w : Warp} (h : w.cntL = 0 ∧ w.cntS = 0 ∧ w.cntC = 0 ∧ w.cntT = 0 ∧ w.tokens = []) : quiet w := by
  obtain ⟨h1, h2, h3, h4, h5⟩ := h
  refine ⟨fun c => by cases c <;> assumption, fun k _ => ?_⟩
  simp [Warp.token, h5, Sparse.get, KMap.find]
theorem witness_quiet : quiet (theWarp (regrouping 1)) := quiet_warp (by decide +kernel)

/-- Every warp of the team stands at the branch of address `a`, drained, or does not run. -/
def waitsHere (t : Team) (a : DWord) (j : Nat) : Bool :=
  match t.warps[j]? with
  | some w => (match w.status with
    | .regroup _ _ _ => w.wordAddr == a
    | _ => false)
  | none => false
theorem waits_here {t : Team} {a : DWord} {j : Nat} : waitsAt t a j ↔ waitsHere t a j = true := by
  constructor
  · rintro ⟨w, p, x, y, hw, hs, ha⟩; simp [waitsHere, hw, hs, ha]
  · intro h
    unfold waitsHere at h
    cases hw : t.warps[j]? with
    | none => simp [hw] at h
    | some w => cases hs : w.status <;> simp [hw, hs] at h; exact ⟨w, _, _, _, hw ▸ rfl, hs, h⟩
def slotLt (t : Team) (i j : Nat) : Bool :=
  match t.warps[i]?, t.warps[j]? with
  | some w, some x => decide (w.slot < x.slot)
  | _, _ => true
abbrev inOrder (t : Team) (l : List Nat) : Prop := l.Pairwise fun i j => slotLt t i j = true
theorem slot_order {t : Team} {q : Nat → Prop} {n : Nat} (hn : t.warps.length = n) (l : List Nat) (h1 : ∀ j ∈ l, j < n ∧ q j)
    (h2 : ∀ j < n, q j → j ∈ l) (h3 : inOrder t l) : inSlotOrder t q l :=
  ⟨fun j => ⟨fun h => hn ▸ h1 j h, fun h => h2 j (hn ▸ h.1) h.2⟩, h3.imp fun h w x hw hx => by simpa [slotLt, hw, hx] using h⟩
def standsStill (a : DWord) (w : Warp) : Bool :=
  match w.status with
  | .running => false
  | .regroup _ _ _ => w.wordAddr == a && decide (w.cntL = 0 ∧ w.cntS = 0 ∧ w.cntC = 0 ∧ w.cntT = 0 ∧ w.tokens = [])
  | _ => true
theorem stands_still {a : DWord} {w : Warp} (h : standsStill a w = true) :
    w.status ≠ .running ∧ ∀ p tgt ft, w.status = .regroup p tgt ft → w.wordAddr = a ∧ quiet w := by
  unfold standsStill at h
  cases hs : w.status <;> simp [hs] at h ⊢
  exact ⟨h.1, quiet_warp h.2⟩
/-- Two warps at one branch, their threads bound crosswise to its target and to the word after it; and one warp alone. -/
def crossing : Team :=
  let w := theWarp (regrouping 2)
  { theTeam (regrouping 2) with warps := [w, { w with slot := 4, preds := [(2, 0x80000020#32)] }] }
def crossed : State := (regrouping 2).updTeam 1 fun _ => crossing
def dests : List DWord := [12, 0x40]
def boundIn (t : Team) (ds : List DWord) (j l : Nat) : Bool :=
  match bound t j l with
  | none => true
  | some d => ds.contains d
theorem meets_at {t : Team} {a : DWord} {ps : List Nat} {ds : List DWord} {free : List Nat} {n : Nat} (hn : t.warps.length = n) (h0 : ps ≠ [])
    (h1 : (∀ j ∈ ps, j < n ∧ waitsHere t a j = true) ∧ (∀ j < n, waitsHere t a j = true → j ∈ ps) ∧ inOrder t ps)
    (h2 : ∀ w ∈ t.warps, w.stack = [] ∧ w.park = none ∧ w.intrap = false)
    (h3 : ∀ w ∈ t.warps, standsStill a w = true) (h4 : (ds.all fun d => ps.any fun j => (List.range 32).any fun l => bound t j l == some d) = true)
    (h5 : (ps.all fun j => (List.range 32).all fun l => boundIn t ds j l) = true) (h6 : ds.Pairwise fun d e => d.toNat < e.toNat)
    (h7 : free = ps ∧ ∀ j < n, j ∈ ps) : oneRendezvous t a ps ds free := by
  obtain ⟨rfl, h7⟩ := h7
  simp only [List.all_eq_true, List.any_eq_true, List.mem_range, beq_iff_eq] at h4 h5
  exact ⟨h0, slot_order hn _ (fun j hj => ⟨(h1.1 j hj).1, waits_here.2 (h1.1 j hj).2⟩) (fun j hj h => h1.2.1 j hj (waits_here.1 h)) h1.2.2,
    fun _ _ w hw => h2 w (List.mem_of_getElem? hw), fun w hw => stands_still (h3 w hw), fun d => ⟨fun h => h4 d h, fun ⟨j, hj, l, hl, h⟩ => by
      have h' := h5 j hj l hl
      simpa [boundIn, h] using h'⟩, h6,
    slot_order hn _ (fun j hj => ⟨(h1.1 j hj).1, .inl hj⟩) (fun j hj _ => h7 j hj) h1.2.2⟩
theorem witness_WarpEvents_rendezvous : oneRendezvous crossing (theWarp (regrouping 2)).wordAddr [0, 1] dests [0, 1] ∧
    crossed.findTeam 1 = some crossing ∧ (rowsOf crossing [0, 1] dests).length = 2 ∧ crossing.place = .resident ∧
    oneRendezvous (theTeam (regrouping 2)) (theWarp (regrouping 2)).wordAddr [0] dests [0] ∧
    (rowsOf (theTeam (regrouping 2)) [0] dests).length = 2 := by
  exact ⟨meets_at (n := 2) rfl (by simp) (by decide +kernel) (by decide +kernel) (by decide +kernel) (by decide +kernel)
      (by decide +kernel) (by decide) (by decide +kernel), by decide +kernel, by decide +kernel, by decide +kernel,
    meets_at (n := 1) rfl (by simp) (by decide +kernel) (by decide +kernel) (by decide +kernel) (by decide +kernel)
      (by decide +kernel) (by decide) (by decide +kernel), by decide +kernel⟩

/-- A queue's descriptor at 0x2000 and its one record at 0x2100, of a launch of 33 threads. -/
def record (cword : Nat) : List Byte :=
  padded 128 (leBytes 8 0x40 ++ leBytes 4 1 ++ leBytes 2 1 ++ leBytes 2 1 ++ leBytes 2 33 ++ leBytes 1 1 ++ leBytes 1 1 ++
    leBytes 1 16 ++ leBytes 1 2 ++ leBytes 2 0 ++ leBytes 4 128 ++ leBytes 4 0 ++ leBytes 8 0x7000 ++ leBytes 8 cword ++ leBytes 8 5)
def descriptor (tail : Nat) : List Byte := leBytes 8 0x2100 ++ leBytes 1 4 ++ leBytes 7 0 ++ leBytes 8 16 ++ leBytes 8 tail
def launching (qtable : Nat) : State :=
  let s := at0 id id
  { s.setWorld 0 { s.world 0 with qtable := qtable, s1root := 0xC000 } with
    mem := Sparse.setN memDefault (Sparse.setN memDefault walking.mem 0x2000 (descriptor 32)) 0x2100 (record 0)
    pot := walking.pot, tlb := [{ placedTlb with unit := hubCore }], teams := [], cur := none, llc := heldLines [64, 66] }
/-- The pages may only be read; the packets of the descriptor's line, or of the record's, fail. -/
def readOnlyQueue : State := { launching 0x2000 with mem := Sparse.setN memDefault (launching 0x2000).mem 0x8000 (leBytes 8 5) }
def lostRead (line : Nat) : State := { launching 0x2000 with badPackets := [line] }
theorem witness_DispatchEvents_stops : fine (readOnlyQueue.gpaWrite 0 0x2010 (leBytes 8 17)) = false ∧
    reads (readOnlyQueue.gpaRead 0 0x2000 32) (descriptor 32) = true ∧ reads (readOnlyQueue.hubRead 0 0x2100 128) (record 0) = true ∧
    fine ((lostRead 64).gpaRead 0 0x2000 32) = false ∧ reads ((lostRead 66).gpaRead 0 0x2000 32) (descriptor 32) = true ∧
    fine ((lostRead 66).hubRead 0 0x2100 128) = false := by decide +kernel
theorem witness_DispatchEvents : queueOpen (launching 0x2000) 0 0 ∧ queueReady (descriptor 32) ∧ recordAt (descriptor 32) = 0x2100 ∧
    reads ((launching 0x2000).gpaRead 0 0x2000 32) (descriptor 32) = true ∧
    reads ((launching 0x2000).hubRead 0 0x2100 128) (record 0) = true ∧
    fine ((launching 0x2000).gpaWrite 0 0x2010 (leBytes 8 17)) = true ∧
    (recordOk (record 0) (launchOf 1 0 0 16 (record 0)) = true ∧ inBlock (record 0) 24 4 ≤ ((launching 0x2000).world 0).quota) ∧
    fine ((launching (2 ^ 51 + 2 ^ 50)).gpaRead 0 (2 ^ 51 + 2 ^ 50) 32) = false := by unfold queueOpen queueReady; decide +kernel
/-- The launch taken: waiting, ready, or with its one team dispatched. -/
def launch1 (st : LaunchState) : Launch := { launchOf 7 0 0 16 (record 0) with state := st }
def dispatching (st : LaunchState) (pool : Nat) : State :=
  let s := { launching 0 with launches := [launch1 st], teams := [], ops := [] }
  { s.setWorld 0 { s.world 0 with ctxLen := pool } with nextUid := 8 }
theorem witness_DispatchEvents_launch : (dispatching .waiting 0x1000000).findLaunch 7 = some (launch1 .waiting) ∧
    ((launch1 .waiting).ndep = 0 ∧ (launch1 .waiting).met = [] ∧ (launch1 .waiting).cword = 0) ∧
    (({ launch1 .waiting with cword := 0x2200 } : Launch).cword ≠ 0 ∧ 0x2200 % 8 = 0 ∧
      (dispatching .waiting 0x4000).noFit { launch1 .waiting with cword := 0x2200 } = true ∧
      fine (((dispatching .waiting 0x4000).drainAll 0).hubWrite 0 0x2200 (leBytes 8 (2 ^ 63 + 2))) = true) ∧
    (dispatching .waiting 0x1000000).noFit (launch1 .waiting) = false ∧ (dispatching .waiting 0x4000).noFit (launch1 .waiting) = true ∧
    ((dispatching .ready 0x1000000).worlds = [(0, (dispatching .ready 0x1000000).world 0)] ∧ (dispatching .ready 0x1000000).expert = false ∧
      (launch1 .ready).coop = false ∧ (launch1 .ready).aborted = false ∧ (launch1 .ready).teams = 1 ∧ (launch1 .ready).sent = 0 ∧
      (launch1 .ready).prio < 4 ∧ (launch1 .ready).queue < 8 ∧ bitOf ((dispatching .ready 0x1000000).world 0).qmask 0 = true ∧
      0 < ((dispatching .ready 0x1000000).world 0).weight ∧
      0 < ((dispatching .ready 0x1000000).world 0).deficit + ((dispatching .ready 0x1000000).world 0).weight ∧
      (dispatching .ready 0x1000000).noFit (launch1 .ready) = false ∧ (dispatching .ready 0x1000000).placeable (launch1 .ready) false = true) := by
  decide +kernel
/-- The launch of several teams on a module where another's team stands; and in expert mode, with a share. -/
def several (n : Nat) (c : Bool) : Launch := { launch1 .ready with gx := n, coop := c }
def busy (l : Launch) (full x : Bool) : State :=
  let t := theTeam (stands .running id)
  let s := { dispatching .ready 0x10000000 with
    launches := [l], dispctl := if x then 1 else 0
    teams := if full then (List.range 128).map fun i => { t with core := i, uid := 100 + i, scratchSize := 4194304, ctxLen := 0 } else [t] }
  s.setWorld 0 { s.world 0 with deficit := 1 - ((s.world 0).weight : Int), xallot := if x then (s.world 0).xallot + 16384 else (s.world 0).xallot }
def bound' (has use ask : Nat) : Nat := (has - use) / ask
/-- The free-slot count of a core for a launch that needs every resource. -/
def limitOf (s : State) (own : Bool) (ts : List Team) (l : Launch) (core r : Nat) : Nat :=
  min (bound' (coreHas.getD r 0) (inUse ts core r) ((launchAsks l).getD r 0))
    (if own then bound' ((shareHas (s.world l.world)).getD r 0) (inUseBy ts l.world core r) ((launchAsks l).getD r 0) else 16)
def countOf (s : State) (own : Bool) (ts : List Team) (l : Launch) (core : Nat) : Nat :=
  min (min (min (limitOf s own ts l core 0) (limitOf s own ts l core 1)) (min (limitOf s own ts l core 2) (limitOf s own ts l core 3)))
    (min (limitOf s own ts l core 4) (bound' (16384 * ((s.world l.world).xallot.toNat / 2 ^ 26 % 512)) (inUseBy ts l.world core 3) l.scratch))
theorem le_bound {has use ask m : Nat} (ha : 0 < ask) (hm : 0 < m) : m ≤ bound' has use ask ↔ use + m * ask ≤ has := by
  rw [bound', Nat.le_div_iff_mul_le ha]
  have : 0 < m * ask := Nat.mul_pos hm ha
  omega
theorem le_limit {s : State} {own : Bool} {ts : List Team} {l : Launch} {core r m : Nat} (ha : 0 < (launchAsks l).getD r 0) (hm : 0 < m) :
    m ≤ limitOf s own ts l core r ↔ inUse ts core r + m * (launchAsks l).getD r 0 ≤ coreHas.getD r 0 ∧
      (own = true → inUseBy ts l.world core r + m * (launchAsks l).getD r 0 ≤ (shareHas (s.world l.world)).getD r 0) ∧ (own = false → m ≤ 16) := by
  rw [limitOf, le_min_iff, le_bound ha hm]
  cases own
  · simp
  · simp only [reduceIte, le_bound ha hm]; simp
theorem slot_counts (s : State) (own : Bool) (ts : List Team) (l : Launch) (h : ∀ r < 5, 0 < (launchAsks l).getD r 0) :
    slotCounts s own ts l (countOf s own ts l) := by
  intro core _ m
  rcases Nat.eq_zero_or_pos m with rfl | hm
  · simp
  · have hs : 0 < l.scratch := h 3 (by decide)
    simp only [countOf, le_min_iff, le_limit (h 0 (by decide)) hm, le_limit (h 1 (by decide)) hm, le_limit (h 2 (by decide)) hm,
      le_limit (h 3 (by decide)) hm, le_limit (h 4 (by decide)) hm, le_bound hs hm]
    constructor
    · rintro ⟨⟨⟨h0, h1⟩, h2, h3⟩, h4, hq⟩
      refine .inr ⟨fun r hr _ => ?_, hq⟩
      match r, hr with
      | 0, _ => exact ⟨h0.1, h0.2.1⟩
      | 1, _ => exact ⟨h1.1, h1.2.1⟩
      | 2, _ => exact ⟨h2.1, h2.2.1⟩
      | 3, _ => exact ⟨h3.1, h3.2.1⟩
      | 4, _ => exact ⟨h4.1, h4.2.1⟩
    · rintro (rfl | ⟨hr, hq⟩)
      · exact absurd hm (by decide)
      · have g := fun r (hr5 : r < 5) => hr r hr5 (Nat.ne_of_gt (h r hr5))
        have hm16 : m ≤ 16 := by
          have := (g 2 (by decide)).1
          have e : (launchAsks l).getD 2 0 = 1 := rfl
          have f : coreHas.getD 2 0 = 16 := rfl
          rw [e, f] at this; omega
        exact ⟨⟨⟨⟨(g 0 (by decide)).1, (g 0 (by decide)).2, fun _ => hm16⟩, (g 1 (by decide)).1, (g 1 (by decide)).2, fun _ => hm16⟩,
          ⟨(g 2 (by decide)).1, (g 2 (by decide)).2, fun _ => hm16⟩, (g 3 (by decide)).1, (g 3 (by decide)).2, fun _ => hm16⟩,
          ⟨(g 4 (by decide)).1, (g 4 (by decide)).2, fun _ => hm16⟩, hq⟩
def readyFor (s : State) (l : Launch) (cnt : Nat → Nat) : Bool :=
  decide (s.launches = [l] ∧ s.worlds = [(l.world, s.world l.world)] ∧ l.state = .ready ∧ l.aborted = false ∧ l.sent < l.teams ∧ 0 < l.threads ∧
    l.prio < 4 ∧ l.queue < 8) && (s.world l.world).xallot.toNat.testBit (35 + l.queue) && !s.noFit l && s.teams.all (fun t => decide (t.prio ≤ l.prio)) &&
  s.ops.isEmpty && (List.range 5).all (fun r => decide (0 < (launchAsks l).getD r 0)) && decide (wants l ≤ s.areasFree l.world l.area) &&
  decide (min 64 (min ((List.range 16).foldl (fun m c => max m (clusterSum cnt c)) 0) (l.teams - l.sent)) ≤ s.areasFree l.world l.area)
theorem one_ready {s : State} {l : Launch} {cnt : Nat → Nat} (h : readyFor s l cnt = true) : oneReady s l (s.world l.world) := by
  simp only [readyFor, Bool.and_eq_true, decide_eq_true_eq, Bool.not_eq_true', List.all_eq_true, List.isEmpty_iff] at h
  obtain ⟨⟨⟨⟨⟨⟨⟨h1, h2⟩, h3⟩, h4⟩, h5⟩, _⟩, _⟩, _⟩ := h
  exact ⟨h1.1, h1.2.1, h1.2.2.1, h1.2.2.2.1, h1.2.2.2.2.1, h1.2.2.2.2.2.1, h1.2.2.2.2.2.2.1, h1.2.2.2.2.2.2.2, h2, h3, h4,
    fun o ho => by rw [h5] at ho; cases ho⟩
abbrev cntOf (l : Launch) (full x : Bool) : Nat → Nat := countOf (busy l full x) x (busy l full x).teams l
theorem witness_DispatchEvents_busy :
    (readyFor (busy (several 3 false) false false) (several 3 false) (cntOf (several 3 false) false false) = true ∧
      1 ≤ moduleSum (cntOf (several 3 false) false false) ∧ 0 < ((busy (several 3 false) false false).world 0).weight ∧
      ((busy (several 3 false) false false).world 0).deficit + ((busy (several 3 false) false false).world 0).weight = 1) ∧
    (readyFor (busy (several 3 true) false false) (several 3 true) (cntOf (several 3 true) false false) = true ∧
      3 ≤ moduleSum (cntOf (several 3 true) false false)) ∧
    (readyFor (busy (several 1 false) false true) (several 1 false) (cntOf (several 1 false) false true) = true ∧
      1 ≤ moduleSum (cntOf (several 1 false) false true)) ∧
    (readyFor (busy (several 1 false) true false) (several 1 false) (cntOf (several 1 false) true false) = true ∧
      moduleSum (cntOf (several 1 false) true false) < 1) := by decide +kernel
/-- A team whose warp has exited, the launch's only one or one of two. -/
def ending (gx : Nat) : State :=
  let s := (stands .exited id).updTeam 1 fun t => { t with launch := 7 }
  { s with launches := [{ launch1 .dispatched with gx := gx, sent := gx }] }
theorem witness_TeamEnd : (ending 1).findTeam 1 = some (theTeam (ending 1)) ∧ (∀ w ∈ (theTeam (ending 1)).warps, w.status = .exited) ∧
    (ending 1).ops = [] ∧ (ending 1).findLaunch 7 = some { launch1 .dispatched with gx := 1, sent := 1 } ∧
    (({ launch1 .dispatched with gx := 1, sent := 1 } : Launch).ended + 1 = ({ launch1 .dispatched with gx := 1, sent := 1 } : Launch).teams) ∧
    (ending 2).findLaunch 7 = some { launch1 .dispatched with gx := 2, sent := 2 } ∧
    (({ launch1 .dispatched with gx := 2, sent := 2 } : Launch).ended + 1 ≠ ({ launch1 .dispatched with gx := 2, sent := 2 } : Launch).teams) := by
  decide +kernel

/-- A team to be saved, at a clause's start or inside one; saved; and idle under a watchdog. The area is the last 64 bytes of the address
space, in a page with or without each permission. -/
def lastPage (r w : Bool) : TlbEntry := { page (2 ^ 44 - 1) 3 with r := r, w := w, r2 := true, w2 := true }
def saveAsked (idx : Nat) (r w : Bool) : State :=
  { (stands .sleeping fun x => { x with idx := idx }).updTeam 1 fun t => { t with coop := false, preempting := true, ctxBase := 2 ^ 58 - 64, ctxLen := 64 } with
    tlb := [placedTlb, lastPage r w] }
def savedOne (size : Nat) (d : List Byte) (r : Bool) : State :=
  { (stands .running id).updTeam 1 fun t => { t with coop := false, place := .saved, scratchSize := size, ctxBase := 2 ^ 58 - 64, ctxLen := 64, ctxDigest := d } with
    tlb := [placedTlb, lastPage r true] }
def watched1 : State :=
  let s := (stands .sleeping id).updTeam 1 fun t => { t with coop := false }
  s.setWorld 0 { s.world 0 with wdctl := 1 }
theorem witness_PreemptionEvents : (saveAsked 0 true true).findTeam 1 = some (theTeam (saveAsked 0 true true)) ∧ (theTeam (saveAsked 0 true true)).coop = false ∧
    (saveAsked 0 true true).savable (theTeam (saveAsked 0 true true)) = true ∧
    ((saveAsked 1 true true).findTeam 1 = some (theTeam (saveAsked 1 true true)) ∧ (theTeam (saveAsked 1 true true)).preempting = true ∧ (theWarp (saveAsked 1 true true)).status ≠ .exited ∧
      (theWarp (saveAsked 1 true true)).idx ≠ 0 ∧ ({ theWarp (saveAsked 0 true true) with inRep := true } : Warp).inRep = true ∧ (theTeam (saveAsked 1 true true)).warps = [theWarp (saveAsked 1 true true)]) ∧
    ((savedOne 65536 [] true).findTeam 1 = some (theTeam (savedOne 65536 [] true)) ∧ (theTeam (savedOne 65536 [] true)).place = .saved ∧
      (theTeam (savedOne 65536 [] true)).capFailed = false ∧ 127 < 128 ∧ (savedOne 65536 [] true).higherWaits (theTeam (savedOne 65536 [] true)) = false ∧
      (savedOne 65536 [] true).overCapacity (theTeam (savedOne 65536 [] true)) = false ∧ (savedOne 65536 [] true).fitsOn (theTeam (savedOne 65536 [] true)) 127 = true ∧
      (theTeam (savedOne 65536 [] true)).deferred = []) ∧
    (savedOne 0x400040 [] true).overCapacity (theTeam (savedOne 0x400040 [] true)) = true ∧
    (watched1.findTeam 1 = some (theTeam watched1) ∧ (theTeam watched1).place = .resident ∧
      bitOf (watched1.world (theTeam watched1).world).wdctl.toNat 0 = true ∧ bitOf (watched1.world (theTeam watched1).world).wdctl.toNat 1 = false ∧
      (theTeam watched1).awake ≠ []) := by decide +kernel
/-- A write at or beyond 2^58 faults whatever the state, and so does one that reaches it; either leaves the state. -/
theorem first_none {l : List (Nat × FaultCode × Nat)} (h : firstFault l = none) : l = [] := by
  cases l with
  | nil => rfl
  | cons x r =>
    unfold firstFault at h
    split at h
    · cases h
    · split at h <;> cases h
theorem check_far (s : State) (c w va n : Nat) (k : AccKind) (b : Nat) (hb : b ∈ pageStarts va n) (hf : 2 ^ 58 ≤ b) (hn : n ≠ 0) :
    ∃ e, s.checkRange c w va n k = .error e := by
  have ht : s.translate c w b k = .error .page := by rw [State.translate, if_pos hf]
  rw [State.checkRange, if_neg hn, State.checkAddrs]
  split
  · exact ⟨_, rfl⟩
  · rename_i he
    have := List.filterMap_eq_nil_iff.1 (first_none he) b hb
    rw [ht] at this; cases this
theorem far_starts {va n b : Nat} (h : 2 ^ 58 ≤ va) (hb : b ∈ pageStarts va n) : 2 ^ 58 ≤ b := by
  obtain ⟨i, _, rfl⟩ := List.mem_map.1 hb
  split
  · exact h
  · have : 2 ^ 44 ≤ va / 16384 := (Nat.le_div_iff_mul_le (by decide)).2 h
    calc 2 ^ 58 = 2 ^ 44 * 16384 := by decide
      _ ≤ _ := Nat.mul_le_mul_right _ (by omega)
theorem store_far (s : State) (o : Origin) (w va : Nat) (bs : List Byte) (h : 2 ^ 58 ≤ va) : (s.storeVirt o w va bs).2 = s := by
  have hw : s.walked o.core w (pageStarts va bs.length) = s := by
    rw [State.walked, List.filter_eq_nil_iff.2 fun b hb => by simpa using far_starts h hb]; rfl
  rcases Decidable.em (bs = []) with rfl | hb
  · rw [State.storeVirt, hw]; simp [State.checkRange, lineChunks]
  · have hn : bs.length ≠ 0 := fun h => hb (List.length_eq_zero_iff.1 h)
    obtain ⟨e, he⟩ := check_far s o.core w va bs.length .write va (by
      refine List.mem_map.2 ⟨0, List.mem_range.2 ?_, rfl⟩
      unfold ceilDiv; omega) h hn
    rw [State.storeVirt, hw, he]
/-- A context area of the last 64 bytes takes nothing of a context. -/
theorem context_far (s : State) (t : Team) (hb : t.ctxBase = 2 ^ 58 - 64) (hp : (s.tlbFind t.core t.world (2 ^ 44 - 1)).isSome = true) :
    s.writeContext t = { s with fresh := s.fresh + 319232 } := by
  have far : ∀ (x : State) (p : Nat × List Byte), 64 ≤ p.1 → x.putArea t p = x := fun x p h =>
    store_far x _ _ _ _ (by rw [hb]; omega)
  have near : ∀ (x : State) (bs : List Byte), bs.length = 256 → x.tlb = s.tlb → x.putArea t (0, bs) = x := by
    intro x bs hl hx
    have hf : (x.tlbFind t.core t.world (2 ^ 44 - 1)).isSome = true := by rw [← hp]; simp only [State.tlbFind, hx]
    have hs : pageStarts (2 ^ 58 - 64) 256 = [2 ^ 58 - 64, 2 ^ 58] := by decide
    obtain ⟨e, he⟩ := check_far x t.core t.world (2 ^ 58 - 64) 256 .write (2 ^ 58) (by rw [hs]; simp) (Nat.le_refl _) (by decide)
    have hw : x.walked t.core t.world (pageStarts (2 ^ 58 - 64) 256) = x := by
      rw [hs, State.walked, show ((([2 ^ 58 - 64, 2 ^ 58] : List Nat).filter fun va => decide (va < 2 ^ 58)).map (· / 16384)).eraseDups = [2 ^ 44 - 1] from by
        decide +kernel, List.foldl_cons, List.foldl_nil, if_pos hf]
    simp only [State.putArea, hb, Nat.add_zero, State.storeVirt, hl, hw, he]
  have all : ∀ (l : List (Nat × List Byte)) (x : State), (∀ p ∈ l, 64 ≤ p.1) → l.foldl (fun x p => x.putArea t p) x = x := by
    intro l
    induction l with
    | nil => intro x _; rfl
    | cons p r ih => intro x h; rw [List.foldl_cons, far x p (h p List.mem_cons_self)]; exact ih x fun q hq => h q (List.mem_cons_of_mem _ hq)
  simp only [State.writeContext, ownParts, List.map_cons, List.map_nil, List.cons_append, List.nil_append, List.foldl_cons]
  rw [near { s with fresh := s.fresh + 319232 } _ (by simp) rfl, far _ (2304, _) (show 64 ≤ 2304 by decide),
    far _ (51456, _) (show 64 ≤ 51456 by decide), far _ (56576, _) (show 64 ≤ 56576 by decide)]
  refine all _ _ fun p hp => ?_
  simp only [Team.image, List.mem_cons, List.not_mem_nil, or_false] at hp
  rcases hp with rfl | rfl | rfl | rfl | rfl | rfl | rfl <;> simp <;> omega
theorem witness_PreemptSave :
    (fine ((saveAsked 0 true false).checkRange 0 0 (2 ^ 58 - 64) 64 .write) = false ∧ fine ((saveAsked 0 true true).checkRange 0 0 (2 ^ 58 - 64) 64 .write) = true ∧
      fine ((saveAsked 0 false true).checkRange 0 0 (2 ^ 58 - 64) 64 .write) = true) ∧
    (∀ r, (pausedWork (saveAsked 0 r true) 1).findTeam 1 = some (theTeam (saveAsked 0 r true))) ∧ (∀ w ∈ (theTeam (saveAsked 0 true true)).warps, w.status ≠ .waitmon) ∧
    ∀ r, fine ((((pausedWork (saveAsked 0 r true) 1).drainWorld 0 0).writeContext (theTeam (saveAsked 0 r true))).areaDigest (theTeam (saveAsked 0 r true))).1 = r := by
  refine ⟨by decide +kernel, fun r => by cases r <;> decide +kernel, by decide +kernel, fun r => ?_⟩
  rw [context_far _ _ (by rfl) (by cases r <;> decide +kernel)]
  cases r <;> decide +kernel
/-- The bytes of the saved area, and their digest. -/
def savedBytes : List Byte := List.replicate 64 memDefault
def restoring (d : List Byte) (r : Bool) : State := { savedOne 65536 d r with fresh := 1 }
theorem area_of {s s1 : State} {t : Team} {b : List Byte} (ht : t.core = 0 ∧ t.world = 0 ∧ t.ctxBase = 2 ^ 58 - 64 ∧ t.ctxLen = 64)
    (h : s.readVirt 0 0 none (2 ^ 58 - 64) 64 = (.ok b, s1)) : (s.areaDigest t).1 = .ok (sha3 (b.take 35072 ++ b.drop 51456)) := by
  rw [State.areaDigest, ht.1, ht.2.1, ht.2.2.1, ht.2.2.2, h]
def savedDigest : List Byte := sha3 (savedBytes.take 35072 ++ savedBytes.drop 51456)
theorem restoring_reads : (∃ s1, (restoring savedDigest true).readVirt 0 0 none (2 ^ 58 - 64) 64 = (.ok savedBytes, s1)) ∧
    ∃ s1, (restoring [] true).readVirt 0 0 none (2 ^ 58 - 64) 64 = (.ok savedBytes, s1) :=
  ⟨⟨_, Prod.ext (okIs_ok _ _ (by decide +kernel)) rfl⟩, ⟨_, Prod.ext (okIs_ok _ _ (by decide +kernel)) rfl⟩⟩
theorem witness_TeamRestore :
    ((restoring savedDigest true).areaDigest (theTeam (savedOne 65536 savedDigest true))).1 = .ok (theTeam (savedOne 65536 savedDigest true)).ctxDigest ∧
    ((restoring [] true).areaDigest (theTeam (savedOne 65536 [] true))).1 = .ok savedDigest ∧ savedDigest ≠ (theTeam (savedOne 65536 [] true)).ctxDigest ∧
    fine ((restoring [] false).areaDigest (theTeam (savedOne 65536 [] false))).1 = false := by
  obtain ⟨⟨s1, h1⟩, s2, h2⟩ := restoring_reads
  refine ⟨?_, ?_, fun h => ?_, by decide +kernel⟩
  · rw [area_of (by decide +kernel) h1, show (theTeam (savedOne 65536 savedDigest true)).ctxDigest = savedDigest by decide +kernel]; rfl
  · rw [area_of (by decide +kernel) h2]; rfl
  · have h0 : (theTeam (savedOne 65536 [] true)).ctxDigest.length = 0 := by decide +kernel
    rw [← h, savedDigest, sha3_length] at h0
    cases h0

/-! ### Regions, scrubbing, logs and event queues -/

/-- Region 7 with a batch due or under way, placed on AD 0. -/
def regionIs (f : Region → Region) : State := { base with cur := none, regions := [(7, f grantedRegion)] }
def batch1 : Batch := { cols := grantedRegion.cols, ctl := pavaneReset, probes := [List.replicate 8 1, List.replicate 8 2] }
theorem witness_ArrayEvents : (regionIs id).region 7 = grantedRegion ∧ grantedRegion.state = .valid ∧
    bitOf grantedRegion.pavane.toNat 0 = true ∧ grantedRegion.batch = none ∧
    (({ grantedRegion with batch := some batch1 } : Region).batch = some batch1 ∧ batch1.cols.length = 4 ∧ batch1.probes ≠ [] ∧
      ∀ c ∈ batch1.cols, (f32 c.g).isFin = true ∧ (f32 c.o).isFin = true) := by decide +kernel
/-- A region on its way to a new image on ADs 0 and 1, at each step. -/
def changing (st : RegionState) (stage : List Nat) (prog : KMap Nat) (ver : KMap Bool) : Region :=
  { grantedRegion with
    state := st, next := .program 3 pavaneReset, newPlacement := [0, 2 ^ 28, 2 ^ 28 + 2 ^ 18], stage := stage, progress := prog, verified := ver }
theorem witness_ArrayEvents_change : ((regionIs fun r => { r with state := .revoking, next := .free }).handled 7 = false ∧
      (regionIs fun r => { r with state := .revoking, next := .free }).regionHeld 7 = false) ∧
    ((changing .revoking [0] [] []).next = .program 3 pavaneReset ∧
      ((placementAds (changing .revoking [0] [] []).newPlacement).find? fun x => !([0] : List Nat).contains x) = some 1 ∧
      (∀ x ∈ placementAds (changing .revoking [0] [] []).newPlacement, x = 1 ∨ x ∈ [0])) ∧
    (((placementAds (changing .revoking [] [] []).newPlacement).find? fun x => !([] : List Nat).contains x) = some 0 ∧
      ∃ x ∈ placementAds (changing .revoking [] [] []).newPlacement, x ≠ 0 ∧ x ∉ ([] : List Nat)) ∧
    ((regionIs id).ad 1).journal.length < journalCap ∧
    (1 < tilesOn (changing .programming [] [(0, 1), (1, 1)] []).newPlacement 1 ∧ ¬ 1 < tilesOn (changing .programming [] [] []).newPlacement 0) ∧
    (KMap.find (changing .verifying [] [] [(0, true)]).verified 1 = none ∧ 1 ∈ placementAds (changing .verifying [] [] [(0, true)]).newPlacement ∧
      ∀ x ∈ placementAds (changing .verifying [] [] [(0, true)]).newPlacement, x < 1 → (KMap.find [(0, true)] x).isSome = true) ∧
    ((∀ x ∈ placementAds (changing .verifying [0, 1] [] [(0, true), (1, false)]).newPlacement, (KMap.find [(0, true), (1, false)] x).isSome = true) ∧
      ∃ p ∈ (changing .verifying [0, 1] [] [(0, true), (1, false)]).verified, p.2 = false) ∧
    ((∀ p ∈ (changing .verifying [0, 1] [] [(0, true), (1, true)]).verified, p.2 = true) ∧
      ∀ x ∈ placementAds (changing .verifying [0, 1] [] [(0, true), (1, true)]).newPlacement, x ∈ [0, 1]) := by decide +kernel
/-- A page being scrubbed; a world with an access log of one ended window, whose ring has room or cannot be read. -/
def scrubbing : State := { base with pot := [(0, potEntry 0 1 false 0), (5, potEntry 3 3 true 9)] }
def logged (b : Nat) : State :=
  let s := at0 id id
  { s.setWorld 0 { s.world 0 with log := { AccessLog.reset with base := b, size := 64 + 8192, pend := [{ agent := 3, op := 1, entry := 0, time := 100, bytes := 64, gran := 7, coal := false }] } } with
    hubTime := 1600, llc := heldLines [64] }
/-- The world with no record left pending. -/
def noPending (s : State) : State := s.setWorld 0 { s.world 0 with log := { (s.world 0).log with pend := [] } }
theorem witness_ArrayEvents_logs : 5 < usablePages ∧ scrubbing.potState 5 = 3 ∧
    ((logged 0x2000).world 0).log.pend = [{ agent := 3, op := 1, entry := 0, time := 100, bytes := 64, gran := 7, coal := false }] ∧
    100 / 1600 < (logged 0x2000).hubTime / 1600 ∧
    (reads ((noPending (logged 0x2000)).gpaRead 0 0x2008 8) (leBytes 8 0) = true ∧
      (((logged 0x2000).world 0).log.written + 2 ^ 64 - leVal (leBytes 8 0)) % 2 ^ 64 < (((logged 0x2000).world 0).log.size - 64) / 32) ∧
    fine ((noPending (logged 0x2000)).gpaWrite 0 (0x2000 + 64) (List.replicate 32 0)) = true ∧
    fine ((noPending (logged (2 ^ 52))).gpaRead 0 (2 ^ 52 + 8) 8) = false := by decide +kernel
/-- A ring that is full by its CONSUMED; a ring that CONSUMED says has room, with its next record in a page nobody holds. -/
def fullRing : State :=
  let s := logged 0x2000
  s.setWorld 0 { s.world 0 with log := { (s.world 0).log with written := 256 } }
def cutRing : State :=
  let s := logged 0x2000
  { s.setWorld 0 { s.world 0 with log := { (s.world 0).log with base := 0x3FC0 } } with llc := heldLines [127] }
theorem witness_ArrayEvents_lost : reads ((noPending fullRing).gpaRead 0 0x2008 8) (leBytes 8 0) = true ∧
    ((fullRing.world 0).log.size - 64) / 32 ≤ ((fullRing.world 0).log.written + 2 ^ 64 - leVal (leBytes 8 0)) % 2 ^ 64 ∧
    reads ((noPending cutRing).gpaRead 0 (0x3FC0 + 8) 8) (leBytes 8 0) = true ∧ fine ((noPending cutRing).gpaWrite 0 0x4000 (List.replicate 32 0)) = false := by
  decide +kernel
/-- Errors of an AD of each rotation, at the corners of its plane grid. -/
theorem witness_ArrayEvents_records : ∀ d ∈ [0, 15], entryPx (d * 2 ^ 28) < (planeGrid (adRotation (entryAd (d * 2 ^ 28)))).1 ∧
    entryPy (d * 2 ^ 28) < (planeGrid (adRotation (entryAd (d * 2 ^ 28)))).2 ∧ (3 : Nat) < 4 := by decide +kernel
/-- A source's record waiting to enter the queue at 0xC000 of world 0, whose TAIL and HEAD stand at `tail` and `head`. -/
def posting1 (n tail head : Nat) : State :=
  let s := at0 id id
  { s.setWorld 0 { s.world 0 with evTail := tail } with
    sources := [(5, { seq := 9, pending := [List.replicate n 1] })], llc := heldLines [384], pot := [(0, potEntry 0 1 false 0), (3, potEntry 0 1 false 0), (11, potEntry 0 1 false 0)]
    mem := Sparse.setN memDefault s.mem 0xC008 (leBytes 8 head) }
theorem witness_EventQueues : waiting (posting1 32 4095 0) (0 * 2 ^ 32 + 5) (List.replicate 32 1) [] 9 ∧ ((posting1 32 4095 0).world 0).evInit = false ∧
    (posting1 32 4095 0).newestSession 0 = none ∧ reads ((posting1 32 4095 0).gpaRead 0 0xC008 8) (leBytes 8 0) = true ∧
    queued ((posting1 32 4095 0).world 0) (leBytes 8 0) < 4096 ∧
    (waiting (posting1 64 8191 4098) (0 * 2 ^ 32 + 5) (List.replicate 64 1) [] 9 ∧ ((posting1 64 8191 4098).world 0).evTail % 4096 = 4095 ∧
      reads ((posting1 64 8191 4098).gpaRead 0 0xC008 8) (leBytes 8 4098) = true ∧ queued ((posting1 64 8191 4098).world 0) (leBytes 8 4098) ≤ 4093) ∧
    4096 < queued ((posting1 32 4096 0).world 0) (leBytes 8 0) + 1 ∧ (posting1 32 4096 0).sources.map Prod.fst = [0 * 2 ^ 32 + 5] := by
  unfold waiting; decide +kernel
/-- What `o` leaves when it succeeds. -/
def after1 (s : State) (o : State → Except (Nat × State) State) : State := match o s with | .ok x => x | .error _ => s
theorem witness_EventQueues_writes : fine ((posting1 32 4095 0).gpaWrite 0 (0xC000 + 64 + 32 * 4095) (List.replicate 32 1)) = true ∧
    fine ((after1 (posting1 64 8191 4098) fun s => s.gpaWrite 0 (0xC000 + 64 + 32 * 4095) (padRecord 0)).gpaWrite 0 0xC000 (leBytes 8 8192)) = true ∧
    fine ((after1 (posting1 64 8191 4098) fun s => s.gpaWrite 0 0xC000 (leBytes 8 8192)).gpaWrite 0 (0xC000 + 64) (List.replicate 64 1)) = true := by
  decide +kernel
/-- Records gathered for a world's one session. -/
def gathered : State := { base with
  cur := none, evFrame := [(0, List.replicate 45 (List.replicate 32 1))]
  sessions := [(4, { world := 0, rxSeq := 1, txSeq := 2, order := 0, key := [], remembered := [], underWay := none })] }
theorem witness_EventQueues_frame : KMap.find gathered.evFrame 0 = some (List.replicate 45 (List.replicate 32 1)) ∧
    (List.replicate 45 (List.replicate 32 (1 : Byte))).length ≤ 45 ∧ gathered.newestSession 0 = some 4 ∧
    (KMap.find gathered.sessions 4).isSome = true := by decide +kernel

/-! ### Messages of the host, commands, boot -/

/-- A request and a session of world `w` that may take it, on a machine with two sessions. -/
def head : MsgHead := { session := 4, seq := 7, rtag := 99, formOk := true }
def sess (w : Nat) : Session := { world := w, rxSeq := 6, txSeq := 3, order := 0, key := [], remembered := [(5, [1, 0, 0, 0])], underWay := none }
def hosts (s : State) (w : Nat) : State := { s with cur := none, sessions := [(4, sess w), (9, sess 0)] }
def hosted (w : Nat) : State := hosts (at0 id id) w
def zeros (n : Nat) : List Byte := List.replicate n 0
theorem hosted_boot (w : Nat) : (hosted w).boot = .up := rfl
theorem up_booted (s : State) (h : s.boot = .up) : booted s := by
  intro a b h1
  rw [h] at h1
  cases h1
theorem witness_CommandsRefused : ownersOnly head (.softerrRead head) ∧ ownersOrSelf head 3 (.opResume head 3 1) ∧
    KMap.find (hosted 2).sessions head.session = some (sess 2) ∧ (sess 2).underWay = none ∧ (sess 2).rxSeq < head.seq ∧
    (sess 2).rxSeq ≥ ({ head with seq := 6 } : MsgHead).seq ∧
    ((sess 2).remembered = [] ++ (({ head with rtag := 5 } : MsgHead).rtag, [1, 0, 0, 0]) :: []) ∧
    ((∀ p ∈ (sess 2).remembered, p.1 ≠ head.rtag) ∧ ({ head with formOk := false } : MsgHead).formOk = false) ∧
    asked (hosted 2) head (sess 2) ∧ (sess 2).world ≠ 0 ∧ (sess 2).world ≠ 3 := by
  refine ⟨by simp [ownersOnly], by simp [ownersOrSelf], ?_⟩
  unfold asked; decide +kernel
theorem witness_HostMessages : booted (hosted 0) ∧ (∃ c, (hosted 0).credentialOf 0 = some c) ∧
    ((zeros 32).length = 32 ∧ (zeros 1088).length = 1088 ∧ (zeros 2420).length = 2420 ∧ ((hosted 0).world 0).state = .active ∧
      ((hosted 0).sessions.filter fun p => p.2.world == 0).length < 4 ∧ (hosted 0).sessions.length < 128) ∧
    ((hosted 0).world 31).state ≠ .active ∧ (hosted 0).credentialOf 31 = none ∧
    (1 ≤ 4096 ∧ (zeros 4096).length = 4096 ∧ (zeros 16).length = 16 ∧ 1 ≠ (hosted 0).layoutGen.toNat ∧ 0 = (hosted 0).layoutGen.toNat) ∧
    ({ hosted 0 with boot := .failed 4 255 } : State).boot = .failed 4 255 :=
  ⟨up_booted _ (hosted_boot 0), ⟨Config.ownerCredential, rfl⟩, by decide +kernel⟩
theorem witness_HostMessages_memory : asked (hosted 0) head (sess 0) ∧ (zeros 8192).length ≤ 8192 ∧
    fine ((accepted (hosted 0) head (sess 0)).gpaWrite 0 0x2000 [1, 2, 3]) = true ∧
    fine ((accepted (hosted 0) head (sess 0)).gpaWrite 0 0x7FFFE [1, 2, 3]) = false ∧
    fine ((accepted (hosted 0) head (sess 0)).gpaRead 0 0x2000 5) = true ∧
    fine ((accepted (hosted 0) head (sess 0)).gpaRead 0 0x7FFFE 5) = false ∧
    fine ((accepted (hosted 0) head (sess 0)).gpaWrite 0 (((hosted 0).world 0).qtable + 32 * 7 + 24) (leBytes 8 77)) = true ∧
    (∃ s, s = { hosted 0 with pot := [] } ∧ asked s head (sess 0) ∧
      fine ((accepted s head (sess 0)).gpaWrite 0 ((s.world 0).qtable + 32 * 7 + 24) (leBytes 8 77)) = false) := by
  refine ⟨by unfold asked; decide +kernel, by decide +kernel, by decide +kernel, by decide +kernel, by decide +kernel, by decide +kernel,
    by decide +kernel, _, rfl, by unfold asked; decide +kernel, by decide +kernel⟩
/-- A session with a request under way; a secret of one byte for each layout generation. -/
def busyHost : State := { hosted 0 with sessions := [(4, { sess 0 with underWay := some (.pageShare head [3]) })] }
theorem witness_SessionMessages_waits : KMap.find busyHost.sessions head.session = some { sess 0 with underWay := some (.pageShare head [3]) } ∧
    ((1 : Nat) ≠ (hosted 0).layoutGen.toNat ∧ 0 = (hosted 0).layoutGen.toNat ∧ (zeros 1).length = 1 ∧ (zeros 16).length = 16) := by
  decide +kernel
/-- Frames that the port discards, each by one reason, and one that it answers. -/
def frame (b : FrameBody) : EthernetFrame := { size := 9216, body := b }
def header (ver ty session seq : Nat) : List Byte := leBytes 1 ver ++ leBytes 1 ty ++ zeros 2 ++ leBytes 4 session ++ leBytes 8 seq ++ leBytes 4 99 ++ zeros 12
theorem witness_PortRules_dropped : ∀ f ∈ [{ frame .other with size := 9217 }, frame .other, frame .routerAdvertisement,
    frame (.udp 19507 (header 1 0x77 0 0)), frame (.udp 19506 (zeros 31)), frame (.udp 19506 (header 2 0x77 0 0)),
    frame (.udp 19506 (header 1 0x77 8 9)), frame (.udp 19506 (header 1 0x10 4 6))], dropped (hosted 0) f := by
  have key : ∀ a b x, KMap.find (hosted 0).sessions (inBlock (header 1 a b x) 4 4) = none ∨
      KMap.find (hosted 0).sessions (inBlock (header 1 a b x) 4 4) = some (sess 0) ∧ inBlock (header 1 a b x) 8 8 ≤ (sess 0).rxSeq →
      inBlock (header 1 a b x) 4 4 ≠ 0 → dropped (hosted 0) (frame (.udp 19506 (header 1 a b x))) := by
    intro a b x h1 h2
    refine .inr (.inr (.inr ⟨_, _, rfl, .inr (.inr (.inr ⟨h2, fun y hy => .inr ?_⟩))⟩))
    rcases h1 with h1 | ⟨h1, h3⟩ <;> simp [h1] at hy
    rw [← hy]; exact h3
  intro f hf
  fin_cases hf
  · exact .inl (by decide)
  · exact .inr (.inl rfl)
  · exact .inr (.inr (.inl rfl))
  · exact .inr (.inr (.inr ⟨_, _, rfl, .inl (by decide)⟩))
  · exact .inr (.inr (.inr ⟨_, _, rfl, .inr (.inl (by decide))⟩))
  · exact .inr (.inr (.inr ⟨_, _, rfl, .inr (.inr (.inl (by decide +kernel)))⟩))
  · exact key _ _ _ (.inl (by decide +kernel)) (by decide +kernel)
  · exact key _ _ _ (.inr (by decide +kernel)) (by decide +kernel)
theorem witness_PortRules_unknown : (frame (.udp 19506 (header 1 0x77 0 0))).size ≤ 9216 ∧ 32 ≤ (header 1 0x77 0 0).length ∧
    inBlock (header 1 0x77 0 0) 0 1 = 1 ∧ inBlock (header 1 0x77 0 0) 4 4 = 0 ∧
    knownTypes.contains (inBlock (header 1 0x77 0 0) 1 1) = false ∧ knownTypes.contains (inBlock (header 1 1 0 0) 1 1) = true := by
  decide +kernel
theorem witness_HostMessages_port : knownCommands.contains 0x77 = false ∧ knownTypes.contains 0x77 = false ∧
    asked (hosted 0) head (sess 0) ∧ head.session ≠ 0 ∧ ({ head with session := 0 } : MsgHead).session = 0 ∧
    (({ hosted 0 with validAddrs := [5] } : State).validAddrs = [5] ∧ 5 ∈ [5] ∧ 6 ∉ [5]) ∧
    ({ hosted 0 with address := some 5 } : State).address = some 5 := by
  unfold asked; decide +kernel

/-- A world with a page of each kind and nothing running, or with an operation outstanding. -/
def world2 : State :=
  let s := hosted 0
  { s with
    worlds := KMap.put s.worlds 2 { s.world 0 with handles := [(1, 0x80000007#32)], hcount := 3 }, teams := [], launches := []
    pot := [(0, potEntry 0 1 false 0), (3, potEntry 2 1 false 4), (5, potEntry 2 3 true 9)] }
def heldOp : Op := { plainOp (placedTeam baseHeader) 0 Warp.zero .l (.load false .i8 .default 127 shares) with world := 2 }
theorem witness_WorldsAndTranslation : owner (hosted 0) head (sess 0) (accepted (hosted 0) head (sess 0)) ∧
    ((hosted 0).world 31).state = .free ∧ ((hosted 0).world 0).state ≠ .free ∧ 512 % 256 = 0 ∧
    (owner world2 head (sess 0) (accepted world2 head (sess 0)) ∧ (world2.world 2).state = .active ∧ world2.teams = [] ∧ world2.launches = [] ∧
      world2.ops = [] ∧ world2.potWorld 5 = 2 ∧ world2.potState 5 ≠ 0 ∧ world2.potWorld 0 ≠ 2) ∧
    (owner { world2 with ops := [heldOp] } head (sess 0) (accepted { world2 with ops := [heldOp] } head (sess 0)) ∧
      ({ world2 with ops := [heldOp] } : State).launches = [] ∧ ({ world2 with ops := [heldOp] } : State).ops = [heldOp] ∧ heldOp.world = 2) ∧ ((hosted 0).world 31).state ≠ .active ∧
    (16384 * 62914559 % 16384 = 0 ∧ 16384 * 62914559 < 960 * 2 ^ 30) ∧ (zeros 1312).length = 1312 ∧ 2 ^ 128 - 1 < 2 ^ 128 := by
  unfold owner asked; decide +kernel
theorem witness_WorldsAndTranslation_tables : asked (hosted 2) head (sess 2) ∧
    ((2 ^ 52 - 16384) % 16384 = 0 ∧ 2 ^ 52 - 16384 < 2 ^ 52) ∧ (16384 % 16384 = 0 ∧ 16384 + (2 ^ 58 - 16384) ≤ 2 ^ 58) ∧
    (1 = 1 ∧ (sess 2).world = 2) ∧ (2 = 2 ∧ (sess 0).world = 0) ∧ (sess 2).world ≠ 3 := by
  unfold asked; decide +kernel
theorem witness_PageCommands : owner (hosted 0) head (sess 0) (accepted (hosted 0) head (sess 0)) ∧
    (∀ p ∈ [7, usablePages - 1], p < usablePages) ∧
    ([7, usablePages - 1].Nodup ∧ (∀ p ∈ [7, usablePages - 1], (hosted 0).potState p = 0) ∧ ((hosted 0).world 0).state = .active) ∧
    ((hosted 0).setWorld 0 { (hosted 0).world 0 with pimok := true }).world 0 = { (hosted 0).world 0 with pimok := true } ∧
    ((hosted 0).setWorld 0 { (hosted 0).world 0 with pimok := false }).world 0 = { (hosted 0).world 0 with pimok := false } ∧
    (∃ p ∈ [0], (hosted 0).potState p ≠ 0) ∧
    ((∀ p ∈ [0, 3], (hosted 0).potState p = 1 ∧ (hosted 0).potPim p = false) ∧ (hosted 0).ops = [] ∧
      (∃ o ∈ [heldOp], ∃ p ∈ o.pagesHeld, p ∈ [0, 3] ∧ (hosted 0).potState p ≠ 0)) ∧
    (world2.potState 5 ≠ 1 ∧ world2.potPim 5 = true ∧ world2.potState 5 = 3) ∧ (∀ p ∈ [0, 9], (hosted 0).potState p ≠ 3) := by
  unfold owner asked; decide +kernel
theorem witness_RegistersAndReports : owner (hosted 0) head (sess 0) (accepted (hosted 0) head (sess 0)) ∧
    (64 < (65 * 2 ^ 10) / 2 ^ 10 % 128 ∧ (64 * 2 ^ 10) / 2 ^ 10 % 128 ≤ 64 ∧ (hosted 0).resvOthers 31 + (64 * 2 ^ 10) / 2 ^ 10 % 128 ≤ 64) ∧
    asked (hosted 2) head (sess 2) ∧ (sess 2).world = 2 ∧ (zeros 32).length = 32 ∧ (60 + 196 ≤ 256 ∧ 60 + 4 ≤ 64) ∧
    (0x1000 % 64 = 0 ∧ (∀ e ∈ ([{ kind := 1, ops := 127, lo := 0, hi := 10 }] : List WatchEntry), e.kind ≤ 1 ∧ e.ops < 128)) ∧
    ((accepted (hosted 0) head (sess 0)).gpaCheck 0 0x4000 (64 + 8192 * 1) .write).isSome = true ∧
    (accepted (hosted 0) head (sess 0)).gpaCheck 0 0x1000 (64 + 8192 * 1) .write = none ∧
    fine ((accepted (hosted 0) head (sess 0)).gpaWrite 0 0x1000 (leBytes 64 0)) = true := by
  unfold owner asked; decide +kernel
/-- The log's header is lost on its way to memory. -/
def lossy : State := { hosted 0 with badPackets := [32] }
theorem witness_Reports_lost : asked lossy head (sess 0) ∧ (accepted lossy head (sess 0)).gpaCheck 0 0x1000 (64 + 8192 * 1) .write = none ∧
    fine ((accepted lossy head (sess 0)).gpaWrite 0 0x1000 (leBytes 64 0)) = false := by
  unfold asked; decide +kernel

/-- A region, with an image of 16 by 16 weights and a placement staged for it on AD 0. -/
def stagedWith (place : List Nat) (f : Region → Region) : State :=
  { hosted 0 with
    regions := [(7, f grantedRegion)]
    ads := [(0, {
      (hosted 0).ad 0 with
      images := [(3, (Sparse.setN 0 [] 0 (leBytes 4 16 ++ leBytes 4 16 ++ [0, 0, 1, 1]), 384))]
      placements := if place = [] then [] else [(7, (Sparse.setN 0 [] 0 (place.flatMap (leBytes 4)), 4 * place.length))] })] }
def image16 : List Byte := leBytes 4 16 ++ leBytes 4 16 ++ [0, 0, 1, 1] ++ zeros 372
theorem witness_ArrayCommands : owner (stagedWith [2 ^ 18] id) head (sess 0) (accepted (stagedWith [2 ^ 18] id) head (sess 0)) ∧
    (poolBytes < (stagedWith [] id).poolUsed 0 + ((stagedWith [] id).ad 0).growth 0 3 poolBytes 8192 ∧
      (stagedWith [] id).poolUsed 0 + ((stagedWith [] id).ad 0).growth 0 3 0 8192 ≤ poolBytes) ∧
    (∀ d ∈ (List.range 16).filter fun d => bitOf 1 d, d = 0) ∧ ((1 : Nat) = 0 ∨ 16383 < 16384) ∧
    underChange ((stagedWith [] fun r => { r with state := .verifying }).region 7) ∧ ¬ underChange ((stagedWith [] id).region 7) ∧
    (stagedWith [] id).stagedPlacement 7 = [] ∧
    ((stagedWith [2 ^ 18] id).stagedPlacement 7 = [2 ^ 18] ∧ imageStaged (stagedWith [2 ^ 18] id) [2 ^ 18] 3 image16 ∧ imgOk image16 = true ∧
      [2 ^ 18].length = tileRows (imgK image16) * tileCols (imgN image16)) ∧
    (∃ e ∈ [5], entryOk e = false) ∧ ((∀ e ∈ [2 ^ 18], entryOk e = true) ∧ [2 ^ 18].Nodup) ∧
    (stagedWith [2 ^ 18] id).tileTaken 9 [0] = true ∧ (stagedWith [2 ^ 18] id).tileTaken 7 [2 ^ 18] = false := by
  unfold owner asked underChange imageStaged; decide +kernel
theorem witness_ArrayCommands_digest : ∃ digest : List Byte, digest.length = 32 ∧ sha3 image16 = digest :=
  ⟨sha3 image16, sha3_length image16, rfl⟩
theorem witness_ArrayCommands_more : ((stagedWith [] id).region 7).state = .valid ∧
    ((stagedWith [] fun r => { r with state := .failed }).region 7).state = .failed ∧
    ((stagedWith [] fun r => { r with state := .revoking }).region 7).state ≠ .valid ∧
    ((stagedWith [] fun r => { r with state := .revoking }).region 7).state ≠ .failed ∧
    ((stagedWith [] fun r => { r with state := .revoking }).region 7).state ≠ .empty ∧
    ([1, 2].length ≤ 2048 ∧ 65534 + [1, 2].length ≤ 65536) ∧ 3 + [((1, 2) : Nat × Nat)].length ≤ ((stagedWith [] id).region 7).n ∧
    (∃ c : Column, ((stagedWith [] id).region 7).cols[3]? = some c) ∧ KMap.sorted (stagedWith [] id).worlds = true ∧
    (127 + 1 ≤ (((stagedWith [] id).region 7).descriptor 7).length ∧ 3 + 1 ≤ (((stagedWith [] id).region 7).placement.flatMap (leBytes 4)).length) :=
  ⟨by decide +kernel, by decide +kernel, by decide +kernel, by decide +kernel, by decide +kernel, by decide +kernel, by decide +kernel,
    ⟨{ cs := 0, g := 0, o := 0, cflags := 0 }, by decide +kernel⟩, by decide +kernel, by decide +kernel⟩

/-- A warp suspended by source 5's report 6; an operation parked as RID 77; a lone team of a launch. -/
def suspendedAs (atHeader trap : Bool) (p : TeamPlace) : State :=
  hosts ((stands (.suspended 5 6 atHeader trap) id).updTeam 1 fun t => { t with place := p }) 0
def parkedIn (p : TeamPlace) : State :=
  let s := hosts (copyEvent (copyAt 16 [])) 0
  { (s.updTeam 1 fun t => { t with place := p }) with ops := s.ops.map fun o => { o with parked := some 77 } }
def loneTeam : State := hosts ((stands .running id).updTeam 1 fun t => { t with coop := false }) 0
def standsSuspended (s : State) (atHeader trap : Bool) : Prop :=
  s.suspendedBy 0 5 6 = some (theTeam s, 0, theWarp s) ∧ (theWarp s).status = .suspended 5 6 atHeader trap
theorem witness_RecoveryCommands : asked (hosted 0) head (sess 0) ∧ (hosted 0).suspendedBy 0 5 6 = none ∧
    standsSuspended (suspendedAs true false .resident) true false ∧
    (standsSuspended (suspendedAs false false .saved) false false ∧ (theTeam (suspendedAs false false .saved)).place = .saved) ∧
    (standsSuspended (suspendedAs false true .resident) false true ∧ (theTeam (suspendedAs false true .resident)).place ≠ .saved ∧
      (theWarp (suspendedAs false true .resident)).clause.isSome = true ∧
      (suspendedAs false true .resident).atRep (theTeam (suspendedAs false true .resident)) (theWarp (suspendedAs false true .resident)) = false) ∧
    (hosted 0).parkedAs 0 77 = none ∧
    ((parkedIn .saved).parkedAs 0 77 = some (opOf (parkedIn .saved)) ∧ (parkedIn .saved).findTeam 1 = some (team1 (parkedIn .saved)) ∧
      (team1 (parkedIn .saved)).place = .saved ∧ (opOf (parkedIn .saved)).team = 1) ∧
    ((parkedIn .resident).parkedAs 0 77 = some (opOf (parkedIn .resident)) ∧ (opOf (parkedIn .resident)).kind = .copy (copyAt 16 []) ∧
      (team1 (parkedIn .resident)).place ≠ .saved) := by
  unfold asked standsSuspended; decide +kernel
/-- The suspending record waits outside the queue; the suspended word is a `rep`, its clause's last or not. -/
def waitingRecord : State := { suspendedAs false false .resident with sources := [(5, { seq := 7, pending := [zeros 4 ++ leBytes 4 6 ++ zeros 56] })] }
def suspendedRep (n : Nat) : State :=
  let s := suspendedAs false false .resident
  { s.updWarp 1 0 fun w => { w with clause := some { baseHeader with count := n } } with
    mem := Sparse.setN memDefault (placedMem baseHeader 0x30000000) (theWarp s).wordAddr.toNat (leBytes 4 0x30000000) }
theorem witness_RecoveryCommands_resume : waitingRecord.recordWaits 0 5 6 = true ∧
    ∀ n ∈ [1, 2], standsSuspended (suspendedRep n) false false ∧ (theTeam (suspendedRep n)).place ≠ .saved ∧
      (theWarp (suspendedRep n)).clause = some { baseHeader with count := n } ∧
      (suspendedRep n).atRep (theTeam (suspendedRep n)) (theWarp (suspendedRep n)) = true := by
  unfold standsSuspended; decide +kernel
theorem witness_RecoveryCommands_aborts : (hosted 0).teamNamed 0 5 5 5 = none ∧ (hosted 0).launchNamed 0 5 5 = none ∧
    (loneTeam.teamNamed 0 0 0 (theTeam loneTeam).teamId = some (theTeam loneTeam) ∧ loneTeam.teams = [theTeam loneTeam] ∧ loneTeam.ops = [] ∧
      loneTeam.findTeam 1 = some (theTeam loneTeam) ∧ (theTeam loneTeam).coop = false ∧ (theTeam loneTeam).place = .resident ∧
      (theTeam loneTeam).warps = [theWarp loneTeam] ∧ (theWarp loneTeam).status ≠ .sleeping ∧ (theWarp loneTeam).status ≠ .waitmon) ∧
    ((dispatching .ready 0x1000000).launchNamed 0 0 16 = some (launch1 .ready) ∧ (launch1 .ready).state = .ready) := by decide +kernel

/-- Inputs of a boot that succeeds. -/
def goodBoot : BootInputs :=
  { millivolts := 48000, badSignature := none, images := [], trained := true, orient := (List.range 16).map orientOf, replayOk := true, world0Pages := [0, 3]
    world0Bytes := [], s2root := 0, s1root := 0, qtable := 0, evq := 0 }
/-- Ten samples of an interval, at a level, a pacing and a sum. -/
def paced (level pacing sum : Nat) (hot : Bool) : State :=
  { base with power := { base.power with level := level, pacing := pacing, sum := sum, samples := 10, hot := hot } }
theorem witness_BootAndPower : (({ goodBoot with millivolts := 39999 } : BootInputs).millivolts < 40000 ∧ 40000 ≤ goodBoot.millivolts ∧
      ((stagedWith [] id).regions.map Prod.fst).Nodup ∧ ∀ q ∈ (stagedWith [] id).regions, q.2.next = .none) ∧ (({ goodBoot with badSignature := some 0 } : BootInputs).badSignature = some 0) ∧
    (goodBoot.badSignature = none ∧ ({ goodBoot with trained := false } : BootInputs).trained = false) ∧
    (goodBoot.trained = true ∧ goodBoot.orient = (List.range 16).map orientOf ∧ ({ goodBoot with replayOk := false } : BootInputs).replayOk = false ∧
      goodBoot.replayOk = true ∧ 3 ∈ goodBoot.world0Pages ∧ 4 ∉ goodBoot.world0Pages) ∧
    (base.power.samples < 10 ∧ 10 ≤ (paced 24 4 0 false).power.samples ∧ base.power.samples ≠ 10) ∧
    ((paced 24 4 18001 false).power.hot = false ∧ (∀ c ∈ [104], c < 105) ∧ (paced 24 4 0 true).power.hot = true ∧ (∀ c ∈ [99], c < 100)) ∧
    ((∃ c ∈ [105], 105 ≤ c) ∧ ∃ c ∈ [100], 100 ≤ c) ∧
    (nextLevel 24 3 18001 1800 = (24, 4) ∧ nextLevel 30 0 18001 1800 = (29, 0) ∧ nextLevel 84 0 17099 1800 = (84, 0) ∧
      nextLevel 60 2 17099 1800 = (60, 1) ∧ nextLevel 60 2 17100 1800 = (60, 2)) := by decide +kernel

/-! ### Suspension, the step, the invariant -/

theorem witness_FaultSuspension : runs (at0 (fun w => { w with slot := 63 }) fun t => { t with core := 127 }) ∧
    (team (at0 (fun w => { w with slot := 63 }) fun t => { t with core := 127 })).core = 127 ∧
    (warp (at0 (fun w => { w with slot := 63 }) fun t => { t with core := 127 })).slot = 63 := by decide +kernel
/-- A schedule whose first entry is core 0's scheduler, over an addition that can issue, or one that waits for its operand. -/
def standing : State := State.reset.withFetchWord 32 0x40081000
def scheduled (w : State → State) : State := w standing
theorem witness_StepRunsDecoded : standing.schedule = [.issue 0 0] ∧
    Sys2Proof.Spec.alone (ticked standing []) 0 0 (theTeam standing) 0 (theWarp standing) baseHeader ∧
    okIs ((ticked standing []).fetchWord (theTeam standing) (theWarp standing).wordAddr.toNat) 0x40081000 = true ∧
    standsWell baseHeader (theWarp standing) 0x40081000 ∧ okIs (decodeWord 0x40081000) (.vAdd 1 1 0) = true ∧
    (isEvent (.thermalTrip 200) = true ∧ ({ standing with schedule := [.event (.thermalTrip 200)] } : State).boot = .up) := by
  unfold Sys2Proof.Spec.alone standsWell; decide +kernel
/-- Answers next, with the issue not held, or held. -/
def issuesWith (b : Bool) (o : Host.Outcome State Fault Refusal) : Bool :=
  match o with
  | .next s => s.held == b
  | _ => false
theorem witness_StepRunsDecoded_issues :
    issuesWith false (exec (.vAdd 1 1 0) { ticked standing [] with cur := some (1, 0), held := false }) = true := by decide +kernel
theorem witness_Scheduling : [((17, 3, (1, 0)) : Nat × Nat × (Nat × Nat)), (5, 2, (1, 1))] ≠ [] ∧
    (∃ y ∈ [((17, 3, (1, 0)) : Nat × Nat × (Nat × Nat)), (5, 2, (1, 1))], 17 ≤ y.1) ∧
    (∀ y ∈ [((16, 3, (1, 0)) : Nat × Nat × (Nat × Nat)), (5, 2, (1, 1))], y.1 < 17) ∧
    (({ State.reset with boot := .off, schedule := [.issue 0 0] } : State).boot = .off ∧ State.reset.teams = []) ∧
    (({ State.reset with boot := .failed 3 255, schedule := [.event (.tileProgrammed 7 0)] } : State).boot = .failed 3 255) := by decide +kernel
theorem witness_EncodeDecode : Instr.wf (.ldG .b32 .stream 5 2 16) = true ∧ encode (.ldG .b32 .stream 5 2 16) = some 0xC2214110 := by
  decide +kernel
theorem witness_DecodeEncode : 0xC2214110 < 2 ^ 32 ∧ decodeWord 0xC2214110 = .ok (.ldG .b32 .stream 5 2 16) :=
  ⟨by decide, okIs_ok _ _ (by decide +kernel)⟩
theorem witness_ControlsKept : controlsOk standing ∧ issuesWith false (step standing) = true := by
  unfold controlsOk; decide +kernel

end Sys2Proof.Tests
end

section
/-! SUPPORT. What the rules of the array controllers read and write: regions, ADs, worlds and logs after an update, the state beyond
what a memory access can change, HEALTH, flags and journals. -/

namespace Sys2Proof.Machine

/-! ### Numbered tables: what was put is read back -/

@[simp] theorem State.region_setRegion_self (s : State) (n : Nat) (r : Region) : (s.setRegion n r).region n = r := by
  simp [State.region]
@[simp] theorem State.ad_setAd_self (s : State) (a : Nat) (x : Ad) : (s.setAd a x).ad a = x := by simp [State.ad]
@[simp] theorem State.world_setWorld_self (s : State) (w : Nat) (x : World) : (s.setWorld w x).world w = x := by simp [State.world]
@[simp] theorem State.region_post (s : State) (ty w src n : Nat) (b : List Byte) : (s.post ty w src b).region n = s.region n := rfl

theorem State.world_congr {s s' : State} (h : s'.worlds = s.worlds) (w : Nat) : s'.world w = s.world w := by
  simp [State.world, h]

/-- The entries of a map whose keys satisfy `p` are found as before, the others not at all. -/
theorem KMap.find_filter_key {α : Type} (m : KMap α) (p : Nat → Bool) (k : Nat) :
    KMap.find (m.filter fun e => p e.1) k = if p k then KMap.find m k else none := by
  induction m with
  | nil => simp [KMap.find]
  | cons e r ih =>
    obtain ⟨j, v⟩ := e
    by_cases hj : p j = true
    · by_cases hk : j = k
      · simp [List.filter, KMap.find, ← hk, hj]
      · simp [List.filter, KMap.find, hj, hk, ih]
    · by_cases hk : j = k
      · subst hk
        simp [List.filter, hj, ih]
      · simp [List.filter, KMap.find, hj, hk, ih]

/-! ### Bits -/

theorem bitOf_add_two_pow_self {f b : Nat} (h : bitOf f b = false) : bitOf (f + 2 ^ b) b = true := by
  have hd : (f + 2 ^ b) / 2 ^ b = f / 2 ^ b + 1 := Nat.add_div_right f (Nat.two_pow_pos b)
  simp only [bitOf, hd, beq_eq_false_iff_ne, beq_iff_eq] at h ⊢
  omega

/-- Adding a power of two leaves the bits below it. -/
theorem bitOf_add_two_pow_of_lt {b c : Nat} (f : Nat) (h : c < b) : bitOf (f + 2 ^ b) c = bitOf f c := by
  obtain ⟨d, rfl⟩ : ∃ d, b = c + 1 + d := ⟨b - (c + 1), by omega⟩
  have hd : (f + 2 ^ (c + 1 + d)) / 2 ^ c = f / 2 ^ c + 2 * 2 ^ d := by
    rw [show 2 ^ (c + 1 + d) = 2 * 2 ^ d * 2 ^ c by ring, Nat.add_mul_div_right _ _ (Nat.two_pow_pos c)]
  simp only [bitOf, hd, Nat.add_mul_mod_self_left]

/-! ### HEALTH (R295, R377) -/

@[simp] theorem State.settleHealth_region (s : State) (n : Nat) : s.settleHealth.region n = s.region n := by
  unfold State.settleHealth; dsimp only; split <;> rfl
@[simp] theorem State.settleHealth_teams (s : State) : s.settleHealth.teams = s.teams := by
  unfold State.settleHealth; dsimp only; split <;> rfl
@[simp] theorem State.settleHealth_soft (s : State) : s.settleHealth.soft = s.soft := by
  unfold State.settleHealth; dsimp only; split <;> rfl
@[simp] theorem State.settleHealth_layoutGen (s : State) : s.settleHealth.layoutGen = s.layoutGen := by
  unfold State.settleHealth; dsimp only; split <;> rfl
@[simp] theorem State.settleHealth_healthWord (s : State) : s.settleHealth.healthWord = s.healthWord := by
  unfold State.settleHealth; dsimp only; split <;> rfl

/-- HEALTH reads as its counts say once it has settled. -/
theorem State.settleHealth_health (s : State) : s.settleHealth.health = s.healthWord := by
  unfold State.settleHealth
  dsimp only
  split
  next h => exact h.symm
  next => rfl

/-- A record takes its source's next sequence number. -/
theorem State.nextSeq_post_self (s : State) (ty w src : Nat) (b : List Byte) :
    (s.post ty w src b).nextSeq w src = (s.nextSeq w src + 1) % 2 ^ 32 := by
  simp [State.nextSeq, State.post]

/-- A change of HEALTH is one record of Suzin's to world 0. -/
theorem State.settleHealth_nextSeq {s : State} (h : s.settleHealth.health ≠ s.health) :
    s.settleHealth.nextSeq 0 suzinSource = (s.nextSeq 0 suzinSource + 1) % 2 ^ 32 := by
  have hne : ¬ s.healthWord = s.health := by rwa [State.settleHealth_health] at h
  unfold State.settleHealth
  simp only [hne, if_false, State.nextSeq_post_self]
  rfl

/-! ### Flags of a region (R279, R295) -/

/-- A region's flag bits with one more set. -/
def raiseFlag (f bit : Nat) : Nat := if bitOf f bit then f else f + 2 ^ bit

theorem bitOf_raiseFlag_self (f bit : Nat) : bitOf (raiseFlag f bit) bit = true := by
  unfold raiseFlag
  split
  · assumption
  · exact bitOf_add_two_pow_self (by simpa using ‹¬ bitOf f bit = true›)

theorem bitOf_raiseFlag_of_lt {b c : Nat} (f : Nat) (h : c < b) : bitOf (raiseFlag f b) c = bitOf f c := by
  unfold raiseFlag
  split
  · rfl
  · exact bitOf_add_two_pow_of_lt f h

@[simp] theorem State.setFlag_mem (s : State) (n bit : Nat) : (State.setFlag n s bit).mem = s.mem := by
  unfold State.setFlag; dsimp only; split <;> rfl
@[simp] theorem State.setFlag_teams (s : State) (n bit : Nat) : (State.setFlag n s bit).teams = s.teams := by
  unfold State.setFlag; dsimp only; split <;> rfl

/-- Of the region only its flags change. -/
theorem State.setFlag_region (s : State) (n bit : Nat) :
    (State.setFlag n s bit).region n = { s.region n with flags := raiseFlag (s.region n).flags bit } := by
  unfold State.setFlag raiseFlag
  dsimp only
  split
  · rfl
  · simp

/-- Flags set in order: of the region only its flags change. -/
theorem State.setFlags_region (s : State) (n : Nat) (bits : List Nat) :
    (s.setFlags n bits).region n = { s.region n with flags := bits.foldl raiseFlag (s.region n).flags } := by
  rw [State.setFlags, State.settleHealth_region]
  induction bits generalizing s with
  | nil => rfl
  | cons b r ih => rw [List.foldl_cons, List.foldl_cons, ih, State.setFlag_region]

@[simp] theorem State.setFlags_mem (s : State) (n : Nat) (bits : List Nat) : (s.setFlags n bits).mem = s.mem := by
  rw [State.setFlags, State.settleHealth_mem, State.foldl_mem _ fun s b => State.setFlag_mem s n b]

@[simp] theorem State.setFlags_teams (s : State) (n : Nat) (bits : List Nat) : (s.setFlags n bits).teams = s.teams := by
  rw [State.setFlags, State.settleHealth_teams]
  induction bits generalizing s with
  | nil => rfl
  | cons b r ih => rw [List.foldl_cons, ih, State.setFlag_teams]

/-- The lowest of the flags that are set stays set. -/
theorem bitOf_foldl_raiseFlag {bits : List Nat} {c : Nat} (f : Nat) (hb : ∀ b ∈ bits, c < b) :
    bitOf (bits.foldl raiseFlag f) c = bitOf f c := by
  induction bits generalizing f with
  | nil => rfl
  | cons b r ih =>
    rw [List.foldl_cons, ih _ fun x hx => hb x (List.mem_cons_of_mem _ hx),
      bitOf_raiseFlag_of_lt _ (hb b List.mem_cons_self)]

/-! ### Journals (R293) -/

@[simp] theorem State.takeImage_journal (s : State) (a id : Nat) : ((s.takeImage a id).ad a).journal = (s.ad a).journal := by
  simp [State.takeImage]
@[simp] theorem State.takeImage_seq (s : State) (a id : Nat) : ((s.takeImage a id).ad a).seq = (s.ad a).seq := by
  simp [State.takeImage]

/-- A journal with room keeps its records and takes the new one at its end. -/
theorem State.journal_room {s : State} {a : Nat} (ty g gen tile res : Nat) (d : List Byte)
    (h : (s.ad a).journal.length < journalCap) :
    ((s.journal a ty g gen tile res d).ad a).journal = (s.ad a).journal ++
      [{ ty := ty, region := g, gen := gen, seq := (s.ad a).seq, tile := tile, result := res, digest := d, torn := false }] := by
  have hz : (s.ad a).journal.length + 1 - journalCap = 0 := by omega
  simp [State.journal, hz]

end Sys2Proof.Machine
end

section
/-! SUPPORT. What a memory access leaves alone: every field of the state beyond memory, its gathered stores, the packets and the
records of their failures. -/

namespace Sys2Proof.Machine

/-- The state without the fields that an access to memory may change: memory and its lines, the faults and packets that meet it, the
gathered stores and older code, the teams (whose warps see writes), and HEALTH with its counts and the records posted. -/
def State.beyondMemory (s : State) : State :=
  { s with mem := [], lines := [], cellFaults := [], badPackets := [], nonces := [], gathers := [], oldCode := [], teams := [],
           sources := [], soft := State.reset.soft, health := 0 }

theorem State.worlds_of_beyondMemory {s s' : State} (h : s'.beyondMemory = s.beyondMemory) : s'.worlds = s.worlds := by
  have hw : s'.beyondMemory.worlds = s.beyondMemory.worlds := by rw [h]
  exact hw

/-- A world is as it was where nothing beyond memory has changed. -/
theorem State.world_of_beyondMemory {s s' : State} (h : s'.beyondMemory = s.beyondMemory) (w : Nat) : s'.world w = s.world w :=
  State.world_congr (State.worlds_of_beyondMemory h) w

theorem State.foldl_beyondMemory {α : Type} {f : State → α → State} (hf : ∀ s a, (f s a).beyondMemory = s.beyondMemory)
    (l : List α) (s : State) : (l.foldl f s).beyondMemory = s.beyondMemory := by
  induction l generalizing s with
  | nil => rfl
  | cons a r ih => rw [List.foldl_cons, ih, hf]

/-! ### Writes to the coherent memory -/

@[simp] theorem State.noteWrite_beyondMemory (s : State) (a : Option (Nat × Nat)) (line : Nat) :
    (s.noteWrite a line).beyondMemory = s.beyondMemory := rfl
@[simp] theorem State.setLineMeta_beyondMemory (s : State) (line : Nat) (m : LineMeta) :
    (s.setLineMeta line m).beyondMemory = s.beyondMemory := rfl
@[simp] theorem State.clearLine_beyondMemory (s : State) (line : Nat) : (s.clearLine line).beyondMemory = s.beyondMemory := rfl
@[simp] theorem State.touchLine_beyondMemory (s : State) (pa n : Nat) : (s.touchLine pa n).beyondMemory = s.beyondMemory := by
  unfold State.touchLine; split <;> rfl
@[simp] theorem State.keepCode_beyondMemory (s : State) (pa : Nat) (bs : List Byte) :
    (s.keepCode pa bs).beyondMemory = s.beyondMemory := by
  unfold State.keepCode; dsimp only; split <;> rfl

@[simp] theorem State.writeMemLine_beyondMemory (s : State) (a : Option (Nat × Nat)) (pa : Nat) (bs : List Byte) :
    (s.writeMemLine a pa bs).beyondMemory = s.beyondMemory := by
  rw [State.writeMemLine, State.noteWrite_beyondMemory, State.touchLine_beyondMemory]
  exact State.keepCode_beyondMemory s pa bs

theorem State.writeMemGo_beyondMemory (a : Option (Nat × Nat)) (f : Nat) (s : State) (pa : Nat) (bs : List Byte) :
    (State.writeMemGo a f s pa bs).beyondMemory = s.beyondMemory := by
  induction f generalizing s pa bs with
  | zero => rfl
  | succ f ih =>
    rw [State.writeMemGo]
    split
    · rfl
    · rw [ih, State.writeMemLine_beyondMemory]

@[simp] theorem State.writeMem_beyondMemory (s : State) (a : Option (Nat × Nat)) (pa : Nat) (bs : List Byte) :
    (s.writeMem a pa bs).beyondMemory = s.beyondMemory := State.writeMemGo_beyondMemory ..

@[simp] theorem State.mergeList_beyondMemory (s : State) (gs : List Gathered) : (s.mergeList gs).beyondMemory = s.beyondMemory :=
  State.foldl_beyondMemory (fun _ _ => State.writeMem_beyondMemory ..) _ _

/-! ### Packets and failures -/

@[simp] theorem State.settleHealth_beyondMemory (s : State) : s.settleHealth.beyondMemory = s.beyondMemory := by
  unfold State.settleHealth; dsimp only; split <;> rfl
@[simp] theorem State.countEcc_beyondMemory (s : State) : s.countEcc.beyondMemory = s.beyondMemory :=
  State.settleHealth_beyondMemory _
@[simp] theorem State.dropPacket_beyondMemory (s : State) (line : Nat) : (s.dropPacket line).beyondMemory = s.beyondMemory :=
  State.settleHealth_beyondMemory _
@[simp] theorem State.lostWrite_beyondMemory (s : State) (w : Nat) (o : Origin) :
    (s.lostWrite w o).beyondMemory = s.beyondMemory := rfl
@[simp] theorem State.dramPackets_beyondMemory (s : State) (w line : Nat) (b : Bool) :
    (s.dramPackets w line b).beyondMemory = s.beyondMemory := by
  unfold State.dramPackets; dsimp only; split <;> rfl
@[simp] theorem State.homeTrip_beyondMemory (s : State) (c w line : Nat) (b : Bool) :
    (s.homeTrip c w line b).beyondMemory = s.beyondMemory := by
  unfold State.homeTrip; dsimp only; split <;> rfl

/-! ### Gathered stores -/

@[simp] theorem State.loseGathered_beyondMemory (s : State) (gone : List Gathered) :
    (s.loseGathered gone).beyondMemory = s.beyondMemory := by
  unfold State.loseGathered
  rw [State.foldl_beyondMemory fun _ _ => State.lostWrite_beyondMemory .., State.foldl_beyondMemory State.dropPacket_beyondMemory]
  rfl

@[simp] theorem State.mergeWhere_beyondMemory (s : State) (p : Gathered → Bool) :
    (s.mergeWhere p).beyondMemory = s.beyondMemory := by
  unfold State.mergeWhere
  rw [State.foldl_beyondMemory fun _ _ => State.clearLine_beyondMemory .., State.mergeList_beyondMemory]
  exact (State.foldl_beyondMemory (fun _ _ => State.homeTrip_beyondMemory ..) _ _).trans (State.loseGathered_beyondMemory ..)

@[simp] theorem State.snoopOwner_beyondMemory (s : State) (line : Nat) : (s.snoopOwner line).beyondMemory = s.beyondMemory := by
  unfold State.snoopOwner
  split
  · exact State.mergeWhere_beyondMemory ..
  · rfl

@[simp] theorem State.homeWrite_beyondMemory (s : State) (a : Option (Nat × Nat)) (pa : Nat) (bs : List Byte) :
    (s.homeWrite a pa bs).beyondMemory = s.beyondMemory := by
  rw [State.homeWrite, State.writeMem_beyondMemory, State.foldl_beyondMemory State.snoopOwner_beyondMemory]

/-! ### Reads of lines and walks -/

@[simp] theorem State.readCells_beyondMemory (w : Nat) (s : State) (line : Nat) :
    (State.readCells w s line).2.beyondMemory = s.beyondMemory := by
  have h0 : (if s.cachedLine w line then s else s.dramPackets w line false).beyondMemory = s.beyondMemory := by
    split <;> simp
  have h1 : ∀ (x : State) (m : KMap CellFault), ({ x with cellFaults := m } : State).beyondMemory = x.beyondMemory :=
    fun _ _ => rfl
  unfold State.readCells
  generalize (if s.cachedLine w line then s else s.dramPackets w line false) = s0 at h0
  dsimp only
  split
  · exact h0
  split
  · exact h0
  split
  · exact h0
  split
  · exact h0
  next c _ => rw [← h0]; cases c.fault.isSome <;> cases readCounts c <;> simp [h1]

@[simp] theorem State.readLine_beyondMemory (w : Nat) (s : State) (line : Nat) :
    (State.readLine w s line).2.beyondMemory = s.beyondMemory := by
  unfold State.readLine
  dsimp only
  split <;> simp

theorem State.readAll_beyondMemory {read : State → Nat → Option DataFault × State}
    (hr : ∀ s n, (read s n).2.beyondMemory = s.beyondMemory) (l : List Nat) (s : State) :
    (State.readAll read s l).2.beyondMemory = s.beyondMemory := by
  induction l generalizing s with
  | nil => rfl
  | cons n r ih =>
    have hn := hr s n
    rw [State.readAll]
    split
    next s1 h => rw [h] at hn; exact hn
    next s1 h => rw [h] at hn; rw [ih, hn]

theorem State.walk2_beyondMemory (w a n : Nat) (s : State) (tbl : Nat) :
    (State.walk2 w a n s tbl).2.beyondMemory = s.beyondMemory := by
  induction n generalizing s tbl with
  | zero => rfl
  | succ n ih =>
    have hd : ∀ pa, (s.readDesc w pa).2.beyondMemory = s.beyondMemory := fun _ => State.readLine_beyondMemory ..
    rw [State.walk2]
    split
    · exact hd _
    split
    · rw [ih, hd]
    · exact hd _

@[simp] theorem State.gpaWalk_beyondMemory (s : State) (w gpa : Nat) : (s.gpaWalk w gpa).2.beyondMemory = s.beyondMemory := by
  unfold State.gpaWalk
  split
  · exact State.walk2_beyondMemory ..
  · rfl

@[simp] theorem State.walkedGpa_beyondMemory (s : State) (w : Nat) (l : List Nat) :
    (s.walkedGpa w l).beyondMemory = s.beyondMemory :=
  State.foldl_beyondMemory (fun _ _ => State.gpaWalk_beyondMemory ..) _ _

/-! ### Guest-physical accesses (R371) -/

theorem State.gpaPut_beyondMemory (w f : Nat) (s : State) (gpa : Nat) (bs : List Byte) :
    (State.gpaPut w f s gpa bs).beyondMemory = s.beyondMemory := by
  induction f generalizing s gpa bs with
  | zero => rfl
  | succ f ih =>
    rw [State.gpaPut]
    split
    · rfl
    dsimp only
    split
    · rfl
    · rw [ih, State.homeWrite_beyondMemory]

theorem State.gpaWrite_ok_beyondMemory {s s' : State} {w gpa : Nat} {bs : List Byte} (h : s.gpaWrite w gpa bs = .ok s') :
    s'.beyondMemory = s.beyondMemory := by
  unfold State.gpaWrite at h
  dsimp only at h
  repeat' split at h
  all_goals cases h
  rw [State.gpaPut_beyondMemory, State.walkedGpa_beyondMemory]

theorem State.gpaWrite_error_beyondMemory {s : State} {w gpa : Nat} {bs : List Byte} {e : Nat × State}
    (h : s.gpaWrite w gpa bs = .error e) : e.2.beyondMemory = s.beyondMemory := by
  unfold State.gpaWrite at h
  dsimp only at h
  repeat' split at h
  all_goals cases h
  · exact State.walkedGpa_beyondMemory ..
  · exact (State.dropPacket_beyondMemory ..).trans (State.walkedGpa_beyondMemory ..)

theorem State.gpaRead_lines_beyondMemory (s : State) (w gpa n : Nat) (l : List Nat) :
    (State.readAll (State.readLine w) (s.walkedGpa w (pageStarts gpa n)) l).2.beyondMemory = s.beyondMemory := by
  rw [State.readAll_beyondMemory (State.readLine_beyondMemory w), State.walkedGpa_beyondMemory]

theorem State.gpaRead_ok_beyondMemory {s s' : State} {w gpa n : Nat} {b : List Byte} (h : s.gpaRead w gpa n = .ok (b, s')) :
    s'.beyondMemory = s.beyondMemory := by
  have hl := s.gpaRead_lines_beyondMemory w gpa n ((s.gpaLines w gpa n).map (·.1))
  unfold State.gpaRead at h
  dsimp only at h
  split at h
  · cases h
  split at h
  · cases h
  next s1 hs => cases h; rwa [hs] at hl

theorem State.gpaRead_error_beyondMemory {s : State} {w gpa n : Nat} {e : Nat × State} (h : s.gpaRead w gpa n = .error e) :
    e.2.beyondMemory = s.beyondMemory := by
  have hl := s.gpaRead_lines_beyondMemory w gpa n ((s.gpaLines w gpa n).map (·.1))
  unfold State.gpaRead at h
  dsimp only at h
  split at h
  · cases h; exact State.walkedGpa_beyondMemory ..
  split at h
  next hs => cases h; rwa [hs] at hl
  · cases h

end Sys2Proof.Machine
end

section
/-! SUPPORT. Scrubbed pages, log windows and delivered error records. -/

namespace Sys2Proof.Spec

open Sys2Proof.Machine

/-- An event comes about by what its meaning answers. -/
theorem yields_of_exec {e : Instr} {s s' : State} {p : State → Prop} (he : exec e s = .next s') (hp : p s') : yields e s p :=
  ⟨s', he, hp⟩

/-! ### A record of an access log written or lost (R342, R343) -/

/-- Writing a log's header changes nothing beyond memory. -/
theorem putLogHeader_beyondMemory (s : State) (w : Nat) : (s.putLogHeader w).beyondMemory = s.beyondMemory := by
  unfold State.putLogHeader
  extract_lets l put
  have hput : ∀ x off b, (put x off b).beyondMemory = x.beyondMemory := by
    intro x off b
    simp only [put]
    split
    next h => exact State.gpaWrite_ok_beyondMemory h
    next h => exact State.gpaWrite_error_beyondMemory h
  rw [hput, hput, hput]

/-- The world's log after its header has been written is the one whose header it was. -/
theorem log_putLogHeader_setWorld (s : State) (w : Nat) (x : World) : (((s.setWorld w x).putLogHeader w).world w).log = x.log := by
  rw [State.world_of_beyondMemory (putLogHeader_beyondMemory ..), State.world_setWorld_self]

/-- A lost record is counted, in a state that differs from the log's own by memory alone. -/
theorem log_loseLog {s s' : State} (w : Nat) (h : s'.beyondMemory = s.beyondMemory) :
    ((s'.loseLog w).world w).log = { (s.world w).log with lost := (s.world w).log.lost + 1 } := by
  rw [State.loseLog, log_putLogHeader_setWorld, State.world_of_beyondMemory h]

theorem writeLog_written {s s0 s1 : State} {w : Nat} {l : AccessLog} {p : LogPend} {b : List Byte} (hl : (s.world w).log = l)
    (hr : logRoom s l b s0) (hp : putsRecord s0 l p (.ok s1)) :
    ((State.writeLog w s p).world w).log.pend = l.pend ∧ ((State.writeLog w s p).world w).log.written = l.written + 1 ∧
      ((State.writeLog w s p).world w).log.lost = l.lost := by
  obtain ⟨hread, hroom⟩ := hr
  unfold putsRecord at hp
  simp only [State.writeLog, hl, hread, if_neg (Nat.not_le.2 hroom), hp, log_putLogHeader_setWorld, and_self]

/-- Why a record of a log is lost: CONSUMED cannot be read, the log is full, or the record's write fails. -/
def losesRecord (s : State) (l : AccessLog) (p : LogPend) : Prop :=
  (∃ e, s.gpaRead 0 (l.base + 8) 8 = .error e) ∨
  (∃ b s0, s.gpaRead 0 (l.base + 8) 8 = .ok (b, s0) ∧ (l.size - 64) / 32 ≤ (l.written + 2 ^ 64 - leVal b) % 2 ^ 64) ∨
  (∃ b s0 e, logRoom s l b s0 ∧ putsRecord s0 l p (.error e))

theorem writeLog_lost {s : State} {w : Nat} {l : AccessLog} {p : LogPend} (hl : (s.world w).log = l) (h : losesRecord s l p) :
    ((State.writeLog w s p).world w).log = { l with lost := l.lost + 1 } := by
  obtain ⟨e, hread⟩ | ⟨b, s0, hread, hfull⟩ | ⟨b, s0, e, ⟨hread, hroom⟩, hput⟩ := h
  · simp only [State.writeLog, hl, hread, log_loseLog w (State.gpaRead_error_beyondMemory hread)]
  · simp only [State.writeLog, hl, hread, if_pos hfull, log_loseLog w (State.gpaRead_ok_beyondMemory hread)]
  · have hb := (State.gpaWrite_error_beyondMemory hput).trans (State.gpaRead_ok_beyondMemory hread)
    unfold putsRecord at hput
    simp only [State.writeLog, hl, hread, if_neg (Nat.not_le.2 hroom), hput, log_loseLog w hb]

section
variable {s sq : State} {w : Nat} {l : AccessLog} {p : LogPend}
  (hsq : sq = s.setWorld w { s.world w with log := { l with pend := [] } })
include hsq

/-- The log without its pending records. -/
theorem log_noPending : (sq.world w).log = { l with pend := [] } := by rw [hsq, State.world_setWorld_self]

/-- The window of a log's one pending record ends: the record is written or lost in the state without it. -/
theorem exec_logWindowClose_one (hl : l = (s.world w).log) (hp : l.pend = [p]) (ht : p.time / 1600 < s.hubTime / 1600) :
    exec (.logWindowClose w) s = .next (State.writeLog w sq p) := by
  show execLogWindowClose w s = _
  simp [execLogWindowClose, ← hl, hp, logWindow, ht, hsq]

end

/-! ### A scrubbed page (R337) -/

theorem lineMeta_setLineMeta_self (s : State) (line : Nat) (m : LineMeta) : (s.setLineMeta line m).lineMeta line = m := by
  unfold State.setLineMeta State.lineMeta
  dsimp only
  split
  next h => simp [KMap.find_erase_self, h]
  next => simp

theorem lineMeta_setLineMeta_other (s : State) {line k : Nat} (m : LineMeta) (h : k ≠ line) :
    (s.setLineMeta line m).lineMeta k = s.lineMeta k := by
  unfold State.setLineMeta State.lineMeta
  dsimp only
  split
  · rw [KMap.find_erase_other _ h]
  · rw [KMap.find_put_other _ _ _ h]

/-- What a scrub does to line `line`: whole, and with Z as given. -/
def scrubLine (z : Bool) (s : State) (line : Nat) : State := (s.clearLine line).setLineMeta line { p := false, z := z }

theorem zeroPage_eq (s : State) (page : Nat) : s.zeroPage page =
    (List.range 128).foldl (fun x i => scrubLine (!s.potPim page) x (128 * page + i))
      { s with mem := s.mem.filter fun b => pageOf b.1 != page } := rfl

theorem scrubLine_poison (z : Bool) (s : State) (line k : Nat) :
    ((scrubLine z s line).lineMeta k).p = if k = line then false else (s.lineMeta k).p := by
  unfold scrubLine
  by_cases h : k = line
  · simp only [h, lineMeta_setLineMeta_self, if_true]
  · rw [lineMeta_setLineMeta_other _ _ h, State.clearLine, lineMeta_setLineMeta_other _ _ h, if_neg h]
    rfl

/-- After some lines of a page are scrubbed, none of them is poisoned. -/
theorem scrubLines_poison (z : Bool) (page k : Nat) (l : List Nat) (s : State) :
    ((l.foldl (fun x i => scrubLine z x (128 * page + i)) s).lineMeta k).p =
      if ∃ i ∈ l, k = 128 * page + i then false else (s.lineMeta k).p := by
  induction l generalizing s with
  | nil => simp
  | cons i r ih =>
    rw [List.foldl_cons, ih, scrubLine_poison]
    by_cases hi : k = 128 * page + i
    · simp [hi]
    · simp [hi]

theorem zeroPage_mem (s : State) (page : Nat) : (s.zeroPage page).mem = s.mem.filter fun b => pageOf b.1 != page := by
  exact State.foldl_mem (fun x i => scrubLine (!s.potPim page) x (128 * page + i)) (fun _ _ => rfl) _ _

/-- Bytes of the page read zero, the others as before. -/
theorem get_zeroPage (s : State) (page x : Nat) : Sparse.get memDefault (s.zeroPage page).mem x =
    if x / 16384 = page then 0 else Sparse.get memDefault s.mem x := by
  rw [zeroPage_mem, Sparse.get, KMap.find_filter_key s.mem (fun k => pageOf k != page)]
  by_cases h : x / 16384 = page
  · simp [pageOf, h, memDefault]
  · simp [pageOf, h, Sparse.get]

theorem zeroPage_poison (s : State) {page n : Nat} (h : n < 128) : ((s.zeroPage page).lineMeta (128 * page + n)).p = false := by
  rw [zeroPage_eq, scrubLines_poison, if_pos ⟨n, List.mem_range.2 h, rfl⟩]

theorem lineMeta_setPot (s : State) (page line : Nat) (e : BitVec 16) : (s.setPot page e).lineMeta line = s.lineMeta line := rfl

/-! #### Fields of a POT entry (R320) -/

theorem potEntry_toNat {w st g : Nat} (pim : Bool) (hw : w < 32) (hst : st < 4) (hg : g < 256) :
    (potEntry w st pim g).toNat = w * 2 ^ 11 + st * 2 ^ 9 + (if pim then 256 else 0) + g := by
  rw [potEntry, BitVec.toNat_ofNat, Nat.mod_eq_of_lt]
  · omega
  · split <;> omega

section
variable (s : State) (page : Nat) {w st g : Nat} (pim : Bool) (hw : w < 32) (hst : st < 4) (hg : g < 256)
include hw hst hg

theorem potWorld_setPot : (s.setPot page (potEntry w st pim g)).potWorld page = w := by
  simp only [State.potWorld, State.setPot_pot, Sparse.get_set_self, potEntry_toNat pim hw hst hg, field]
  cases pim <;> simp <;> omega
theorem potState_setPot : (s.setPot page (potEntry w st pim g)).potState page = st := by
  simp only [State.potState, State.setPot_pot, Sparse.get_set_self, potEntry_toNat pim hw hst hg, field]
  cases pim <;> simp <;> omega
theorem potPim_setPot : (s.setPot page (potEntry w st pim g)).potPim page = pim := by
  simp only [State.potPim, State.setPot_pot, Sparse.get_set_self, potEntry_toNat pim hw hst hg, bitOf]
  cases pim <;> simp <;> omega
theorem potSgen_setPot : (s.setPot page (potEntry w st pim g)).potSgen page = g := by
  simp only [State.potSgen, State.setPot_pot, Sparse.get_set_self, potEntry_toNat pim hw hst hg, field]
  cases pim <;> simp <;> omega

end

theorem field_lt (v hi lo : Nat) : field v hi lo < 2 ^ (hi + 1 - lo) := Nat.mod_lt _ (Nat.two_pow_pos _)

/-! ### Error records in package values (R29 to R31) -/

theorem adRotation_entryAd_lt (e : Nat) : adRotation (entryAd e) < 4 := by
  have h : entryAd e < 2 ^ 4 := field_lt e 31 28
  unfold adRotation
  omega

/-- A plane named by package coordinates in the grid has these coordinates. -/
theorem planePx_planeAt {r px py : Nat} (hr : r < 4) (hx : px < (planeGrid r).1) (hy : py < (planeGrid r).2) :
    planePx r (planeAt r px py) = px ∧ planePy r (planeAt r px py) = py := by
  obtain rfl | rfl | rfl | rfl : r = 0 ∨ r = 1 ∨ r = 2 ∨ r = 3 := by omega
  all_goals
    norm_num [planeGrid] at hx hy
    simp only [planePx, planePy, planeAt, planeX, planeY]
    omega

/-- A logical channel turned back by its die's rotation is the physical one. -/
theorem logicalChannel_turned {r f : Nat} (hf : f < 8) : (logicalChannel r f + 2 * r) % 8 = f := by
  unfold logicalChannel
  omega

end Sys2Proof.Spec
end

section
/-! SUPPORT. Pavane's arithmetic against R288 and R289, and what the start and the end of a batch leave. -/

namespace Sys2Proof.Spec

open Sys2Proof.Machine

/-! ### New offset and gain (R288) -/

theorem pavaneOffset_eq (ec alpha : Nat) (c : Column) (zs : Int) (d : Nat) :
    (pavaneOffset ec alpha c (XR.ofFrac zs d, 0)).1 = newOffset ec alpha (f32 c.g) (f32 c.o) zs d := rfl

/-- What one code sum adds to the sum of a column's probes. -/
def addProbe (ec : Nat) (g o m : XF) (a : Int) : XF := r64 (xadd m (r64 (xadd (r64 (xmul (xpow ec (xint a)) g)) o)))

theorem foldl_addProbe (ec : Nat) (g o : XF) (as : List Int) (m : XF) :
    (as.foldl (addProbe ec g o) m).1 = probeSum ec g.1 o.1 as m.1 := by
  induction as generalizing m with
  | nil => rfl
  | cons a r ih => rw [List.foldl_cons, ih]; rfl

/-- The condition of R288 on the reference sum, as the model tests it. -/
theorem gainMoves_iff (ref : Int) (m : XR) :
    (ref ≠ 0 ∧ (!m.isNaN) = true ∧ (!m.isZero) = true ∧ (decide (0 < ref) == XR.lt (XR.ofInt 0) m) = true) ↔
      (ref ≠ 0 ∧ m.isNaN = false ∧ m.isZero = false ∧ (0 < ref ↔ XR.lt (XR.ofInt 0) m = true)) := by
  cases XR.lt (XR.ofInt 0) m <;> simp

theorem gainStep_fst (alpha : Nat) (g m : XF) (ref : Int) :
    (if ref ≠ 0 ∧ !m.1.isNaN ∧ !m.1.isZero ∧ (decide (0 < ref) == XR.lt (XR.ofInt 0) m.1) then
      r64 (xadd g (xpow (-(alpha : Int)) (xsub (r64 (xdiv (xmul g (xint ref)) m)) g))) else g).1 = newGain alpha g.1 ref m.1 := by
  unfold newGain
  by_cases h : ref ≠ 0 ∧ m.1.isNaN = false ∧ m.1.isZero = false ∧ (0 < ref ↔ XR.lt (XR.ofInt 0) m.1 = true)
  · rw [if_pos h, if_pos ((gainMoves_iff ref m.1).2 h)]
    rfl
  · rw [if_neg h, if_neg fun hm => h ((gainMoves_iff ref m.1).1 hm)]

theorem pavaneGain_eq (ec alpha : Nat) (c : Column) (ref : Int) (as : List Int) :
    (pavaneGain ec alpha c ref as).1 =
      newGain alpha (f32 c.g) ref (probeSum ec (f32 c.g) (f32 c.o) as (.fin false 0 1)) :=
  (gainStep_fst alpha (xf32 c.g) (as.foldl (addProbe ec (xf32 c.g) (xf32 c.o)) xzero) ref).trans (by rw [foldl_addProbe]; rfl)

/-! ### The limits (R289) -/

/-- No value lies below minus a bound and above it. -/
theorem XR.not_lt_neg_of_lt {n : Nat} {v : XR} (h : XR.lt (XR.ofInt n) v = true) : XR.lt v (XR.ofInt n).neg = false := by
  have hn : decide ((n : Int) < 0) = false := by simp
  cases v with
  | nan => rfl
  | inf s => cases s <;> simp_all [XR.lt, XR.ofInt, XR.le, XR.neg, XR.isNaN]
  | fin s m d =>
    simp only [XR.lt, XR.ofInt, hn, XR.le, XR.neg, XR.isNaN, signedNum] at h ⊢
    simp at h ⊢
    have : (0 : Int) ≤ n * d := by positivity
    linarith

/-- A bound and its negative may be tried in either order. -/
theorem XR.clamp_comm (n : Nat) (v : XR) :
    (if XR.lt (XR.ofInt n) v then XR.ofInt n else if XR.lt v (XR.ofInt n).neg then (XR.ofInt n).neg else v) =
      if XR.lt v (XR.ofInt n).neg then (XR.ofInt n).neg else if XR.lt (XR.ofInt n) v then XR.ofInt n else v := by
  by_cases h : XR.lt (XR.ofInt n) v = true
  · rw [if_pos h, if_neg (by simp [XR.not_lt_neg_of_lt h]), if_pos h]
  · rw [if_neg h, if_neg h]

/-- Gain and offset of a column after the limits. -/
theorem limitColumn_held (gr omax ec : Nat) (c : Column) (g o : XF) :
    ∃ og oo, heldTo (XR.ofFrac (16 - gr) 16) (XR.ofFrac (16 + gr) 16) (rnd fp32 g.1) (limitColumn gr omax ec c g o).g og ∧
      heldTo (XR.ofInt (omax * 2 ^ ec : Nat)).neg (XR.ofInt (omax * 2 ^ ec : Nat)) (rnd fp32 o.1)
        (limitColumn gr omax ec c g o).o oo ∧
      (limitColumn gr omax ec c g o).cflags = c.cflags ||| ((if og then 1 else 0) + if oo then 2 else 0) := by
  refine ⟨_, _, ⟨rfl, rfl⟩, ⟨rfl, ?_⟩, ?_⟩
  · rw [← XR.clamp_comm]
    rfl
  · rw [Bool.or_comm (XR.lt (rnd fp32 o.1) _), show ∀ b : Bool, (if b then 2 else 0) = 2 * boolBit b by decide]
    rfl

/-- Flags of a column are never cleared by a batch. -/
theorem limitColumn_keeps_flags (gr omax ec : Nat) (c : Column) (g o : XF) :
    c.cflags &&& (limitColumn gr omax ec c g o).cflags = c.cflags := by
  obtain ⟨og, oo, -, -, hf⟩ := limitColumn_held gr omax ec c g o
  refine Nat.eq_of_testBit_eq fun i => ?_
  rw [hf, Nat.testBit_and, Nat.testBit_or]
  exact inf_sup_self

/-! ### Free code sums -/

theorem freeInt_mem (fresh : Nat) {lo hi : Int} (h : lo ≤ hi) : lo ≤ freeInt fresh lo hi ∧ freeInt fresh lo hi ≤ hi := by
  have hlt : Config.freeNat fresh % (hi - lo + 1).toNat < (hi - lo + 1).toNat := Nat.mod_lt _ (by omega)
  rw [freeInt, if_neg (by omega)]
  omega

/-- A column's code sum of a probe: the sum over the tile rows of ADC codes of 12 bits. -/
theorem freeSum_mem (fresh : Nat) (r : Region) (c : Column) (D : Int) :
    -2048 * (tileRows r.k : Int) ≤ freeSum fresh r c D ∧ freeSum fresh r c D ≤ 2047 * (tileRows r.k : Int) := by
  have hany := freeInt_mem fresh (lo := -2048 * (tileRows r.k : Int)) (hi := 2047 * (tileRows r.k : Int)) (by omega)
  unfold freeSum
  dsimp only
  split
  · split
    next b _ =>
      by_cases hb : min (2047 * (tileRows r.k : Int)) b.2 < max (-2048 * (tileRows r.k : Int)) b.1
      · rw [freeInt, if_pos hb]
        omega
      · have hm := freeInt_mem fresh (not_lt.1 hb)
        omega
    next => exact hany
  · exact hany

theorem foldl_add_mem {lo hi : Int} {l : List Int} (h : ∀ x ∈ l, lo ≤ x ∧ x ≤ hi) :
    lo * l.length ≤ l.foldl (· + ·) 0 ∧ l.foldl (· + ·) 0 ≤ hi * l.length := by
  rw [← List.sum_eq_foldl]
  induction l with
  | nil => simp
  | cons a r ih =>
    have ha := h a List.mem_cons_self
    have hr := ih fun x hx => h x (List.mem_cons_of_mem _ hx)
    simp only [List.sum_cons, List.length_cons, Nat.cast_add, Nat.cast_one, mul_add, mul_one]
    omega

theorem refSum_mem (fresh : Nat) (r : Region) (np tc col : Nat) :
    -2048 * (tileRows r.k : Int) * np ≤ refSum fresh r np tc col ∧ refSum fresh r np tc col ≤ 2047 * (tileRows r.k : Int) * np := by
  have h := foldl_add_mem (lo := -2048 * (tileRows r.k : Int)) (hi := 2047 * (tileRows r.k : Int))
    (l := (List.range np).map fun p =>
      freeInt (fresh + (tc * 4 + col) * np + p) (-2048 * (tileRows r.k : Int)) (2047 * (tileRows r.k : Int))) (by
      intro x hx
      obtain ⟨p, -, rfl⟩ := List.mem_map.1 hx
      exact freeInt_mem _ (by omega))
  rwa [List.length_map, List.length_range] at h

/-! ### The start of a batch (R285, R287) -/

/-- A probe of the batch that starts: built in, or of the owner's set (R287). -/
def nextProbe (s : State) (n p : Nat) : List Int :=
  if (s.region n).pav 17 16 = 0 then builtinProbe (s.region n).gen (s.region n).batches p (s.region n).k
  else s.ownerProbe n p (s.region n).k

/-- The batch that starts. -/
def nextBatch (s : State) (n : Nat) : Batch :=
  { cols := (s.region n).cols, ctl := (s.region n).pavane, probes := (List.range ((s.region n).pav 23 18)).map (nextProbe s n) }

theorem exec_pavaneBatchStart {s : State} {n : Nat} (hv : (s.region n).state = .valid)
    (ha : bitOf (s.region n).pavane.toNat 0 = true) (hb : (s.region n).batch = none) :
    exec (.pavaneBatchStart n) s = .next (s.setRegion n { s.region n with batch := some (nextBatch s n), probeDue := false }) := by
  show execPavaneBatchStart n s = _
  have hauto : (s.region n).auto = true := ha
  rw [execPavaneBatchStart, if_neg (by simp [hv, hauto, hb])]
  rfl

/-! ### The end of a batch (R288 to R290) -/

/-- The column that a batch started with. -/
def oldColumn (b : Batch) (j : Nat) : Column := b.cols.getD j { cs := 0, g := 0, o := 0, cflags := 0 }

/-- The code sums of column `j`, probe by probe. -/
def codeSums (fresh : Nat) (r : Region) (b : Batch) (j : Nat) : List Int :=
  ((b.probes.map fun p => probeRef r p j).zip (List.range b.probes.length)).map fun p =>
    freeSum (fresh + 4 * b.probes.length * tileCols r.n + 2 * (j * b.probes.length + p.2)) r (oldColumn b j) p.1

/-- The sum of the two zero reference columns of tile column `tc`. -/
def zeroSum (fresh : Nat) (r : Region) (b : Batch) (tc : Nat) : Int :=
  refSum fresh r b.probes.length tc 0 + refSum fresh r b.probes.length tc 1

theorem codeSums_length (fresh : Nat) (r : Region) (b : Batch) (j : Nat) : (codeSums fresh r b j).length = b.probes.length := by
  simp [codeSums]

theorem codeSums_mem {fresh : Nat} {r : Region} {b : Batch} {j : Nat} {a : Int} (h : a ∈ codeSums fresh r b j) :
    -2048 * (tileRows r.k : Int) ≤ a ∧ a ≤ 2047 * (tileRows r.k : Int) := by
  obtain ⟨p, -, rfl⟩ := List.mem_map.1 h
  exact freeSum_mem ..

theorem zeroSum_mem (fresh : Nat) (r : Region) (b : Batch) (tc : Nat) :
    -4096 * (tileRows r.k * b.probes.length : Nat) ≤ zeroSum fresh r b tc ∧
      zeroSum fresh r b tc ≤ 4094 * (tileRows r.k * b.probes.length : Nat) := by
  have h0 := refSum_mem fresh r b.probes.length tc 0
  have h1 := refSum_mem fresh r b.probes.length tc 1
  simp only [mul_assoc] at h0 h1
  unfold zeroSum
  push_cast
  omega

theorem probeRefs_sum (r : Region) (b : Batch) (j : Nat) : (b.probes.map fun p => probeRef r p j).foldl (· + ·) 0 = golden r b j := by
  simp only [golden, probeRef, List.sum_eq_foldl]

/-- A column that a batch leaves: the gain and offset of R288 held to the limits of R289. -/
theorem batchColumns_getElem? {fresh : Nat} {r : Region} {b : Batch} {j : Nat} {c' : Column}
    (h : (batchColumns fresh r b)[j]? = some c') :
    c' = limitColumn (pavField b.ctl 31 28) (pavField b.ctl 39 32) r.ec (oldColumn b j)
      (pavaneGain r.ec (pavField b.ctl 27 24) (oldColumn b j) (golden r b j) (codeSums fresh r b j))
      (pavaneOffset r.ec (pavField b.ctl 27 24) (oldColumn b j)
        (XR.ofFrac (zeroSum fresh r b (j / 512)) (2 * b.probes.length), 0)) := by
  unfold batchColumns at h
  rw [List.getElem?_map] at h
  obtain ⟨i, hi, rfl⟩ := Option.map_eq_some_iff.1 h
  obtain ⟨-, rfl⟩ := List.getElem?_eq_some_iff.1 hi
  simp only [List.getElem_range, ← probeRefs_sum]
  rfl

theorem oldColumn_eq {b : Batch} {j : Nat} {c : Column} (h : b.cols[j]? = some c) : oldColumn b j = c := by
  simp [oldColumn, h]

/-- Every column after a batch: gain and offset as R288 and R289 have them, from the batch's code sums. -/
theorem batchColumns_after {fresh : Nat} {r : Region} {b : Batch} {j : Nat} {c c' : Column} (hc : b.cols[j]? = some c)
    (hc' : (batchColumns fresh r b)[j]? = some c') :
    columnAfter r b j c c' (codeSums fresh r b j) (zeroSum fresh r b (j / 512)) := by
  rw [batchColumns_getElem? hc', oldColumn_eq hc]
  unfold columnAfter
  dsimp only
  rw [← pavaneGain_eq, ← pavaneOffset_eq]
  exact limitColumn_held ..

theorem batchColumns_keeps {fresh : Nat} {r : Region} {b : Batch} {j : Nat} {c c' : Column} (hc : b.cols[j]? = some c)
    (hc' : (batchColumns fresh r b)[j]? = some c') : c'.cs = c.cs ∧ c.cflags &&& c'.cflags = c.cflags := by
  rw [batchColumns_getElem? hc', oldColumn_eq hc]
  exact ⟨rfl, limitColumn_keeps_flags ..⟩

theorem batchColumns_length (fresh : Nat) (r : Region) (b : Batch) : (batchColumns fresh r b).length = r.n := by
  simp [batchColumns]

/-- The region as a batch leaves it, before its flags are raised. -/
def batchDone (fresh : Nat) (r : Region) (b : Batch) : Region :=
  { r with cols := batchColumns fresh r b, batch := none, batches := (r.batches + 1) % 2 ^ 32, winOver := false }

/-- A column's flag raises flag 0 of its region (R289), which the flags raised after it leave set. -/
theorem columnFlag_raised {cols : List Column} {bits : List Nat} (f : Nat) (hbits : ∀ x ∈ bits, 0 < x)
    (h : ∃ c ∈ cols, c.cflags ≠ 0) :
    bitOf (((if cols.any fun c => c.cflags != 0 then [0] else []) ++ bits).foldl raiseFlag f) 0 = true := by
  have hany : (cols.any fun c => c.cflags != 0) = true := by simpa using h
  rw [if_pos hany]
  exact (bitOf_foldl_raiseFlag _ hbits).trans (bitOf_raiseFlag_self ..)

/-- The columns are replaced and flags raised: flag 0 where a column has a flag, then `bits`, the others that are due. -/
theorem exec_pavaneBatchComplete {s : State} {n : Nat} {b : Batch} (hv : (s.region n).state = .valid)
    (hb : (s.region n).batch = some b) : ∃ fresh bits, (∀ x ∈ bits, 0 < x) ∧
      exec (.pavaneBatchComplete n) s = .next ((({ s with fresh := fresh } : State).setRegion n
        (batchDone s.fresh (s.region n) b)).setFlags n
          ((if (batchColumns s.fresh (s.region n) b).any fun c => c.cflags != 0 then [0] else []) ++ bits)) := by
  refine ⟨s.fresh + 4 * b.probes.length * tileCols (s.region n).n + 2 * b.probes.length * (s.region n).n,
    (if (s.region n).winOver then [1] else []) ++ if refFlag s.fresh (s.region n) b then [2] else [], ?_, ?_⟩
  · intro x hx
    have : x = 1 ∨ x = 2 := by
      rcases List.mem_append.1 hx with h | h <;> split at h <;> simp_all
    omega
  · show execPavaneBatchComplete n s = _
    unfold execPavaneBatchComplete
    simp only [hb]
    rw [if_neg (not_not.2 hv), ← List.append_assoc]
    rfl

end Sys2Proof.Spec
end

section
/-! SUPPORT. The steps of freeing and reprogramming a region (R292), and the obligation on the array controllers. -/

namespace Sys2Proof.Spec

open Sys2Proof.Machine

/-! ### The next AD -/

theorem find?_of_pairwise_lt {l : List Nat} {q : Nat → Bool} {a : Nat} (hl : l.Pairwise (· < ·)) (ha : a ∈ l) (hq : q a = true)
    (hlt : ∀ x ∈ l, x < a → q x = false) : l.find? q = some a := by
  induction l with
  | nil => cases ha
  | cons b r ih =>
    obtain ⟨hb, hr⟩ := List.pairwise_cons.1 hl
    obtain rfl | har := List.mem_cons.1 ha
    · rw [List.find?_cons_of_pos hq]
    · rw [List.find?_cons_of_neg (by simp [hlt b List.mem_cons_self (hb a har)])]
      exact ih hr har fun x hx => hlt x (List.mem_cons_of_mem _ hx)

theorem placementAds_pairwise (p : List Nat) : (placementAds p).Pairwise (· < ·) := List.Pairwise.filter _ List.pairwise_lt_range

/-- No AD of the new placement is left once each has written its record. -/
theorem nextAd_none {r : Region} (h : ∀ x ∈ placementAds r.newPlacement, x ∈ r.stage) : r.nextAd = none := by
  simpa [Region.nextAd] using h

theorem nextAd_isSome {r : Region} {x : Nat} (hx : x ∈ placementAds r.newPlacement) (hs : x ∉ r.stage) : r.nextAd.isSome = true := by
  simpa [Region.nextAd] using ⟨x, hx, hs⟩

/-! ### A region given up (R291, R292) -/

theorem exec_revokeComplete_free {s : State} {n : Nat} (hs : (s.region n).state = .revoking) (hh : s.handled n = false)
    (ho : s.regionHeld n = false) (hn : (s.region n).next = .free) :
    exec (.revokeComplete n) s = .next (s.setRegion n (s.region n).freed) := by
  show execRevokeComplete n s = _
  simp [execRevokeComplete, hs, hh, ho, hn]

/-- A region after AD `a` has written INTENT: it is PROGRAMMING once every AD has. -/
def afterIntent (r : Region) (a : Nat) : Region :=
  let r1 : Region := { r with stage := r.stage ++ [a] }
  if r1.nextAd.isSome then r1 else { r1 with state := .programming, stage := [], progress := [], verified := [] }

theorem exec_revokeComplete_program {s : State} {n id a : Nat} {ctl : DWord} (hs : (s.region n).state = .revoking)
    (hh : s.handled n = false) (ho : s.regionHeld n = false) (hn : (s.region n).next = .program id ctl)
    (ha : (s.region n).nextAd = some a) :
    exec (.revokeComplete n) s = .next (((s.takeImage a id).journal a 1 n (s.region n).nextGen (tilesOn (s.region n).newPlacement a) 0
      (sha3 (s.region n).newGolden)).setRegion n (afterIntent (s.region n) a)) := by
  show execRevokeComplete n s = _
  simp only [execRevokeComplete, afterIntent, hs, hh, ho, hn, ha, ne_eq, not_true_eq_false, Bool.false_eq_true, or_self, if_false]

theorem afterIntent_gen (r : Region) (a : Nat) : (afterIntent r a).gen = r.gen := by
  unfold afterIntent; dsimp only; split <;> rfl

/-- The last AD's INTENT starts programming. -/
theorem afterIntent_last {r : Region} {a : Nat} (h : ∀ x ∈ placementAds r.newPlacement, x = a ∨ x ∈ r.stage) :
    (afterIntent r a).state = .programming := by
  have hn : ({ r with stage := r.stage ++ [a] } : Region).nextAd = none :=
    nextAd_none fun x hx => List.mem_append.2 ((h x hx).symm.imp_right (by simp [·]))
  simp [afterIntent, hn]

/-- Until then the region is as it was. -/
theorem afterIntent_more {r : Region} {a : Nat} (h : ∃ x ∈ placementAds r.newPlacement, x ≠ a ∧ x ∉ r.stage) :
    (afterIntent r a).state = r.state := by
  obtain ⟨x, hx, hxa, hxs⟩ := h
  have hn : ({ r with stage := r.stage ++ [a] } : Region).nextAd.isSome = true := nextAd_isSome hx (by simp [hxa, hxs])
  simp [afterIntent, hn]

/-! ### Tiles programmed (R292) -/

/-- A region after AD `a` has programmed its next tile: it is VERIFYING once every AD has programmed its last. -/
def afterTile (r : Region) (a : Nat) : Region :=
  let r1 : Region := { r with progress := KMap.put r.progress a (r.tilesDone a + 1) }
  if (placementAds r.newPlacement).all fun x => decide (tilesOn r.newPlacement x ≤ r1.tilesDone x)
  then { r1 with state := .verifying, stage := [], verified := [] } else r1

theorem exec_tileProgrammed {s : State} {n a : Nat} (hs : (s.region n).state = .programming)
    (ht : (s.region n).tilesDone a < tilesOn (s.region n).newPlacement a) :
    exec (.tileProgrammed n a) s = .next ((s.journal a 2 n (s.region n).nextGen ((s.region n).tilesDone a) 0 zeroHash).setRegion n
      (afterTile (s.region n) a)) := by
  show execTileProgrammed n a s = _
  rw [execTileProgrammed, if_neg (by simp [hs, ht])]
  rfl

theorem afterTile_progress (r : Region) (a : Nat) : (afterTile r a).progress = KMap.put r.progress a (r.tilesDone a + 1) := by
  unfold afterTile; dsimp only; split <;> rfl

theorem afterTile_verifying {r : Region} {a : Nat}
    (h : ∀ x ∈ placementAds r.newPlacement, tilesOn r.newPlacement x ≤ (afterTile r a).tilesDone x) :
    (afterTile r a).state = .verifying := by
  simp only [Region.tilesDone, afterTile_progress] at h
  unfold afterTile
  dsimp only
  split
  next => rfl
  next hn => exact absurd (List.all_eq_true.2 fun x hx => decide_eq_true (h x hx)) hn

/-! ### The verify pass (R292) -/

/-- A VERIFY record says that the worst error is at most 3 steps. -/
theorem bitOf_verifyResult (w : Nat) : bitOf (verifyResult w) 31 = decide (w ≤ 3) := by
  by_cases h : w ≤ 3 <;> simp [bitOf, verifyResult, h] <;> omega

/-- The next AD that has no VERIFY record writes it; the region keeps its outcome. -/
theorem exec_regionVerifyComplete_next {s : State} {n a : Nat} (hs : (s.region n).state = .verifying)
    (ha : (placementAds (s.region n).newPlacement).find? (fun x => (KMap.find (s.region n).verified x).isNone) = some a) :
    ∃ w fresh, exec (.regionVerifyComplete n) s = .next
      ((({ s with fresh := fresh } : State).journal a 3 n (s.region n).nextGen 0 (verifyResult w) zeroHash).setRegion n
        { s.region n with verified := KMap.put (s.region n).verified a (decide (w ≤ 3)) }) := by
  refine ⟨verifyWorst s.fresh (s.region n).newGolden (s.region n).nextGen (tilesAt (s.region n).newPlacement a),
    s.fresh + 8320 * (tilesAt (s.region n).newPlacement a).length, ?_⟩
  show execRegionVerifyComplete n s = _
  rw [execRegionVerifyComplete, if_neg (not_not.2 hs)]
  simp only [ha]

/-- Every AD has its VERIFY record: none is next. -/
theorem find?_verified_none {r : Region} (hv : ∀ x ∈ placementAds r.newPlacement, (KMap.find r.verified x).isSome = true) :
    (placementAds r.newPlacement).find? (fun x => (KMap.find r.verified x).isNone) = none :=
  List.find?_eq_none.2 fun x hx => by simp [Option.isSome_iff_ne_none.1 (hv x hx)]

section
variable {s : State} {n : Nat} (hs : (s.region n).state = .verifying)
  (hv : ∀ x ∈ placementAds (s.region n).newPlacement, (KMap.find (s.region n).verified x).isSome = true)
include hs hv

theorem exec_regionVerifyComplete_failed (hf : ∃ p ∈ (s.region n).verified, p.2 = false) :
    exec (.regionVerifyComplete n) s = .next (s.failRegion n) := by
  have hany : ((s.region n).verified.any fun p => !p.2) = true := by simpa using hf
  show execRegionVerifyComplete n s = _
  rw [execRegionVerifyComplete, if_neg (not_not.2 hs)]
  simp only [find?_verified_none hv, hany, if_true]

theorem exec_regionVerifyComplete_committed (hp : ∀ p ∈ (s.region n).verified, p.2 = true)
    (hst : ∀ x ∈ placementAds (s.region n).newPlacement, x ∈ (s.region n).stage) :
    exec (.regionVerifyComplete n) s = .next (s.commitRegion n) := by
  have hany : ((s.region n).verified.any fun p => !p.2) = false := by simpa using hp
  show execRegionVerifyComplete n s = _
  rw [execRegionVerifyComplete, if_neg (not_not.2 hs)]
  simp only [find?_verified_none hv, hany, nextAd_none hst, Bool.false_eq_true, if_false]

end

/-- A failed region: its flag 3 is set, and of the rest only the pending change is gone. -/
theorem failRegion_region (s : State) (n : Nat) : (s.failRegion n).region n =
    { s.region n with state := .failed, next := .none, stage := [], verified := [], flags := raiseFlag (s.region n).flags 3 } := by
  rw [State.failRegion, State.setFlags_region, State.region_setRegion_self]
  rfl

theorem commitRegion_region (s : State) (n : Nat) : (s.commitRegion n).region n = (s.region n).committed := by
  rw [State.commitRegion, State.settleHealth_region, State.region_setRegion_self]

theorem commitRegion_layoutGen (s : State) (n : Nat) : (s.commitRegion n).layoutGen = s.layoutGen + 1 := by
  rw [State.commitRegion, State.settleHealth_layoutGen]
  rfl

/-- A record appended where there is room, whatever then becomes of a region. -/
theorem journalled_journal {s : State} {a : Nat} (ty g gen tile res n : Nat) (d : List Byte) (r : Region) {p : JRecord → Prop}
    (hroom : (s.ad a).journal.length < journalCap)
    (hp : p { ty := ty, region := g, gen := gen, seq := (s.ad a).seq, tile := tile, result := res, digest := d, torn := false }) :
    journalled s ((s.journal a ty g gen tile res d).setRegion n r) a p :=
  ⟨_, State.journal_room ty g gen tile res d hroom, rfl, hp⟩

/-- A staged image leaves its pool without a trace in the journal. -/
theorem journalled_of_takeImage {s s' : State} {a id : Nat} {p : JRecord → Prop} (h : journalled (s.takeImage a id) s' a p) :
    journalled s s' a p := by
  simpa only [journalled, State.takeImage_journal, State.takeImage_seq] using h

/-! ### The obligation -/

/-- Settles O20, event by event: each event's equation gives the state it leaves, and the rules on regions, journals, flags, pages,
logs and HEALTH give what that state reads. -/
theorem arrayEvents : Obligations.ArrayEvents := by
  unfold Obligations.ArrayEvents
  refine ⟨?pavane, ?revoke, ?tile, ?verify, ?verified, ?scrub, ?log, ?record, ?health⟩
  case pavane =>
    rintro s n r rfl hv
    refine ⟨fun ha hb => ?_, fun b hb => ?_⟩
    · refine yields_of_exec (exec_pavaneBatchStart hv ha hb) ⟨rfl, nextBatch s n, State.region_setRegion_self .., rfl, rfl, ?_⟩
      exact (List.length_map _).trans List.length_range
    · obtain ⟨fresh, bits, hbits, he⟩ := exec_pavaneBatchComplete hv hb
      refine yields_of_exec he ?_
      rw [State.setFlags_region, State.region_setRegion_self, State.setFlags_mem, State.setFlags_teams]
      refine ⟨rfl, rfl, rfl, rfl, batchColumns_length .., rfl, rfl, fun j c c' => batchColumns_keeps,
        columnFlag_raised _ hbits, fun _ => ?_⟩
      exact ⟨codeSums s.fresh (s.region n) b, zeroSum s.fresh (s.region n) b, fun _ => zeroSum_mem .., fun j c c' hc hc' =>
        ⟨codeSums_length .., fun _ => codeSums_mem, fun _ _ => batchColumns_after hc hc'⟩⟩
  case revoke =>
    rintro s n r rfl hs hh ho
    refine ⟨fun hn => yields_of_exec (exec_revokeComplete_free hs hh ho hn) ?_, fun id a ⟨ctl, hn⟩ ha hroom =>
      yields_of_exec (exec_revokeComplete_program hs hh ho hn ha) ⟨?_, ?_⟩⟩
    · rw [State.region_setRegion_self]
      exact ⟨rfl, rfl, rfl, rfl, rfl, rfl⟩
    · exact journalled_of_takeImage (journalled_journal _ _ _ _ _ _ _ _ (by rwa [State.takeImage_journal]) ⟨rfl, rfl, rfl⟩)
    · rw [State.region_setRegion_self]
      exact ⟨afterIntent_gen .., afterIntent_last, fun h => (afterIntent_more h).trans hs⟩
  case tile =>
    rintro s n r a rfl hs ht hroom
    refine yields_of_exec (exec_tileProgrammed hs ht) ⟨journalled_journal _ _ _ _ _ _ _ _ hroom ⟨rfl, rfl, rfl⟩, ?_⟩
    rw [State.region_setRegion_self]
    exact ⟨afterTile_progress (s.region n) a ▸ KMap.find_put_self .., afterTile_verifying⟩
  case verify =>
    rintro s n r a rfl hs ha hnone hlt hroom
    have hfind := find?_of_pairwise_lt (q := fun x => (KMap.find (s.region n).verified x).isNone) (placementAds_pairwise _) ha
      (by simp [hnone]) fun x hx hxa => by simpa [Option.isSome_iff_ne_none] using hlt x hx hxa
    obtain ⟨w, fresh, he⟩ := exec_regionVerifyComplete_next hs hfind
    refine yields_of_exec he (journalled_journal (s := { s with fresh := fresh }) _ _ _ _ _ _ _ _ hroom ⟨rfl, ?_⟩)
    rw [State.region_setRegion_self, KMap.find_put_self, bitOf_verifyResult]
  case verified =>
    rintro s n r rfl hs hv
    refine ⟨fun hf => yields_of_exec (exec_regionVerifyComplete_failed hs hv hf) ?_, fun hp hst =>
      yields_of_exec (exec_regionVerifyComplete_committed hs hv hp hst) ?_⟩
    · rw [failRegion_region]
      exact ⟨rfl, rfl, rfl, rfl, bitOf_raiseFlag_self ..⟩
    · rw [commitRegion_region, commitRegion_layoutGen]
      exact ⟨rfl, rfl, rfl, rfl, rfl⟩
  case scrub =>
    intro s page hpage hst
    have hw : s.potWorld page < 32 := field_lt ..
    have hg : s.potSgen page < 256 := field_lt ..
    refine yields_of_exec (if_pos ⟨hpage, hst⟩) ⟨fun x hx => ?_, fun x hx => ?_, potState_setPot _ _ _ hw (by omega) hg,
      potWorld_setPot _ _ _ hw (by omega) hg, potPim_setPot _ _ _ hw (by omega) hg, potSgen_setPot _ _ _ hw (by omega) hg,
      fun k hk => ?_⟩
    · rw [State.setPot_mem, get_zeroPage, if_pos hx]
    · rw [State.setPot_mem, get_zeroPage, if_neg hx]
    · rw [lineMeta_setPot, zeroPage_poison s hk]
  case log =>
    intro s w l p sq hl hpend ht hsq
    have he := exec_logWindowClose_one hsq hl hpend ht
    refine ⟨fun b s0 s1 hr hp => yields_of_exec he (writeLog_written (log_noPending hsq) hr hp), fun h => yields_of_exec he ?_⟩
    rw [writeLog_lost (log_noPending hsq) h]
    exact ⟨rfl, rfl, rfl⟩
  case record =>
    rintro e column m d r rfl hx hy - rfl
    obtain ⟨hpx, hpy⟩ := planePx_planeAt (adRotation_entryAd_lt e) hx hy
    refine ⟨rfl, hpx, hpy, rfl, rfl, rfl, logicalChannel_turned ?_⟩
    show planeX _ / 4 < 8
    unfold planeX
    omega
  case health =>
    intro s soft link
    refine yields_of_exec rfl ⟨?_, State.settleHealth_mem _, State.settleHealth_soft _, State.settleHealth_nextSeq⟩
    rw [State.settleHealth_health, State.settleHealth_healthWord]

end Sys2Proof.Spec
end

section
/-! SUPPORT. What an instruction of the selected warp answers, as the statements put it: completed, held or faulted; the legality
and the poisoned sources that stand before a vector instruction's result; what the lanes' writes leave in the registers. -/

namespace Sys2Proof.Spec

open Sys2Proof.Machine

/-! ### From the answer of a meaning to the words of a statement -/

section
variable {i : Instr} {s s1 : State} {t : Team} {j : Nat} {w w' : Warp} {x : Trouble} {f : Team → Nat → Warp → Issue}
  (hc : s.curWarp = some (t, j, w)) (he : exec i s = onWarp s f)
include hc he

theorem leavesOn_of_done (hf : f t j w = .done s1 w') : leavesOn i s s1 t j w' := by
  rw [leavesOn, he, onWarp_some f hc, hf]; rfl

theorem leaves_of_done (hf : f t j w = .done s w') : leaves i s t j w' := leavesOn_of_done hc he hf

theorem exec_of_goto (hf : f t j w = .goto s1 w') : exec i s = .next (onlyWarp s1 t j w') := by
  rw [he, onWarp_some f hc, hf]; rfl

theorem holds_of_hold (hf : f t j w = .hold) : holds i s := by
  rw [holds, he, onWarp_some f hc, hf]; rfl

theorem raisesOn_of_trap (hf : f t j w = .trap s1 w' x) : raisesOn i s s1 t j w' x := by
  rw [raisesOn, he, onWarp_some f hc, hf]; rfl

theorem raises_of_trap (hf : f t j w = .trap s w' x) : raises i s t j w' x := raisesOn_of_trap hc he hf

end

/-! ### Legality of registers (R39, R76) -/

theorem okV_iff {t : Team} {r : Nat} : t.okV r = true ↔ has t r := decide_eq_true_iff
theorem okV2_iff {t : Team} {r : Nat} : t.okV2 r = true ↔ hasPair t r := by simp [Team.okV2, hasPair]
theorem okS2_eq_false {r : Nat} (h : r % 2 = 1) : okS2 r = false := by simp [okS2, h]
theorem okS2_eq_true {r : Nat} (h : r % 2 = 0) : okS2 r = true := by simp [okS2, h]

/-! ### Scalar instructions -/

section
variable {i : Instr} {s : State} {t : Team} {j : Nat} {w : Warp} {ok : Bool} {f : Warp → Warp}
  (hc : s.curWarp = some (t, j, w)) (he : exec i s = scalarOp s ok f)
include hc he

theorem leaves_of_scalarOp {w' : Warp} (hok : ok = true) (hw : f w = w') : leaves i s t j w' :=
  leaves_of_done hc he (by rw [hok, require_true, hw])

theorem raises_of_scalarOp (hok : ok = false) : raises i s t j w { code := .illegal } :=
  raises_of_trap hc he (by rw [hok, require_false])

end

/-! ### Poisoned sources (R181) -/

theorem range_split {l : Nat} (hl : l < 32) : List.range 32 = List.range l ++ l :: (List.range (31 - l)).map (l + 1 + ·) := by
  rw [show 32 = l + (1 + (31 - l)) by omega, List.range_add, List.range_add]
  simp [List.range_one, Nat.add_assoc]

/-- The lanes of a mask up to one of them. -/
theorem lanesOf_split {m : LaneMask} {l : Nat} (hl : l < 32) (hm : m.getLsbD l = true) :
    ∃ post, lanesOf m = (List.range l).filter m.getLsbD ++ l :: post :=
  ⟨((List.range (31 - l)).map (l + 1 + ·)).filter m.getLsbD, by
    rw [lanesOf, range_split hl, List.filter_append, List.filter_cons_of_pos hm]⟩

/-- The poison mark that is met is the one the model finds. -/
theorem poisoned_of_firstMark {w : Warp} {regs : List Nat} {m : LaneMask} {l : Nat} {p : Poison} (h : firstMark w regs m l p) :
    w.poisoned regs m = some (l, p) := by
  obtain ⟨hl, hm, hlow, pre, r, post, hregs, hr, hpre⟩ := h
  obtain ⟨rest, hs⟩ := lanesOf_split hl hm
  simp only [Warp.poisoned, List.head?_flatMap, List.head?_filterMap]
  refine List.findSome?_eq_some_iff.2 ⟨_, l, rest, hs, ?_, fun k hk => ?_⟩
  · exact List.findSome?_eq_some_iff.2 ⟨pre, r, post, hregs, by simp [hr], fun q hq => by simp [hpre q hq]⟩
  · obtain ⟨hkl, hkm⟩ := List.mem_filter.1 hk
    exact List.findSome?_eq_none_iff.2 fun q hq => by simp [hlow k (List.mem_range.1 hkl) hkm q hq]

theorem ofPoison_eq_ofMark (l : Nat) (p : Poison) : Trouble.ofPoison l p = ofMark l p := by
  unfold Trouble.ofPoison ofMark
  cases p.fault <;> rfl

/-! ### Vector instructions: legality, then poisoned sources, then the result (R79, R141, R181) -/

/-- The instruction checks that the team has its registers (`ok`), then that its sources are not poisoned in an active lane. -/
def Guarded (i : Instr) (s : State) (ok : Team → Bool) (srcs : List Nat) : Prop :=
  ∃ k : Team → Nat → Warp → Issue, exec i s = onWarp s fun t j w => require (ok t) s w <| reading s w srcs w.active (k t j w)

theorem guarded_laneOp {i : Instr} {s : State} {ok : Team → Bool} {srcs : List Nat} {f : Warp → Nat → List (Nat × Word)}
    (he : exec i s = laneOp s ok srcs f) : Guarded i s ok srcs :=
  ⟨fun _ _ w => .done s (w.writeLanes w.active (f w)), he⟩

theorem guarded_laneOpF {i : Instr} {s : State} {ok : Team → Bool} {srcs : List Nat} {f : Warp → Nat → List (Nat × Word) × Flags}
    (he : exec i s = laneOpF s ok srcs f) : Guarded i s ok srcs :=
  ⟨fun _ _ w => .done s ((w.writeLanes w.active fun l => (f w l).1).addFlags (orFlags ((lanesOf w.active).map fun l => (f w l).2))),
    he⟩

theorem guarded_predOp {i : Instr} {s : State} {p : Nat} {ok : Team → Bool} {srcs : List Nat} {f : Warp → Nat → Bool × Flags}
    (he : exec i s = predOp s p ok srcs f) : Guarded i s ok srcs :=
  ⟨fun _ _ w => .done s ((w.psetLanes p w.active ((lanesOf w.active).foldl (fun m l => if (f w l).1 then m ||| (1#32 <<< l) else m)
    (0 : LaneMask))).addFlags (orFlags ((lanesOf w.active).map fun l => (f w l).2))), he⟩

section
variable {i : Instr} {s : State} {t : Team} {j : Nat} {w : Warp} {ok : Team → Bool} {srcs : List Nat}
  (hc : s.curWarp = some (t, j, w))
include hc

theorem Guarded.illegal (hg : Guarded i s ok srcs) (hok : ¬ ok t = true) : raises i s t j w { code := .illegal } := by
  obtain ⟨k, he⟩ := hg
  exact raises_of_trap hc he (by rw [Bool.eq_false_of_not_eq_true hok, require_false])

theorem Guarded.marked (hg : Guarded i s ok srcs) {l : Nat} {p : Poison} (hok : ok t = true)
    (hm : firstMark w srcs w.active l p) : raises i s t j w (ofMark l p) := by
  obtain ⟨k, he⟩ := hg
  exact raises_of_trap hc he (by rw [hok, require_true, reading_some _ (poisoned_of_firstMark hm), ofPoison_eq_ofMark])

theorem leaves_of_laneOp {f : Warp → Nat → List (Nat × Word)} (he : exec i s = laneOp s ok srcs f) (hok : ok t = true)
    (hp : w.poisoned srcs w.active = none) : leaves i s t j (w.writeLanes w.active (f w)) :=
  leaves_of_done hc he (by rw [hok, require_true, reading_none _ hp])

theorem leaves_of_laneOpF {f : Warp → Nat → List (Nat × Word) × Flags} (he : exec i s = laneOpF s ok srcs f) (hok : ok t = true)
    (hp : w.poisoned srcs w.active = none) :
    leaves i s t j ((w.writeLanes w.active fun l => (f w l).1).addFlags (orFlags ((lanesOf w.active).map fun l => (f w l).2))) :=
  leaves_of_done hc he (by rw [hok, require_true, reading_none _ hp])

end

/-! ### Registers after the lanes' writes (R11, R141, R181) -/

theorem mem_lanesOf {m : LaneMask} {l : Nat} : l ∈ lanesOf m ↔ l < 32 ∧ m.getLsbD l = true := by
  simp [lanesOf, List.mem_filter]

/-- Values put in lanes of registers one after another, each as register, lane and value. -/
def putAll (w : Warp) (es : List (Nat × Nat × Word)) : Warp := es.foldl (fun x e => x.vset e.1 e.2.1 e.2.2) w

/-- The lanes' writes as one list. -/
theorem writeLanes_eq_putAll (w : Warp) (m : LaneMask) (f : Nat → List (Nat × Word)) :
    w.writeLanes m f = putAll w ((lanesOf m).flatMap fun l => (f l).map fun p => (p.1, l, p.2)) := by
  simp only [Warp.writeLanes, putAll, List.foldl_flatMap, List.foldl_map]

/-- A lane of a register that is not written keeps its value and its mark. -/
theorem putAll_other {es : List (Nat × Nat × Word)} {r l : Nat} (h : ∀ e ∈ es, vkey e.1 e.2.1 ≠ vkey r l) (w : Warp) :
    (putAll w es).vget r l = w.vget r l ∧ KMap.find (putAll w es).poison (vkey r l) = KMap.find w.poison (vkey r l) := by
  induction es generalizing w with
  | nil => exact ⟨rfl, rfl⟩
  | cons e es ih =>
    obtain ⟨hv, hp⟩ := ih (fun x hx => h x (List.mem_cons_of_mem _ hx)) (w.vset e.1 e.2.1 e.2.2)
    have he := h e List.mem_cons_self
    exact ⟨hv.trans (Warp.vget_vset_other w _ he.symm), hp.trans (KMap.find_erase_other _ he.symm)⟩

/-- A lane of a register that is written, with one value only, holds it without a mark. -/
theorem putAll_written {es : List (Nat × Nat × Word)} {r l : Nat} {v : Word} (hsome : ∃ e ∈ es, vkey e.1 e.2.1 = vkey r l)
    (hval : ∀ e ∈ es, vkey e.1 e.2.1 = vkey r l → e.2.2 = v) (w : Warp) :
    (putAll w es).vget r l = v ∧ KMap.find (putAll w es).poison (vkey r l) = none := by
  induction es generalizing w with
  | nil => obtain ⟨e, he, -⟩ := hsome; cases he
  | cons e es ih =>
    by_cases hlater : ∃ x ∈ es, vkey x.1 x.2.1 = vkey r l
    · exact ih hlater (fun x hx => hval x (List.mem_cons_of_mem _ hx)) _
    · have hnone : ∀ x ∈ es, vkey x.1 x.2.1 ≠ vkey r l := fun x hx hk => hlater ⟨x, hx, hk⟩
      have hk : vkey e.1 e.2.1 = vkey r l := by
        obtain ⟨x, hx, hk⟩ := hsome
        rcases List.mem_cons.1 hx with rfl | hx
        · exact hk
        · exact absurd hk (hnone x hx)
      obtain ⟨hg, hp⟩ := putAll_other hnone (w.vset e.1 e.2.1 e.2.2)
      refine ⟨hg.trans ?_, hp.trans ?_⟩
      · rw [Warp.vget, ← hk, ← hval e List.mem_cons_self hk]
        exact Warp.vget_vset_self ..
      · rw [← hk]
        exact KMap.find_erase_self ..

/-- Beyond the vector registers and their marks nothing of the warp changes. -/
theorem putAll_frame (es : List (Nat × Nat × Word)) (w : Warp) :
    putAll w es = { w with vregs := (putAll w es).vregs, poison := (putAll w es).poison } := by
  induction es generalizing w with
  | nil => rfl
  | cons e es ih => exact ih (w.vset e.1 e.2.1 e.2.2)

theorem mem_laneWrites {m : LaneMask} {f : Nat → List (Nat × Word)} {e : Nat × Nat × Word} :
    e ∈ (lanesOf m).flatMap (fun l => (f l).map fun p => (p.1, l, p.2)) ↔
      e.2.1 < 32 ∧ m.getLsbD e.2.1 = true ∧ (e.1, e.2.2) ∈ f e.2.1 := by
  obtain ⟨r, l, v⟩ := e
  simp only [List.mem_flatMap, mem_lanesOf, List.mem_map, Prod.mk.injEq]
  constructor
  · rintro ⟨k, ⟨hk, hm⟩, p, hp, rfl, rfl, rfl⟩
    exact ⟨hk, hm, hp⟩
  · rintro ⟨hl, hm, hp⟩
    exact ⟨l, ⟨hl, hm⟩, (r, v), hp, rfl, rfl, rfl⟩

section
variable {w : Warp} {m : LaneMask} {f : Nat → List (Nat × Word)}

/-- A lane of `m` holds what it wrote to a register, if it wrote one value to it. -/
theorem writeLanes_written {r l : Nat} {v : Word} (hl : l < 32) (hm : m.getLsbD l = true) (hv : (r, v) ∈ f l)
    (hone : ∀ p ∈ f l, p.1 = r → p.2 = v) :
    (w.writeLanes m f).vget r l = v ∧ KMap.find (w.writeLanes m f).poison (vkey r l) = none := by
  rw [writeLanes_eq_putAll]
  refine putAll_written ⟨(r, l, v), mem_laneWrites.2 ⟨hl, hm, hv⟩, rfl⟩ (fun e he hk => ?_) w
  obtain ⟨hel, -, hef⟩ := mem_laneWrites.1 he
  obtain ⟨hr, hlk⟩ := vkey_inj hel hl hk
  exact hone (e.1, e.2.2) (by rw [← hlk]; exact hef) hr

/-- What a lane does not write stays. -/
theorem writeLanes_other {r l : Nat} (hl : l < 32) (h : m.getLsbD l = true → ∀ p ∈ f l, p.1 ≠ r) :
    (w.writeLanes m f).vget r l = w.vget r l ∧ KMap.find (w.writeLanes m f).poison (vkey r l) = KMap.find w.poison (vkey r l) := by
  rw [writeLanes_eq_putAll]
  refine putAll_other (fun e he hk => ?_) w
  obtain ⟨hel, hem, hef⟩ := mem_laneWrites.1 he
  obtain ⟨hr, rfl⟩ := vkey_inj hel hl hk
  exact h hem _ hef hr

theorem writeLanes_frame :
    w.writeLanes m f = { w with vregs := (w.writeLanes m f).vregs, poison := (w.writeLanes m f).poison } := by
  rw [writeLanes_eq_putAll]
  exact putAll_frame ..

end

/-- One register written in each active lane. -/
theorem laneResult_writeLanes (w : Warp) (d : Nat) (g : Nat → Word) :
    laneResult w (w.writeLanes w.active fun l => [(d, g l)]) d g := by
  refine ⟨fun l hl ha => writeLanes_written hl ha List.mem_cons_self fun p hp _ => ?_,
    fun r l hl h => writeLanes_other hl fun ha p hp hr => ?_, writeLanes_frame⟩
  · rw [List.mem_singleton.1 hp]
  · rw [List.mem_singleton.1 hp] at hr
    rcases h with h | h
    · exact h hr.symm
    · simp [h] at ha

/-- A number's two halves, put together. -/
theorem append_halves (v : DWord) : (v.extractLsb' 32 32).append (v.extractLsb' 0 32) = v := by
  refine BitVec.eq_of_getLsbD_eq fun k hk => ?_
  show ((v.extractLsb' 32 32) ++ (v.extractLsb' 0 32)).getLsbD k = v.getLsbD k
  rw [BitVec.getLsbD_append]
  split
  next h => simp [h]
  next h => simp [show k - 32 < 32 by omega, show 32 + (k - 32) = k by omega]

/-- A pair written in each active lane. -/
theorem pairResult_writeLanes (w : Warp) (d : Nat) (g : Nat → DWord) :
    pairResult w (w.writeLanes w.active fun l => pairWrites d (g l)) d g := by
  refine ⟨fun l hl ha => ?_, fun r l hl h => writeLanes_other hl fun ha p hp hr => ?_, writeLanes_frame⟩
  · obtain ⟨hlo, hplo⟩ := writeLanes_written (w := w) (f := fun l => pairWrites d (g l)) (r := d) (v := (g l).extractLsb' 0 32) hl ha
      (by simp [pairWrites]) (by simp [pairWrites])
    obtain ⟨hhi, hphi⟩ := writeLanes_written (w := w) (f := fun l => pairWrites d (g l)) (r := d + 1) (v := (g l).extractLsb' 32 32) hl
      ha (by simp [pairWrites]) (by simp [pairWrites])
    exact ⟨by rw [Warp.vget64, hlo, hhi, append_halves], hplo, hphi⟩
  · simp only [pairWrites, List.mem_cons, List.not_mem_nil, or_false] at hp
    rcases h with ⟨h0, h1⟩ | h
    · rcases hp with rfl | rfl
      · exact h0 hr.symm
      · exact h1 hr.symm
    · simp [h] at ha

end Sys2Proof.Spec
end

section
/-! SUPPORT. The forms that the instructions of each list of a statement have, with what the statement says they compute. -/

namespace Sys2Proof.Spec

open Sys2Proof.Machine

/-! ### What the model's operations compute, as the statements write it (R143, R156) -/

theorem aluMulhiI32_eq : (aluMulhiI32 : Word → Word → Word) = fun a b => BitVec.ofInt 32 (a.toInt * b.toInt / 2 ^ 32) := by
  funext a b
  simp [aluMulhiI32, mulhiS]
theorem aluMinI32_eq (n : Nat) : (aluMinI32 : BitVec n → BitVec n → BitVec n) = fun a b => if a.toInt < b.toInt then a else b := by
  funext a b
  simp [aluMinI32, BitVec.slt]
theorem aluMaxI32_eq (n : Nat) : (aluMaxI32 : BitVec n → BitVec n → BitVec n) = fun a b => if a.toInt < b.toInt then b else a := by
  funext a b
  simp [aluMaxI32, BitVec.slt]
theorem aluMinN32_eq (n : Nat) : (aluMinN32 : BitVec n → BitVec n → BitVec n) = fun a b => if a.toNat < b.toNat then a else b := by
  funext a b
  simp [aluMinN32, BitVec.ult]
theorem aluMaxN32_eq (n : Nat) : (aluMaxN32 : BitVec n → BitVec n → BitVec n) = fun a b => if a.toNat < b.toNat then b else a := by
  funext a b
  simp [aluMaxN32, BitVec.ult]
theorem absI32_eq : absI32 = fun a => if a.toInt < 0 then -a else a := by
  funext a
  simp [absI32, BitVec.msb_eq_toInt]
theorem ofNat_countLeadingZeros (n : Nat) : (fun a : BitVec n => BitVec.ofNat 32 (countLeadingZeros a)) =
    fun a => BitVec.ofNat 32 (if a = 0 then n else n - 1 - Nat.log2 a.toNat) := by
  funext a
  simp only [countLeadingZeros, BitVec.toNat_eq, BitVec.ofNat_eq_ofNat, BitVec.toNat_ofNat, Nat.zero_mod]
theorem sat32_eq (v : Int) : sat32 v = BitVec.ofInt 32 (max (-2147483648) (min v 2147483647)) := by
  simp [sat32]

/-- A shift amount from 0 to 31 reads back. -/
theorem imm32_shift {n : Nat} (h : n ≤ 31) : (imm32 n).toNat % 32 = n := by
  have : ((n : Int) % 2 ^ 32).toNat = n := by omega
  rw [imm32, BitVec.toNat_ofInt]
  omega

/-! ### Scalar forms (R80, R143) -/

theorem exec_scalarWide {p : (Nat → Nat → Nat → Bool → Instr) × BinOp} (hp : p ∈ scalarWide) (d a b : Nat) (w : Bool) (s : State) :
    exec (p.1 d a b w) s = aluS s d a b w (p.2 32) (p.2 64) := by
  simp only [scalarWide, List.mem_cons, List.not_mem_nil, or_false] at hp
  rcases hp with rfl | rfl | rfl | rfl | rfl | rfl | rfl | rfl <;> rfl

theorem exec_scalarCompares {p : (Nat → Nat → Nat → Bool → Instr) × CmpOp} (hp : p ∈ scalarCompares) (d a b : Nat) (w : Bool)
    (s : State) : exec (p.1 d a b w) s = cmpS s d a b w (p.2 32) (p.2 64) := by
  simp only [scalarCompares, List.mem_cons, List.not_mem_nil, or_false] at hp
  rcases hp with rfl | rfl | rfl | rfl | rfl | rfl | rfl | rfl | rfl | rfl <;> rfl

theorem exec_scalarImm {p : (Nat → Nat → Int → Instr) × (Word → Word → Word)} (hp : p ∈ scalarImm) (d a : Nat) (imm : Int)
    (s : State) : exec (p.1 d a imm) s = aluSI s d a imm p.2 := by
  simp only [scalarImm, ← aluMulhiI32_eq, ← aluMinI32_eq, ← aluMaxI32_eq, ← aluMinN32_eq, ← aluMaxN32_eq, List.mem_cons,
    List.not_mem_nil, or_false] at hp
  rcases hp with rfl | rfl | rfl | rfl | rfl | rfl | rfl | rfl | rfl | rfl | rfl | rfl <;> rfl

theorem exec_scalarImmShifts {p : (Nat → Nat → Int → Instr) × (Word → Nat → Word)} (hp : p ∈ scalarImmShifts) (d a : Nat)
    (imm : Int) (s : State) : exec (p.1 d a imm) s = shiftSI s d a imm fun x y => p.2 x (y.toNat % 32) := by
  simp only [scalarImmShifts, List.mem_cons, List.not_mem_nil, or_false] at hp
  rcases hp with rfl | rfl | rfl <;> rfl

theorem exec_scalarImmCompares {p : (Nat → Nat → Int → Instr) × (Word → Word → Bool)} (hp : p ∈ scalarImmCompares) (d a : Nat)
    (imm : Int) (s : State) : exec (p.1 d a imm) s = cmpSI s d a imm p.2 := by
  simp only [scalarImmCompares, List.mem_cons, List.not_mem_nil, or_false] at hp
  rcases hp with rfl | rfl | rfl | rfl | rfl | rfl | rfl | rfl | rfl | rfl <;> rfl

/-! ### Vector forms (R83, R84, R156 to R158) -/

theorem exec_vectorOps {p : (Nat → Nat → Nat → Instr) × (Word → Word → Word)} (hp : p ∈ vectorOps) (d a b : Nat) (s : State) :
    exec (p.1 d a b) s = vecVV s d a b p.2 := by
  simp only [vectorOps, ← aluMulhiI32_eq, ← aluMinI32_eq, ← aluMaxI32_eq, ← aluMinN32_eq, ← aluMaxN32_eq, ← sat32_eq, List.mem_cons,
    List.not_mem_nil, or_false] at hp
  rcases hp with rfl | rfl | rfl | rfl | rfl | rfl | rfl | rfl | rfl | rfl | rfl | rfl | rfl | rfl | rfl | rfl | rfl <;> rfl

theorem exec_vectorUnary {p : (Nat → Nat → Instr) × (Word → Word)} (hp : p ∈ vectorUnary) (d a : Nat) (s : State) :
    exec (p.1 d a) s = vecV s d a p.2 := by
  simp only [vectorUnary, ← absI32_eq, ← ofNat_countLeadingZeros 32, List.mem_cons, List.not_mem_nil, or_false] at hp
  rcases hp with rfl | rfl | rfl | rfl <;> rfl

theorem exec_vectorImm {p : (Nat → Nat → Int → Instr) × (Word → Word → Word)} (hp : p ∈ vectorImm) (d a : Nat) (imm : Int)
    (s : State) : exec (p.1 d a imm) s = vecVI s d a imm true p.2 := by
  simp only [vectorImm, ← aluMulhiI32_eq, ← aluMinI32_eq, ← aluMaxI32_eq, ← aluMinN32_eq, ← aluMaxN32_eq, List.mem_cons,
    List.not_mem_nil, or_false] at hp
  rcases hp with rfl | rfl | rfl | rfl | rfl | rfl | rfl | rfl | rfl | rfl | rfl | rfl <;> rfl

theorem exec_vectorImmShifts {p : (Nat → Nat → Int → Instr) × (Word → Nat → Word)} (hp : p ∈ vectorImmShifts) (d a : Nat)
    (imm : Int) (s : State) :
    exec (p.1 d a imm) s = vecVI s d a imm (decide (0 ≤ imm) && decide (imm ≤ 31)) fun x y => p.2 x (y.toNat % 32) := by
  simp only [vectorImmShifts, List.mem_cons, List.not_mem_nil, or_false] at hp
  rcases hp with rfl | rfl | rfl <;> rfl

theorem exec_vector64 {p : (Nat → Nat → Nat → Instr) × (DWord → DWord → DWord)} (hp : p ∈ vector64) (d a b : Nat) (s : State) :
    exec (p.1 d a b) s = vec64 s d a b p.2 := by
  simp only [vector64, ← aluMinI32_eq, ← aluMaxI32_eq, ← aluMinN32_eq, ← aluMaxN32_eq, List.mem_cons, List.not_mem_nil, or_false] at hp
  rcases hp with rfl | rfl | rfl | rfl | rfl | rfl | rfl | rfl | rfl | rfl <;> rfl

theorem exec_vector64Shifts {p : (Nat → Nat → Nat → Instr) × (DWord → Nat → DWord)} (hp : p ∈ vector64Shifts) (d a b : Nat)
    (s : State) : exec (p.1 d a b) s = vec64Shift s d a b fun x y => p.2 x (y.toNat % 64) := by
  simp only [vector64Shifts, List.mem_cons, List.not_mem_nil, or_false] at hp
  rcases hp with rfl | rfl | rfl <;> rfl

theorem exec_vectorWiden {p : (Nat → Nat → Nat → Instr) × (Word → Word → DWord)} (hp : p ∈ vectorWiden) (d a b : Nat) (s : State) :
    exec (p.1 d a b) s = vecWide s d a b p.2 := by
  simp only [vectorWiden, List.mem_cons, List.not_mem_nil, or_false] at hp
  rcases hp with rfl | rfl <;> rfl

theorem exec_vector64Counts {p : (Nat → Nat → Instr) × (DWord → Word)} (hp : p ∈ vector64Counts) (d a : Nat) (s : State) :
    exec (p.1 d a) s = vec64Count s d a p.2 := by
  simp only [vector64Counts, ← ofNat_countLeadingZeros 64, List.mem_cons, List.not_mem_nil, or_false] at hp
  rcases hp with rfl | rfl <;> rfl

theorem exec_vectorCompares {p : (Nat → Nat → Nat → CmpTy → Instr) × (Int → Int → Bool)} (hp : p ∈ vectorCompares) (d a b : Nat)
    (ty : CmpTy) (s : State) : exec (p.1 d a b ty) s = vecCmp s d a b ty p.2 := by
  simp only [vectorCompares, List.mem_cons, List.not_mem_nil, or_false] at hp
  rcases hp with rfl | rfl | rfl | rfl | rfl | rfl <;> rfl

theorem exec_fpBinary {p : (Nat → Nat → Nat → Instr) × Bool × FpFun2} (hp : p ∈ fpBinary) (d a b : Nat) (s : State) :
    exec (p.1 d a b) s = fpVV s p.2.1 d a b p.2.2 := by
  simp only [fpBinary, List.mem_cons, List.not_mem_nil, or_false] at hp
  rcases hp with rfl | rfl | rfl | rfl | rfl | rfl | rfl | rfl | rfl | rfl <;> rfl

theorem fneg_eq : (fun (f : Fmt) (_ : Mode) (_ : Bool) (a : Nat) => (fnegBits f a, (0 : Flags))) =
    fun f _ _ a => (if f.isNaN a then f.qnan else (a + f.sign) % (2 * f.sign), 0) := by
  funext f _ _ a
  have hpos : 0 < f.sign := Nat.two_pow_pos _
  have hmod : (a + f.sign) % (2 * f.sign) = if f.neg a = true then a % f.sign else a % f.sign + f.sign := by
    have hsplit := Nat.mod_mul (x := a + f.sign) (a := f.sign) (b := 2)
    rw [Nat.mul_comm f.sign 2, Nat.add_mod_right, Nat.add_div_right _ hpos] at hsplit
    rw [hsplit]
    have hneg : f.neg a = (a / f.sign % 2 == 1) := rfl
    rcases Nat.mod_two_eq_zero_or_one (a / f.sign) with h | h
    · rw [hneg, h, show (a / f.sign).succ % 2 = 1 by omega]
      simp
    · rw [hneg, h, show (a / f.sign).succ % 2 = 0 by omega]
      simp
  simp only [fnegBits, hmod]

/-- A special function, rounded once (R117). -/
theorem special_eq (s : State) (f64 : Bool) (d a : Nat) (g : XR → XR × Flags) : special s f64 d a g = fpV s f64 d a (rounded g) := by
  unfold special
  congr 1
  funext f mode ftz x
  simp [rounded, deliver, snanFlag]

theorem exec_fpUnary {p : (Nat → Nat → Instr) × Bool × (Fmt → Mode → Bool → Nat → Nat × Flags)} (hp : p ∈ fpUnary) (d a : Nat)
    (s : State) : exec (p.1 d a) s = fpV s p.2.1 d a p.2.2 := by
  simp only [fpUnary, ← fneg_eq, List.mem_cons, List.not_mem_nil, or_false] at hp
  rcases hp with rfl | rfl | rfl | rfl | rfl | rfl | rfl | rfl | rfl | rfl | rfl | rfl | rfl | rfl
  iterate 4 rfl
  all_goals exact special_eq ..

theorem exec_fpCompares {p : (Nat → Nat → Nat → Bool → Instr) × Bool × (XR → XR → Bool)} (hp : p ∈ fpCompares) (d a b : Nat)
    (f64 : Bool) (s : State) : exec (p.1 d a b f64) s = fcmpOp s d a b f64 p.2.1 p.2.2 := by
  simp only [fpCompares, Bool.not_or, List.mem_cons, List.not_mem_nil, or_false] at hp
  rcases hp with rfl | rfl | rfl | rfl | rfl | rfl | rfl | rfl <;> rfl

end Sys2Proof.Spec
end

section
/-! SUPPORT. The obligations on scalar immediates and on 32-bit vector operations. -/

namespace Sys2Proof.Spec

open Sys2Proof.Machine

/-! ### Scalar immediates, s63 and what is F_ILLEGAL (R7, R76, R79, R80, R143) -/

theorem okS2_and_eq_false {a b : Nat} (h : a % 2 = 1 ∨ b % 2 = 1) : (okS2 a && okS2 b) = false := by
  rcases h with h | h <;> simp [okS2_eq_false h]

/-- A shift amount in its field's range is the one the statement names. -/
theorem shift_in_range {n : Nat} (h : n ≤ 31) : (decide (0 ≤ (n : Int)) && decide ((n : Int) ≤ 31)) = true := by
  simp only [Bool.and_eq_true, decide_eq_true_eq]
  omega
theorem shift_out_of_range {imm : Int} (h : imm < 0 ∨ 31 < imm) : (decide (0 ≤ imm) && decide (imm ≤ 31)) = false := by
  rw [Bool.and_eq_false_iff, decide_eq_false_iff_not, decide_eq_false_iff_not]
  omega

theorem scalarImmediates : ScalarImmediates := by
  refine ⟨fun p hp s t j w d a imm hc => ?_, fun p hp s t j w d a n hc hn => ?_, fun p hp s t j w d a imm hc => ?_,
    fun s t j w d imm hc => ?_, fun s t j w d a imm hc hd ha => ?_⟩
  · exact leaves_of_scalarOp hc (exec_scalarImm hp d a imm s) rfl rfl
  · have h := leaves_of_scalarOp hc (exec_scalarImmShifts hp d a n s) (shift_in_range hn) rfl
    simpa only [imm32_shift hn] using h
  · exact leaves_of_scalarOp hc (exec_scalarImmCompares hp d a imm s) rfl rfl
  · exact leaves_of_scalarOp (i := .siMovs d imm) hc rfl rfl rfl
  · exact leaves_of_scalarOp (i := .siAddI64 d a imm) hc rfl (by rw [okS2_eq_true hd, okS2_eq_true ha]; rfl) rfl

theorem scalarRegisters : ScalarRegisters := by
  refine ⟨Warp.sget_s63, Warp.sset_s63, fun w r q v hr => ?_⟩
  split
  next h => rw [h, Warp.sget_sset_self w v hr]
  next h => exact Warp.sget_sset_other w v h

theorem scalarIllegal : ScalarIllegal := by
  refine ⟨fun p hp s t j w d a b hc h => ?_, fun p hp s t j w d a b hc h => ?_, fun s t j w d a imm hc h => ⟨?_, ?_⟩,
    fun s t j w d off hc h => ?_, fun p hp s t j w d a imm hc h => ?_⟩
  · refine raises_of_scalarOp hc (exec_scalarWide hp d a b true s) ?_
    rcases h with h | h | h <;> simp [okS2_eq_false h]
  · exact raises_of_scalarOp hc (exec_scalarCompares hp d a b true s) (okS2_and_eq_false h)
  · refine raises_of_scalarOp (i := .sMovs d a true) hc rfl ?_
    rcases h with h | h <;> simp [okS2_eq_false h]
  · exact raises_of_scalarOp (i := .siAddI64 d a imm) hc rfl (okS2_and_eq_false h)
  · exact raises_of_trap (i := .ldlB64 d off) hc rfl (by rw [okS2_eq_false h, require_false])
  · exact raises_of_scalarOp hc (exec_scalarImmShifts hp d a imm s) (shift_out_of_range h)

/-- Settles O35: each immediate form is a scalar operation whose effect is the statement's, and legality stands before it. -/
theorem scalarImmediateForms : Obligations.ScalarImmediateForms := ⟨scalarImmediates, scalarRegisters, scalarIllegal⟩

/-! ### 32-bit vector operations (R83, R84, R156, R157) -/

theorem ok3_iff {t : Team} {d a b : Nat} : (t.okV d && t.okV a && t.okV b) = true ↔ has t d ∧ has t a ∧ has t b := by
  simp only [Bool.and_eq_true, okV_iff, and_assoc]
theorem ok2_iff {t : Team} {d a : Nat} : (t.okV d && t.okV a) = true ↔ has t d ∧ has t a := by
  simp only [Bool.and_eq_true, okV_iff]

/-- One register is written in each active lane. -/
theorem laneOp_result {i : Instr} {s : State} {t : Team} {j : Nat} {w : Warp} {ok : Team → Bool} {srcs : List Nat} {d : Nat}
    {g : Warp → Nat → Word} (hc : s.curWarp = some (t, j, w)) (he : exec i s = laneOp s ok srcs fun w l => [(d, g w l)])
    (hok : ok t = true) (hp : w.poisoned srcs w.active = none) : ∃ w', leaves i s t j w' ∧ laneResult w w' d (g w) :=
  ⟨_, leaves_of_laneOp hc he hok hp, laneResult_writeLanes w d (g w)⟩

theorem vectorOps_results : VectorOps := by
  refine ⟨fun p hp s t j w d a b hc hd ha hb hn => ?_, fun p hp s t j w d a hc hd ha hn => ?_,
    fun s t j w d a b hc hd ha hb hn => ?_⟩
  · exact laneOp_result hc (exec_vectorOps hp d a b s) (ok3_iff.2 ⟨hd, ha, hb⟩) hn
  · exact laneOp_result hc (exec_vectorUnary hp d a s) (ok2_iff.2 ⟨hd, ha⟩) hn
  · exact laneOp_result (i := .vMad d a b) hc rfl (ok3_iff.2 ⟨hd, ha, hb⟩) hn

/-- No register is read, so none is poisoned. -/
theorem poisoned_nil (w : Warp) (m : LaneMask) : w.poisoned [] m = none := by simp [Warp.poisoned]

theorem vectorImmediates : VectorImmediates := by
  refine ⟨fun p hp s t j w d a imm hc hd ha hn => ?_, fun p hp s t j w d a n hc hd ha hn hp' => ?_, fun s t j w d imm hc hd => ?_⟩
  · exact laneOp_result hc (exec_vectorImm hp d a imm s) (ok2_iff.2 ⟨hd, ha⟩) hn
  · have h := laneOp_result hc (exec_vectorImmShifts hp d a n s)
      (by rw [shift_in_range hn, Bool.true_and]; exact ok2_iff.2 ⟨hd, ha⟩) hp'
    simpa only [imm32_shift hn] using h
  · exact laneOp_result (i := .viMov d imm) hc rfl (okV_iff.2 hd) (poisoned_nil ..)

/-! ### Register groups that are F_ILLEGAL (R39, R76, R79) -/

theorem okFp_iff {t : Team} {f64 : Bool} {r : Nat} : t.okFp f64 r = true ↔ fpHas f64 t r := by
  cases f64
  · exact okV_iff
  · exact okV2_iff

/-- The registers an integer compare checks. -/
theorem guarded_vectorCompares {p : (Nat → Nat → Nat → CmpTy → Instr) × (Int → Int → Bool)} (hp : p ∈ vectorCompares) (d a b : Nat)
    (ty : CmpTy) (s : State) :
    ∃ ok : Team → Bool, (∀ t, ok t = true ↔ cmpLegal ty t a ∧ cmpLegal ty t b) ∧
      Guarded (p.1 d a b ty) s ok (cmpRegs ty a ++ cmpRegs ty b) := by
  have he := exec_vectorCompares hp d a b ty s
  cases ty with
  | i32 | n32 => exact ⟨_, fun t => ok2_iff, guarded_predOp he⟩
  | i64 | n64 => exact ⟨_, fun t => by simp only [Bool.and_eq_true, okV2_iff]; rfl, guarded_predOp he⟩

/-- What a warp sees of its team has the team's registers. -/
theorem nregs_of_sees {s : State} {t : Team} {j : Nat} {stack : Bool} {q : Team} {sg : Sparse Word} {s0 : State}
    (h : sees s t j stack q sg s0) : q.nregs = t.nregs := by
  have hput : ∀ (x : Team) r v, (x.putAs r v).nregs = x.nregs := fun x r v => by unfold Team.putAs; split <;> rfl
  have hrest : ∀ (x : Team) what v, (x.restoreOld what v).nregs = x.nregs := fun x what v => by
    cases what with
    | stack r => exact hput ..
    | seed k => rfl
    | field slot off n => rfl
  have hfold : ∀ (vs : List (OldWhat × DWord)) (x : Team), (vs.foldl (fun x p => x.restoreOld p.1 p.2) x).nregs = x.nregs := by
    intro vs
    induction vs with
    | nil => exact fun _ => rfl
    | cons p r ih => exact fun x => (ih _).trans (hrest ..)
  unfold sees State.seenFor at h
  dsimp only at h
  split at h
  · cases h; rfl
  · cases h; exact hfold ..

section
variable {i : Instr} {s s0 : State} {t q : Team} {j : Nat} {w : Warp} {d a sg nd na : Nat} {b : Blk} {okFmt : Bool}
  {seeds : Sparse Word} {f : Warp → Word → Nat × List (Nat × Nat) → BlockOut}

/-- A rotation whose register groups the team has not. -/
theorem rotateRegs_illegal (hc : s.curWarp = some (t, j, w)) (hs : sees s t j false q seeds s0)
    (he : exec i s = rotateRegs s d a b sg nd na okFmt f)
    (h : ¬ (groupHas t d (blkRegs b) nd ∧ groupHas t a (blkRegs b) na)) : raisesOn i s s0 t j w { code := .illegal } := by
  have hok : (okFmt && q.okGroup d (blkRegs b) nd && q.okGroup a (blkRegs b) na) = false := by
    simp only [groupHas] at h
    simp only [Team.okGroup, nregs_of_sees hs, Bool.eq_false_iff, ne_eq, Bool.and_eq_true, beq_iff_eq, decide_eq_true_eq]
    tauto
  refine raisesOn_of_trap hc he ?_
  unfold sees at hs
  simp only [hs, hok, require_false]

end

/-- `vrot` and `virot` are rotations of groups of these sizes. -/
theorem execVrot_form (d a : Nat) (b : Blk) (sg : Nat) (fmt : RotFmt) (s : State) : ∃ ok f, execVrot d a b sg fmt s =
    rotateRegs s d a b sg (if fmt = .f32i8 then 2 * blkRegs b else blkRegs b) (blkRegs b) ok f := by
  unfold execVrot
  exact ⟨_, _, rfl⟩
theorem execVirot_form (d a : Nat) (b : Blk) (sg : Nat) (fmt : RotFmt) (s : State) : ∃ ok f, execVirot d a b sg fmt s =
    rotateRegs s d a b sg (blkRegs b) (if fmt = .i8f32 then 2 * blkRegs b else blkRegs b) ok f := by
  unfold execVirot
  exact ⟨_, _, rfl⟩

theorem vectorIllegal : VectorIllegal := by
  intro s t j w d a b hc
  refine ⟨fun p hp h => ?ops, fun p hp h => ?unary, fun h => ⟨?mad, fun p => ?sel⟩, fun p hp imm h => ?imm, fun p hp imm h => ?shifts,
    fun imm l h => ⟨?viMov, ?sets, ?gets, ?getsFirst⟩, fun p hp h => ?v64, fun p hp h => ?v64Shifts, fun p hp h => ?widen,
    fun p hp h => ?counts, fun p hp ty h => ?compares, fun p hp h => ?fpBinary, fun p hp h => ?fpUnary, fun p hp f64 h => ?fpCompares,
    fun k fmt sg q seeds s0 hs _ h => ?vrot, fun k fmt sg q seeds s0 hs _ h => ?virot⟩
  case ops => exact (guarded_laneOp (exec_vectorOps hp d a b s)).illegal hc (mt ok3_iff.1 h)
  case unary => exact (guarded_laneOp (exec_vectorUnary hp d a s)).illegal hc (mt ok2_iff.1 h)
  case mad => exact (guarded_laneOp (i := .vMad d a b) rfl).illegal hc (mt ok3_iff.1 h)
  case sel => exact (guarded_laneOp (i := .sel d a b p) rfl).illegal hc (mt ok3_iff.1 h)
  case imm => exact (guarded_laneOp (exec_vectorImm hp d a imm s)).illegal hc (mt ok2_iff.1 h)
  case shifts =>
    refine (guarded_laneOp (exec_vectorImmShifts hp d a imm s)).illegal hc fun hok => ?_
    rw [Bool.and_assoc, Bool.and_eq_true] at hok
    rcases h with h | h
    · exact h (ok2_iff.1 hok.2)
    · rw [shift_out_of_range h] at hok
      cases hok.1
  case viMov => exact (guarded_laneOp (i := .viMov d imm) rfl).illegal hc (mt okV_iff.1 h)
  case sets => exact (guarded_laneOp (i := .sets a d) rfl).illegal hc (mt okV_iff.1 h)
  case gets =>
    exact raises_of_trap (i := .gets a d l) hc rfl (by rw [Bool.eq_false_of_not_eq_true (mt okV_iff.1 h), require_false])
  case getsFirst =>
    exact raises_of_trap (i := .getsFirst a d) hc rfl (by rw [Bool.eq_false_of_not_eq_true (mt okV_iff.1 h), require_false])
  case v64 =>
    refine (guarded_laneOp (exec_vector64 hp d a b s)).illegal hc fun hok => h ?_
    simpa only [Bool.and_eq_true, okV2_iff, and_assoc] using hok
  case v64Shifts =>
    refine (guarded_laneOp (exec_vector64Shifts hp d a b s)).illegal hc fun hok => h ?_
    simpa only [Bool.and_eq_true, okV2_iff, okV_iff, and_assoc] using hok
  case widen =>
    refine (guarded_laneOp (exec_vectorWiden hp d a b s)).illegal hc fun hok => h ?_
    simpa only [Bool.and_eq_true, okV2_iff, okV_iff, and_assoc] using hok
  case counts =>
    refine (guarded_laneOp (exec_vector64Counts hp d a s)).illegal hc fun hok => h ?_
    simpa only [Bool.and_eq_true, okV2_iff, okV_iff] using hok
  case compares =>
    obtain ⟨ok, hok, hg⟩ := guarded_vectorCompares hp d a b ty s
    exact hg.illegal hc (mt (hok t).1 h)
  case fpBinary =>
    refine (guarded_laneOpF (exec_fpBinary hp d a b s)).illegal hc fun hok => h ?_
    simpa only [Bool.and_eq_true, okFp_iff, and_assoc] using hok
  case fpUnary =>
    refine (guarded_laneOpF (exec_fpUnary hp d a s)).illegal hc fun hok => h ?_
    simpa only [Bool.and_eq_true, okFp_iff] using hok
  case fpCompares =>
    refine (guarded_predOp (exec_fpCompares hp d a b f64 s)).illegal hc fun hok => h ?_
    simpa only [Bool.and_eq_true, okFp_iff] using hok
  case vrot =>
    obtain ⟨ok, f, he⟩ := execVrot_form d a k sg fmt s
    exact rotateRegs_illegal hc hs he h
  case virot =>
    obtain ⟨ok, f, he⟩ := execVirot_form d a k sg fmt s
    exact rotateRegs_illegal hc hs he h

/-- Settles O36: each list's instructions have one form, whose legality stands before its sources and its result in each active lane. -/
theorem vectorArithmetic : Obligations.VectorArithmetic := ⟨vectorOps_results, vectorImmediates, vectorIllegal⟩

end Sys2Proof.Spec
end

section
/-! SUPPORT. Lane results with flags, and the obligation on conversions (R86, R106, R113, R116, R163). -/

namespace Sys2Proof.Spec

open Sys2Proof.Machine

/-! ### Flags of the active lanes (R113) -/

theorem getLsbD_orFlags {l : List Flags} {k : Nat} : (orFlags l).getLsbD k = true ↔ ∃ x ∈ l, x.getLsbD k = true := by
  have hfold : ∀ (l : List Flags) (a : Flags),
      (l.foldl (· ||| ·) a).getLsbD k = true ↔ a.getLsbD k = true ∨ ∃ x ∈ l, x.getLsbD k = true := by
    intro l
    induction l with
    | nil => simp
    | cons x r ih => intro a; rw [List.foldl_cons, ih]; simp [or_assoc]
  rw [orFlags, hfold]
  simp

theorem withFlags_addFlags (w w1 : Warp) (g : Nat → Flags) (hw : w1.active = w.active) :
    withFlags w1 (w1.addFlags (orFlags ((lanesOf w.active).map g))) g := by
  refine ⟨_, fun k => ?_, rfl⟩
  rw [getLsbD_orFlags, hw]
  simp only [List.mem_map, mem_lanesOf]
  constructor
  · rintro ⟨x, ⟨l, ⟨hl, ha⟩, rfl⟩, hx⟩
    exact ⟨l, hl, ha, hx⟩
  · rintro ⟨l, hl, ha, hx⟩
    exact ⟨g l, ⟨l, ⟨hl, ha⟩, rfl⟩, hx⟩

theorem active_writeLanes (w : Warp) (m : LaneMask) (f : Nat → List (Nat × Word)) : (w.writeLanes m f).active = w.active := by
  rw [writeLanes_frame]

/-- One register or one pair is written in each active lane, and the lanes' flags are merged. -/
theorem laneOpF_result {i : Instr} {s : State} {t : Team} {j : Nat} {w : Warp} {ok : Team → Bool} {srcs : List Nat} {d : Nat}
    {f64 : Bool} {g : Warp → Nat → Nat × Flags} (hc : s.curWarp = some (t, j, w))
    (he : exec i s = laneOpF s ok srcs fun w l => (fpWrites f64 d (g w l).1, (g w l).2))
    (hok : ok t = true) (hp : w.poisoned srcs w.active = none) : ∃ w', leaves i s t j w' ∧ fpResult w w' f64 d (g w) := by
  refine ⟨_, leaves_of_laneOpF hc he hok hp, w.writeLanes w.active fun l => fpWrites f64 d (g w l).1, ?_,
    withFlags_addFlags _ _ _ (active_writeLanes ..)⟩
  cases f64
  · exact laneResult_writeLanes w d fun l => BitVec.ofNat 32 (g w l).1
  · exact pairResult_writeLanes w d fun l => BitVec.ofNat 64 (g w l).1

/-! ### Registers of a number type (R106, R163) -/

theorem okNum_iff {t : Team} {ty : NumTy} {r : Nat} : t.okNum ty r = true ↔ numHas ty t r := by
  unfold Team.okNum numHas
  split
  · exact okV2_iff
  · exact okV_iff

theorem toNat_vget64 (w : Warp) (r l : Nat) : (w.vget64 r l).toNat = (w.vget r l).toNat + 2 ^ 32 * (w.vget (r + 1) l).toNat := by
  have hlo := (w.vget r l).isLt
  show (w.vget (r + 1) l ++ w.vget r l).toNat = _
  rw [BitVec.toNat_append, ← Nat.shiftLeft_add_eq_or_of_lt hlo, Nat.shiftLeft_eq]
  omega

theorem vgroup_one (w : Warp) (r l : Nat) : w.vgroup [r] l = (w.vget r l).toNat := by simp [Warp.vgroup]
theorem vgroup_pair (w : Warp) (r l : Nat) : w.vgroup [r, r + 1] l = (w.vget64 r l).toNat := by
  rw [toNat_vget64]
  simp [Warp.vgroup]

/-- The bits a conversion reads. -/
theorem vgroup_num (w : Warp) (ty : NumTy) (r l : Nat) : w.vgroup (cvtRegs ty r) l % 2 ^ ty.bits = numOf w ty r l := by
  unfold cvtRegs numOf
  split
  next h => rw [vgroup_pair, h, Nat.mod_eq_of_lt (w.vget64 r l).isLt]
  next h => rw [vgroup_one]

/-- The registers it writes. -/
theorem groupWrites_num (ty : NumTy) (d n : Nat) : groupWrites (cvtRegs ty d) n = fpWrites (ty.bits = 64) d n := by
  unfold cvtRegs fpWrites
  split
  next h =>
    have hlo : BitVec.ofNat 32 (n % 2 ^ 32) = (BitVec.ofNat 64 n).extractLsb' 0 32 := by
      apply BitVec.eq_of_toNat_eq
      simp
    have hhi : BitVec.ofNat 32 (n / 2 ^ 32 % 2 ^ 32) = (BitVec.ofNat 64 n).extractLsb' 32 32 := by
      apply BitVec.eq_of_toNat_eq
      simp only [BitVec.toNat_ofNat, BitVec.extractLsb'_toNat, Nat.shiftRight_eq_div_pow]
      omega
    simp only [groupWrites, hlo, hhi, h, decide_true, if_true, pairWrites]
  next h =>
    have hw : BitVec.ofNat 32 (n % 2 ^ 32) = BitVec.ofNat 32 n := by
      apply BitVec.eq_of_toNat_eq
      simp
    simp only [groupWrites, hw, h, decide_false, Bool.false_eq_true, if_false]

/-! ### Conversions between integer types (R106, R116) -/

theorem convert_integers {dt st : NumTy} (hd : dt.isFloat = false) (hs : st.isFloat = false) (mode : Mode) (sat ftz : Bool) (n : Nat) :
    convert dt st mode sat ftz n = (dt.ofInt (intToInt dt st sat (st.toInt n)), 0) := by
  have hdn : dt.fmt = none := by simpa [NumTy.isFloat] using hd
  have hsn : st.fmt = none := by simpa [NumTy.isFloat] using hs
  simp only [convert, hdn, hsn]

theorem NumTy.two_pow_bits (t : NumTy) : 2 ^ t.bits = 2 * 2 ^ (t.bits - 1) := by
  cases t <;> rfl

/-- The bits of an integer, read as an integer. -/
theorem cast_ofInt (t : NumTy) (v : Int) : (t.ofInt v : Int) = v % 2 ^ t.bits := by
  rw [NumTy.ofInt, Int.toNat_of_nonneg (Int.emod_nonneg _ (by positivity))]
  push_cast
  rfl

/-- The residue modulo 2m of an integer from −m to 2m − 1. -/
theorem toNat_emod_two_mul {m : Nat} {c : Int} (hlo : -(m : Int) ≤ c) (hhi : c ≤ 2 * m - 1) :
    ((c % ((2 * m : Nat) : Int)).toNat : Int) = if c < 0 then c + 2 * m else c := by
  split
  next h => rw [← Int.add_emod_right, Int.emod_eq_of_lt (by omega) (by omega)]; omega
  next h => rw [Int.emod_eq_of_lt (by omega) (by omega)]; omega

/-- An integer that the type holds is read back from its bits. -/
theorem toInt_ofInt {t : NumTy} {c : Int} (hlo : t.lo ≤ c) (hhi : c ≤ t.hi) : t.toInt (t.ofInt c) = c := by
  simp only [NumTy.toInt, NumTy.ofInt, NumTy.lo, NumTy.hi, signExt, NumTy.two_pow_bits] at hlo hhi ⊢
  generalize 2 ^ (t.bits - 1) = m at hlo hhi ⊢
  cases hsg : t.signed
  · simp only [hsg, Bool.false_eq_true, if_false] at hlo hhi ⊢
    have hn := toNat_emod_two_mul (m := m) (c := c) (by omega) (by omega)
    rw [if_neg (by omega)] at hn
    rw [Nat.mod_eq_of_lt (by omega), hn]
  · simp only [hsg, if_true] at hlo hhi ⊢
    have hn := toNat_emod_two_mul (m := m) (c := c) (by omega) (by omega)
    generalize (c % ((2 * m : Nat) : Int)).toNat = n at hn ⊢
    split at hn
    · rw [Nat.mod_eq_of_lt (by omega), if_neg (by omega)]
      omega
    · rw [Nat.mod_eq_of_lt (by omega), if_pos (by omega)]
      omega

theorem NumTy.lo_le_hi (t : NumTy) : t.lo ≤ t.hi := by
  cases t <;> decide

theorem convertIntegers : ConvertIntegers := by
  intro dt st mode sat ftz n hd hs
  rw [convert_integers hd hs]
  refine ⟨rfl, fun hsat => ?_, fun hsat hw => ?_⟩
  · rw [cast_ofInt, hsat]
    rfl
  · have hclamp : intToInt dt st sat (st.toInt n) = max dt.lo (min dt.hi (st.toInt n)) := by simp [intToInt, hsat, hw]
    rw [hclamp]
    exact toInt_ofInt (le_max_left ..) (max_le (NumTy.lo_le_hi dt) (min_le_left ..))

/-! ### `cvt` (R86, R163) -/

/-- What `cvt` gives a lane: the bits of its register, and the flags. -/
def cvtLane (a : Nat) (dt st : NumTy) (rm : RoundSel) (sat : Bool) (w : Warp) (l : Nat) : Nat × Flags :=
  let r := convert dt st (rm.mode w) sat w.ftz (numOf w st a l)
  (dt.place r.1, r.2)

theorem exec_cvt (d a : Nat) (dt st : NumTy) (rm : RoundSel) (sat : Bool) (s : State) : exec (.cvt d a dt st rm sat) s =
    laneOpF s (fun t => cvtOk dt st rm sat && t.okNum dt d && t.okNum st a) (numReads st a) fun w l =>
      (fpWrites (dt.bits = 64) d (cvtLane a dt st rm sat w l).1, (cvtLane a dt st rm sat w l).2) := by
  show execCvt d a dt st rm sat s = _
  simp only [execCvt, vgroup_num, groupWrites_num]
  rfl

theorem convert_lanes : Convert := by
  intro s t j w d a dt st rm sat hc
  have he := exec_cvt d a dt st rm sat s
  refine ⟨fun hno => ?_, fun hok hd ha hp => ?_⟩
  · exact (guarded_laneOpF he).illegal hc (by rw [hno]; simp)
  · exact laneOpF_result (g := cvtLane a dt st rm sat) hc he (by rw [hok, okNum_iff.2 hd, okNum_iff.2 ha]; rfl) hp

/-- Settles O38: `cvt` is a lane operation with flags on the registers of its types, and integers are read back from their bits. -/
theorem conversions : Obligations.Conversions := ⟨convert_lanes, convertIntegers⟩

end Sys2Proof.Spec
end

section
/-! SUPPORT. Loads, stores and atomics at issue: legality, counters and releases, the checked lanes, and the obligation on atomics
(R76, R89, R90, R150, R180, R183, R189, R217). -/

namespace Sys2Proof.Spec

open Sys2Proof.Machine

/-! ### Lanes that pass their checks (R180) -/

theorem checkLanes_ok {lanes : List Nat} {addr : Nat → Int} {chk : Int → Except FaultCode Nat} {pa : Nat → Nat}
    (h : ∀ l ∈ lanes, chk (addr l) = .ok (pa l)) : checkLanes lanes addr chk = .ok (lanes.map fun l => (l, addr l, pa l)) := by
  unfold checkLanes
  rw [List.filterMap_eq_nil_iff.2 fun l hl => by rw [h l hl]]
  simp only [firstFault]
  rw [← List.filterMap_eq_map]
  congr 1
  exact List.filterMap_congr fun l hl => by rw [h l hl]; rfl

/-- Every active lane's global address passes its checks: the instruction goes on after the walks. -/
theorem withGlobal_reachable {s : State} {t : Team} {w : Warp} {k : AccKind} {n a : Nat} {off : Int} {pa : Nat → Nat}
    (h : reachable s t w k n (globalAt w a off) pa) (f : State → List (Nat × Int × Nat) → Issue) :
    withGlobal s t w k n (globalInt w a off) f =
      f (walking s t w (globalAt w a off)) ((lanesOf w.active).map fun l => (l, (globalAt w a off l : Int), pa l)) := by
  have hal : ((lanesOf w.active).map fun l => (globalInt w a off l).toNat).all (fun x => x % n == 0) = true := by
    simp only [List.all_map, List.all_eq_true, mem_lanesOf, Function.comp_apply, beq_iff_eq]
    exact fun l hl => (h l hl.1 hl.2).1
  have hchk := checkLanes_ok (lanes := lanesOf w.active) (addr := globalInt w a off)
    (chk := fun x => checkGlobal s t k n x.toNat) (pa := pa) fun l hl => by
      obtain ⟨hl, ha⟩ := mem_lanesOf.1 hl
      obtain ⟨halign, htr⟩ := h l hl ha
      exact (if_neg (not_not.2 halign)).trans htr
  simp only [withGlobal, hal, if_true, hchk]
  rfl

/-- Every active lane's scratchpad address is aligned and in the allocation: the instruction goes on. -/
theorem withLanes_inScratch {s : State} {t : Team} {w : Warp} {n : Nat} {addr : Nat → Int} (h : inScratch t w n addr)
    (f : List (Nat × Int × Nat) → Issue) :
    withLanes s w addr (checkScratch t n) f = f ((lanesOf w.active).map fun l => (l, addr l, (addr l).toNat)) := by
  have hchk := checkLanes_ok (lanes := lanesOf w.active) (addr := addr) (chk := checkScratch t n) (pa := fun l => (addr l).toNat)
    fun l hl => by
      obtain ⟨hl, ha⟩ := mem_lanesOf.1 hl
      obtain ⟨halign, hin⟩ := h l hl ha
      exact (if_neg (not_not.2 halign)).trans (if_pos hin)
  simp only [withLanes, hchk]

/-- No outstanding operation holds the lanes' granules. -/
theorem unheld_free {s : State} {t : Team} {w : Warp} {load : Bool} {n : Nat} {addr : Nat → Int}
    (h : granulesFree s t w load n addr) (k : Issue) :
    unheld s t load n ((lanesOf w.active).map fun l => (l, addr l, (addr l).toNat)) k = k := by
  rw [granulesFree] at h
  rw [unheld, List.map_map]
  exact if_neg (by rw [show (fun p : Nat × Int × Nat => granules p.2.2 n) ∘ (fun l => (l, addr l, (addr l).toNat)) =
    fun l => granules (addr l).toNat n from rfl, h]; exact Bool.false_ne_true)

/-! ### Counters and releases (R150, R217) -/

theorem raising_room {w : Warp} {ct : Ctr} (h : w.ctr ct < 63) (k : Issue) : raising w (some ct) none k = k := by
  simp [raising, Warp.canRaise, h]

theorem orderReleases_iff {o : Order} : orderReleases o = true ↔ releases o := by
  cases o <;> simp [orderReleases, releases]

theorem releasing_met {w : Warp} {o : Order} (h : releases o → w.cntL = 0 ∧ w.cntS = 0) (k : Issue) :
    releasing w (orderReleases o) k = k := by
  refine if_neg fun hb => ?_
  obtain ⟨ho, hn⟩ := Bool.and_eq_true_iff.1 hb
  obtain ⟨hl, hs⟩ := h (orderReleases_iff.1 ho)
  simp [hl, hs] at hn

theorem releasing_waits {w : Warp} {o : Order} (ho : releases o) (h : w.cntL ≠ 0 ∨ w.cntS ≠ 0) (k : Issue) :
    releasing w (orderReleases o) k = .hold :=
  if_pos (by rw [orderReleases_iff.2 ho]; simpa using h)

/-! ### Atomics (R90, R189) -/

theorem atomWords_eq (ty : AtomTy) : atomWords ty = if atomWide ty then 2 else 1 := by cases ty <;> rfl
theorem atomSize_eq (ty : AtomTy) : 4 * atomWords ty = if atomWide ty then 8 else 4 := by cases ty <;> rfl
theorem atomOperands_eq (aop : AtomOp) (ty : AtomTy) (d : Nat) : atomOperands aop ty d = operandsOf aop ty d := by
  cases aop <;> cases ty <;> rfl
theorem atomGroups_eq (aop : AtomOp) (ty : AtomTy) (d : Nat) :
    (atomOperands aop ty d).flatMap (atomGroup ty) = operandRegs aop ty d := by
  rw [atomOperands_eq]
  cases ty <;> rfl
theorem okAtom_iff {t : Team} {ty : AtomTy} {r : Nat} : t.okAtom ty r = true ↔ atomHas ty t r := by
  cases ty with
  | i32 | n32 => exact okV_iff
  | i64 | n64 => exact okV2_iff
theorem atomOrderOk_iff {aop : AtomOp} {o : Order} {pro : Bool} : atomOrderOk aop o pro = true ↔ orderLegal aop o pro := by
  simp only [atomOrderOk, orderLegal, Bool.and_eq_true, Bool.not_eq_true', Bool.eq_false_iff, ne_eq, beq_iff_eq, Bool.or_eq_true,
    Decidable.not_not, and_assoc, not_and]

/-- What a lane brings to an atomic. -/
theorem atomLane_eq (w : Warp) (aop : AtomOp) (ty : AtomTy) (d l va pa : Nat) :
    atomLane w aop ty d (l, (va : Int), pa) = atomShare w aop ty d l va pa := by
  have hv : ∀ r, w.vgroup (atomGroup ty r) l = atomValue w ty r l := fun r => by
    cases ty with
    | i32 | n32 => exact vgroup_one ..
    | i64 | n64 => exact vgroup_pair ..
  simp only [atomLane, atomShare, atomOperands_eq, hv, Int.toNat_natCast]
  congr 1
  · cases (operandsOf aop ty d)[0]? <;> rfl
  · cases (operandsOf aop ty d)[1]? <;> rfl

section
variable {p : AtomOp × (Nat → Nat → AtomTy → Scope → Order → Bool → Instr) × (Nat → Nat → AtomTy → Order → Instr)}
  (hp : p ∈ atomics)
include hp

theorem exec_atomics (d a : Nat) (ty : AtomTy) (scope : Scope) (ord : Order) (pro : Bool) (s : State) :
    exec (p.2.1 d a ty scope ord pro) s = atomGlobal p.1 d a ty scope ord pro s := by
  simp only [atomics, List.mem_cons, List.not_mem_nil, or_false] at hp
  rcases hp with rfl | rfl | rfl | rfl | rfl | rfl | rfl | rfl | rfl <;> rfl

theorem exec_scratch_atomics (d a : Nat) (ty : AtomTy) (ord : Order) (s : State) :
    exec (p.2.2 d a ty ord) s = atomScratch p.1 d a ty ord s := by
  simp only [atomics, List.mem_cons, List.not_mem_nil, or_false] at hp
  rcases hp with rfl | rfl | rfl | rfl | rfl | rfl | rfl | rfl | rfl <;> rfl

end

/-- A legal atomic on registers that the team has, with room in its counter, goes on to its release and its operands. -/
theorem atomGlobal_legal {aop : AtomOp} {s : State} {t : Team} {j : Nat} {w : Warp} {d a : Nat} {ty : AtomTy} {scope : Scope}
    {ord : Order} {pro : Bool} {i : Instr} (he : exec i s = atomGlobal aop d a ty scope ord pro s)
    (hc : s.curWarp = some (t, j, w)) (hd : atomHas ty t d) (hr : ∀ r ∈ operandsOf aop ty d, atomHas ty t r) (ha : hasPair t a)
    (hroom : w.ctr (ctrOf aop) < 63) (hord : orderLegal aop ord pro) :
    exec i s = .next (s.finish t j (releasing w (orderReleases ord) <|
      reading s w ([a, a + 1] ++ operandRegs aop ty d) w.active <|
        withGlobal s t w (if aop = .ld then .read else .atomic) (if atomWide ty then 8 else 4) (globalInt w a 0) fun s1 ls =>
          launching s1 w (plainOp t j w (ctrOf aop) (.atomic false aop ty scope ord pro d (ls.map (atomLane w aop ty d)))))) := by
  rw [he, atomGlobal, onWarp_some _ hc]
  simp only [atomGroups_eq, atomSize_eq]
  rw [atomOrderOk_iff.2 hord, okAtom_iff.2 hd, okV2_iff.2 ha, atomOperands_eq,
    List.all_eq_true.2 fun r h => okAtom_iff.2 (hr r h), Bool.and_true, Bool.and_true, Bool.and_true, require_true]
  exact congrArg (fun k => Host.Outcome.next (s.finish t j k)) (raising_room hroom _)

/-- Settles O6: an atomic's checks stand in R79's order before the operation it puts in flight. -/
theorem atomicIssue : Obligations.AtomicIssue := by
  intro p hp s t j w d a ty scope ord pro hc hd hr hroom n
  refine ⟨fun hno => ?illegal, fun ha hord hrel hcnt => ?waits, fun pa ha hord hmet hpois hreach => ?issues, fun ha hsc => ?sc,
    fun ha hsc hord hmet hpois hin hfree => ?scratch⟩
  case illegal =>
    refine raises_of_trap hc (exec_atomics hp ..) ?_
    rw [Bool.eq_false_of_not_eq_true (mt atomOrderOk_iff.1 hno)]
    rfl
  case waits =>
    rw [holds, atomGlobal_legal (exec_atomics hp ..) hc hd hr ha hroom hord, releasing_waits hrel hcnt]
    rfl
  case issues =>
    refine ⟨_, rfl, ?_⟩
    rw [atomGlobal_legal (exec_atomics hp ..) hc hd hr ha hroom hord, releasing_met hmet, reading_none _ hpois,
      withGlobal_reachable hreach]
    simp only [List.map_map, Function.comp_def, atomLane_eq]
    rfl
  case sc =>
    exact raises_of_trap hc (exec_scratch_atomics hp ..) (by rw [hsc]; rfl)
  case scratch =>
    have hne : (ord != .sc) = true := by simpa using hsc
    have hlane : ∀ l ∈ lanesOf w.active, atomLane w p.1 ty d (l, scratchAt w a 0 l, (scratchAt w a 0 l).toNat) =
        atomShare w p.1 ty d l (scratchAt w a 0 l).toNat (scratchAt w a 0 l).toNat := fun l hl => by
      obtain ⟨hl, hact⟩ := mem_lanesOf.1 hl
      have hnn := Int.toNat_of_nonneg (hin l hl hact).2.1
      rw [← atomLane_eq, hnn]
    rw [issues, exec_scratch_atomics hp, atomScratch, onWarp_some _ hc]
    simp only [atomGroups_eq, atomSize_eq]
    rw [hne, atomOrderOk_iff.2 hord, okAtom_iff.2 hd, okV_iff.2 ha, atomOperands_eq,
      List.all_eq_true.2 fun r h => okAtom_iff.2 (hr r h)]
    simp only [Bool.and_true, require_true]
    rw [raising_room (show w.ctr (atomCtr p.1) < 63 from hroom), releasing_met hmet, reading_none _ hpois]
    change Host.Outcome.next (s.finish t j (withLanes s w (scratchAt w a 0) (checkScratch t n) _)) = _
    rw [withLanes_inScratch hin, unheld_free hfree]
    simp only [List.map_map, Function.comp_def]
    rw [List.map_congr_left hlane]
    rfl

end Sys2Proof.Spec
end

section
/-! SUPPORT. What the walks of translated addresses leave alone, and the obligation on waiting and on poisoned operands (R81, R150,
R178, R180, R181, R195, R196, R230, R326, R361). -/

namespace Sys2Proof.Machine

/-! ### Walks (R326) -/

theorem State.walk1_beyondMemory (w a n : Nat) (s : State) (tbl : Nat) :
    (State.walk1 w a n s tbl).2.beyondMemory = s.beyondMemory := by
  induction n generalizing s tbl with
  | zero => rfl
  | succ n ih =>
    have hd : ∀ (x : State) pa, (x.readDesc w pa).2.beyondMemory = x.beyondMemory := fun _ _ => State.readLine_beyondMemory ..
    rw [State.walk1]
    dsimp only
    split
    · exact State.gpaWalk_beyondMemory ..
    split
    · rw [hd, State.gpaWalk_beyondMemory]
    split
    · rw [ih, hd, State.gpaWalk_beyondMemory]
    · rw [hd, State.gpaWalk_beyondMemory]

theorem State.pageWalk_beyondMemory (s : State) (core w va : Nat) : (s.pageWalk core w va).2.beyondMemory = s.beyondMemory := by
  have h := State.walk1_beyondMemory w va 4 s (s.world w).s1root
  unfold State.pageWalk
  split
  next e s1 hw => rw [hw] at h; exact h
  next l s1 hw => rw [hw] at h; exact (State.gpaWalk_beyondMemory ..).trans h

@[simp] theorem State.walked_beyondMemory (s : State) (core w : Nat) (vas : List Nat) :
    (s.walked core w vas).beyondMemory = s.beyondMemory := by
  refine State.foldl_beyondMemory (fun x p => ?_) _ _
  split
  · rfl
  · exact State.pageWalk_beyondMemory ..

theorem State.ops_of_beyondMemory {s s' : State} (h : s'.beyondMemory = s.beyondMemory) : s'.ops = s.ops := by
  have ho : s'.beyondMemory.ops = s.beyondMemory.ops := by rw [h]
  exact ho

end Sys2Proof.Machine

namespace Sys2Proof.Spec

open Sys2Proof.Machine

theorem ends_eq_lastYields (w : Warp) : ends w = w.lastYields := rfl
theorem stops_eq_block (w : Warp) (st : WStatus) : stops w st = w.block st := rfl

/-! ### `wait` and `sleep` (R81, R150, R178, R181) -/

theorem tokensZero_iff {w : Warp} {m : Nat} : w.tokensZero m = true ↔ ∀ k < 8, bitOf m k = true → w.token k = 0 := by
  simp only [Warp.tokensZero, List.all_eq_true, List.mem_range, Bool.or_eq_true, Bool.not_eq_true', beq_iff_eq]
  refine forall₂_congr fun k _ => ?_
  cases bitOf m k <;> simp

/-- The mark of the lowest poisoned lane is the one that is reported. -/
theorem anyPoison_of_lowest {w : Warp} {k l : Nat} {p : Poison} (hlow : ∀ e ∈ w.poison, l ≤ e.1 % 32)
    (hf : w.poison.find? (fun e => e.1 % 32 == l) = some (k, p)) : w.anyPoison = some (l, p) := by
  have hl : l < 32 := by
    have := List.find?_some hf
    simp only [beq_iff_eq] at this
    omega
  refine List.findSome?_eq_some_iff.2 ⟨_, l, _, range_split hl, by rw [hf]; rfl, fun i hi => ?_⟩
  have hnone : w.poison.find? (fun e => e.1 % 32 == i) = none := List.find?_eq_none.2 fun e he => by
    have h1 := hlow e he
    have h2 := List.mem_range.1 hi
    simp only [beq_iff_eq]
    omega
  rw [hnone]
  rfl

theorem waits_complete : Waits := by
  intro s t j w kmask ctr cen n hc
  have he : exec (.wait kmask ctr cen n) s = execWait kmask ctr cen n s := rfl
  refine ⟨fun h => ?_, fun htok hctr => ?_⟩
  · refine holds_of_hold hc he (if_neg fun hb => ?_)
    simp only [Bool.and_eq_true, tokensZero_iff, Bool.or_eq_true, Bool.not_eq_true', decide_eq_true_eq] at hb
    obtain ⟨htok, hctr⟩ := hb
    rcases h with ⟨k, hk, hbit, hne⟩ | ⟨hcen, hlt⟩
    · exact hne (htok k hk hbit)
    · rcases hctr with hctr | hctr
      · rw [hcen] at hctr
        cases hctr
      · omega
  · have hmet : (w.tokensZero kmask && (!cen || decide (w.ctr ctr ≤ n))) = true := by
      rw [tokensZero_iff.2 htok]
      cases cen with
      | false => rfl
      | true => simpa using hctr rfl
    refine ⟨fun h => leaves_of_done hc he ((if_pos hmet).trans ?_), fun k l p hcen hl hn hlow hf =>
      raises_of_trap hc he ((if_pos hmet).trans ?_)⟩
    · split
      next hb =>
        simp only [Bool.and_eq_true, beq_iff_eq] at hb
        obtain ⟨⟨hcen, hl⟩, hn⟩ := hb
        have hnil : w.poison = [] := by
          rcases h with h | h | h | h
          · rw [hcen] at h; cases h
          · exact absurd hl h
          · exact absurd hn h
          · exact h
        have hnone : w.anyPoison = none := List.findSome?_eq_none_iff.2 fun i _ => by rw [hnil]; rfl
        rw [hnone]
      next => rfl
    · rw [hcen, hl, hn, anyPoison_of_lowest hlow hf, ← ofPoison_eq_ofMark]
      rfl

theorem sleep_blocks : Sleep := by
  intro s t j w n hc
  have he : exec (.sleep n) s = execSleep n s := rfl
  refine ⟨fun hp => ?_, fun hp => ?_⟩
  · exact exec_of_goto hc he (if_neg (by simp [hp]))
  · exact leaves_of_done hc he (if_pos hp)

/-! ### `waitmon` and `waitge` (R195, R196, R230) -/

theorem markPending_iff {s : State} {t : Team} : s.markPending t.uid = true ↔ ¬ noMarks s t := by
  simp only [State.markPending, noMarks, List.any_eq_true, Bool.and_eq_true, beq_iff_eq, not_forall, not_not]
  constructor
  · rintro ⟨o, ho, ht, hk⟩
    split at hk
    next b hb => exact ⟨o, ho, ht, b, hb⟩
    next => cases hk
  · rintro ⟨o, ho, ht, b, hb⟩
    exact ⟨o, ho, ht, by rw [hb]⟩

/-- Walks put no mark in flight. -/
theorem noMarks_walking {s : State} {t : Team} {w : Warp} {addr : Nat → Nat} : noMarks (walking s t w addr) t ↔ noMarks s t := by
  rw [noMarks, noMarks, walking, State.ops_of_beyondMemory (State.walked_beyondMemory ..)]

theorem waitmon_answers {s : State} {t : Team} {j : Nat} {w : Warp} (hc : s.curWarp = some (t, j, w)) {a : Nat} {pa : Nat → Nat}
    {lines : List Nat} (ha : hasPair t a) (hp : w.poisoned [a, a + 1] w.active = none)
    (hr : reachable s t w .read 1 (globalAt w a 0) pa) (hlines : lines = distinctLines ((lanesOf w.active).map fun l => pa l / 128)) :
    exec (.waitmon a) s = .next (s.finish t j
      (if decide (64 < s.monitorsUsed t.core + lines.length) || (lines.any fun n => KMap.find w.watched n == some true) || t.preempting
        then .done (walking s t w (globalAt w a 0)) w
        else .goto (walking s t w (globalAt w a 0)) { w.block .waitmon with monitors := lines })) := by
  show execWaitmon a s = _
  rw [execWaitmon, onWarp_some _ hc, okV2_iff.2 ha, require_true, reading_none _ hp, withGlobal_reachable hr, List.map_map, hlines]
  rfl

/-- The lines of the lanes' words, as `waitge` reads them. -/
theorem linesRead_eq (w : Warp) (addr pa : Nat → Nat) :
    ((lanesOf w.active).map fun l => (l, (addr l : Int), pa l)).foldl (fun acc p =>
      if acc.any fun q => q.1 == lineOf p.2.2 then acc else acc ++ [(lineOf p.2.2, p.2.1.toNat)]) [] = linesRead w addr pa := by
  rw [List.foldl_map]
  rfl

section
variable {s : State} {t : Team} {j : Nat} {w : Warp} (hc : s.curWarp = some (t, j, w)) {d a : Nat}
include hc

theorem waitge_global {pa : Nat → Nat} (hd : hasPair t d) (ha : hasPair t a) (hp : w.poisoned [d, d + 1, a, a + 1] w.active = none)
    (hr : reachable s t w .read 8 (globalAt w a 0) pa) : exec (.waitge d a false) s = .next (s.finish t j
      (waitOn (walking s t w (globalAt w a 0)) t w d a false ((lanesOf w.active).map fun l => (l, (globalAt w a 0 l : Int), pa l)))) := by
  show execWaitge d a false s = _
  rw [execWaitge, onWarp_some _ hc, okV2_iff.2 hd, if_neg Bool.false_ne_true, okV2_iff.2 ha, Bool.and_true, require_true]
  simp only [Bool.false_eq_true, if_false]
  rw [reading_none _ (show w.poisoned ([d, d + 1] ++ [a, a + 1]) w.active = none from hp), withGlobal_reachable hr]

theorem waitge_scratch (hd : hasPair t d) (ha : has t a) (hp : w.poisoned [d, d + 1, a] w.active = none)
    (hin : inScratch t w 8 (scratchAt w a 0)) : exec (.waitge d a true) s = .next (s.finish t j
      (waitOn s t w d a true ((lanesOf w.active).map fun l => (l, scratchAt w a 0 l, (scratchAt w a 0 l).toNat)))) := by
  show execWaitge d a true s = _
  rw [execWaitge, onWarp_some _ hc, okV2_iff.2 hd, if_pos rfl, okV_iff.2 ha, Bool.and_true, require_true]
  simp only [if_true]
  rw [reading_none _ (show w.poisoned ([d, d + 1] ++ [a]) w.active = none from hp)]
  exact congrArg (fun k => Host.Outcome.next (s.finish t j k)) (withLanes_inScratch hin _)

end

/-- Every active lane's word has reached its threshold. -/
theorem all_reached {w : Warp} {d : Nat} {v : Nat → Nat} :
    ((lanesOf w.active).all fun l => decide ((w.vget64 d l).toNat ≤ v l)) = true ↔
      ∀ l < 32, w.active.getLsbD l = true → (w.vget64 d l).toNat ≤ v l := by
  simp only [List.all_eq_true, mem_lanesOf, decide_eq_true_eq, and_imp]

theorem not_all_reached {w : Warp} {d : Nat} {v : Nat → Nat} (h : ∃ l < 32, w.active.getLsbD l = true ∧ v l < (w.vget64 d l).toNat) :
    ((lanesOf w.active).all fun l => decide ((w.vget64 d l).toNat ≤ v l)) = false := by
  obtain ⟨l, hl, ha, hlt⟩ := h
  exact Bool.eq_false_of_not_eq_true fun hall => absurd (all_reached.1 hall l hl ha) (by omega)

/-- `waitge` on a scratchpad word: it completes, or blocks. -/
theorem waitOn_scratch (s : State) (t : Team) (w : Warp) (d a : Nat) (addr : Nat → Int) :
    waitOn s t w d a true ((lanesOf w.active).map fun l => (l, addr l, (addr l).toNat)) =
      if (lanesOf w.active).all fun l => decide ((w.vget64 d l).toNat ≤ leVal (t.scratchRead (addr l).toNat 8))
      then .done s w else .goto s (w.block (.waitge d a true)) := by
  simp only [waitOn, reached, Bool.not_true, Bool.false_and, Bool.false_eq_true, if_false, if_true, List.all_map, Function.comp_def]

/-- `waitge` on a global word with no mark outstanding: it reads the lines, then completes or blocks. -/
theorem waitOn_global {s1 : State} {t : Team} (hm : noMarks s1 t) (w : Warp) (d a : Nat) (addr pa : Nat → Nat) :
    waitOn s1 t w d a false ((lanesOf w.active).map fun l => (l, (addr l : Int), pa l)) =
      let s2 := s1.readWaited t.core t.world (linesRead w addr pa)
      if (lanesOf w.active).all fun l => decide ((w.vget64 d l).toNat ≤ leVal (s2.clusterRead (t.core / 8) t.world (pa l) 8))
      then .done (s2.dropL1 t.core t.world) w else .goto s2 (w.block (.waitge d a false)) := by
  have hno : s1.markPending t.uid = false := Bool.eq_false_of_not_eq_true fun h => markPending_iff.1 h hm
  simp only [waitOn, reached, hno, Bool.and_false, Bool.false_eq_true, if_false, linesRead_eq, List.all_map, Function.comp_def]

theorem memoryWaits : MemoryWaits := by
  intro s t j w hc
  refine ⟨fun a pa lines ha hp hr hlines => ?_, fun d a pa s1 s2 hd ha hp hr hs1 hs2 => ?_, fun d a hd ha hp hin => ?_⟩
  · have he := waitmon_answers hc ha hp hr hlines
    refine ⟨fun h => ?_, fun hfew hmiss hpre => ?_⟩
    · rw [if_pos] at he
      · exact he
      · simpa [or_assoc] using h
    · rw [if_neg] at he
      · exact he
      · simpa [hpre] using ⟨hfew, hmiss⟩
  · have he := waitge_global hc hd ha hp hr
    rw [← hs1] at he
    have hmarks : noMarks s1 t ↔ noMarks s t := by rw [hs1]; exact noMarks_walking
    refine ⟨fun h => ?_, fun h hall => ?_, fun h hsome => ?_⟩
    · rw [he, waitOn, markPending_iff.2 (mt hmarks.1 h)]
      rfl
    · rw [he, waitOn_global (hmarks.2 h), ← hs2]
      exact congrArg (fun k => Host.Outcome.next (s.finish t j k)) (if_pos (all_reached.2 hall))
    · rw [he, waitOn_global (hmarks.2 h), ← hs2]
      refine congrArg (fun k => Host.Outcome.next (s.finish t j k)) (if_neg ?_)
      rw [not_all_reached hsome]
      exact Bool.false_ne_true
  · have he := waitge_scratch hc hd ha hp hin
    rw [waitOn_scratch] at he
    refine ⟨fun hall => ?_, fun hsome => ?_⟩
    · rw [if_pos (all_reached.2 hall)] at he
      exact he
    · rw [not_all_reached hsome, if_neg Bool.false_ne_true] at he
      exact he

end Sys2Proof.Spec
end

section
/-! SUPPORT. A poisoned operand raises its deferred fault (R181), and with it the obligation on waits. -/

namespace Sys2Proof.Spec

open Sys2Proof.Machine

theorem memRegs_eq (ty : MemTy) (d : Nat) : memRegs ty d = regsOf ty d := by cases ty <;> rfl
theorem okMem_iff {t : Team} {ty : MemTy} {d : Nat} : t.okMem ty d = true ↔ memHas ty t d := by
  cases ty with
  | b64 => exact okV2_iff
  | b128 => simp [Team.okMem, Team.okV4, memHas]
  | n8 | n16 | b32 | i8 | i16 => exact okV_iff
theorem isStoreTy_of_ne {ty : MemTy} (h8 : ty ≠ .i8) (h16 : ty ≠ .i16) : isStoreTy ty = true := by
  cases ty with
  | i8 => exact absurd rfl h8
  | i16 => exact absurd rfl h16
  | n8 | n16 | b32 | b64 | b128 => rfl

/-- The registers that `lx` checks. -/
theorem lxOk_of_has {t : Team} {d a src : Nat} {imm : Bool} (hd : has t d) (ha : has t a)
    (hsrc : if imm then src < 32 else has t src) : lxOk d a src imm t = true := by
  rw [lxOk, okV_iff.2 hd, okV_iff.2 ha]
  cases imm with
  | true => exact decide_eq_true hsrc
  | false => exact okV_iff.2 hsrc

theorem exec_laneExchanges {p : (Nat → Nat → Nat → Bool → Nat → Instr) × (Nat → Nat → Int)} (hp : p ∈ laneExchanges) (d a src : Nat)
    (imm : Bool) (sm : Nat) (s : State) :
    exec (p.1 d a src imm sm) s = xlane s (p.1 d a src imm sm) sm (if imm then [a] else [a, src]) (lxOk d a src imm) := by
  simp only [laneExchanges, List.mem_cons, List.not_mem_nil, or_false] at hp
  rcases hp with rfl | rfl | rfl | rfl <;> rfl

theorem exec_reductions {p : (Nat → Nat → Nat → Instr) × (Word → Word → Word) × Word} (hp : p ∈ reductions) (d a sm : Nat)
    (s : State) : exec (p.1 d a sm) s = xlane s (p.1 d a sm) sm [a] (combOk d a) := by
  simp only [reductions, List.mem_cons, List.not_mem_nil, or_false] at hp
  rcases hp with rfl | rfl | rfl | rfl | rfl | rfl | rfl | rfl <;> rfl

theorem exec_fpReductions {p : (Nat → Nat → Nat → Instr) × (Warp → Nat → LaneMask → Word → Flags → Prop)} (hp : p ∈ fpReductions)
    (d a sm : Nat) (s : State) : exec (p.1 d a sm) s = xlane s (p.1 d a sm) sm [a] (combOk d a) := by
  simp only [fpReductions, List.mem_cons, List.not_mem_nil, or_false] at hp
  rcases hp with rfl | rfl | rfl <;> rfl

/-- A cross-lane word is a rendezvous on its mask that reads its sources in the participants' lanes. -/
theorem exec_crossLane {t : Team} {d a src : Nat} {imm : Bool} {sm : Nat} {i : Instr × Prop × List Nat}
    (hi : i ∈ crossLane t d a src imm sm) (hok : i.2.1) (s : State) :
    ∃ ok : Team → Bool, ok t = true ∧ exec i.1 s = xlane s i.1 sm i.2.2 ok := by
  simp only [crossLane, List.mem_append, List.mem_map] at hi
  rcases hi with ((⟨p, hp, rfl⟩ | ⟨p, hp, rfl⟩) | ⟨p, hp, rfl⟩) | hi
  · exact ⟨_, lxOk_of_has hok.1 hok.2.1 hok.2.2, exec_laneExchanges hp d a src imm sm s⟩
  · exact ⟨_, ok2_iff.2 hok, exec_reductions hp d a sm s⟩
  · exact ⟨_, ok2_iff.2 hok, exec_fpReductions hp d a sm s⟩
  · simp only [List.mem_cons, List.not_mem_nil, or_false] at hi
    rcases hi with rfl | rfl | rfl | rfl | rfl
    · exact ⟨fun _ => true, rfl, rfl⟩
    · exact ⟨fun _ => true, rfl, rfl⟩
    · exact ⟨fun _ => true, rfl, rfl⟩
    · exact ⟨fun t => t.okV d && t.okV a, ok2_iff.2 hok, rfl⟩
    · exact ⟨fun t => t.okV d && t.okV2 a, Bool.and_eq_true_iff.2 ⟨okV_iff.2 hok.1, okV2_iff.2 hok.2⟩, rfl⟩

/-- With every participant present, a rendezvous on a poisoned source raises its mark. -/
theorem xlane_marked {s : State} {t : Team} {j : Nat} {w : Warp} {i : Instr} {sm : Nat} {srcs : List Nat} {ok : Team → Bool}
    {l : Nat} {p : Poison} (hc : s.curWarp = some (t, j, w)) (he : exec i s = xlane s i sm srcs ok) (hok : ok t = true)
    (hpark : w.park = none) (hin : w.active &&& ~~~(w.sget sm) = 0) (hall : parts w sm &&& ~~~w.active = 0)
    (hm : firstMark w srcs (parts w sm) l p) : raises i s t j w (ofMark l p) := by
  refine raises_of_trap hc he (w' := w) ?_
  have hpois := poisoned_of_firstMark hm
  have hor : w.active ||| (0 : LaneMask) = w.active := BitVec.or_zero
  unfold parts at hall hpois
  simp only [hok, require_true, hpark, hor, hin, ne_eq, not_true_eq_false, if_false, Bool.not_true, Bool.false_eq_true,
    hall, if_true, reading_some _ hpois, ofPoison_eq_ofMark]

theorem poisonedOperands : PoisonedOperands := by
  intro s t j w d a b l p hc
  refine ⟨fun hm hd ha hb => ⟨fun q hq => ?_, fun k => ?_⟩, fun hm hd ha => ⟨fun q hq => ?_, fun q hq imm => ?_⟩,
    fun hm hd ha hb q hq => ?_, fun q hq ty hm ha hb => ?_, fun q hq hm hd ha hb => ?_,
    fun ty hint off hd ha => ⟨fun hroom hm => ?_, fun hroom h8 h16 hm => ?_⟩,
    fun q hq ty scope ord pro hd hr ha hroom hord hrel hm => ?_, fun src imm sm i hi hok hpark hin hall hm => ?_⟩
  · exact (guarded_laneOp (exec_vectorOps hq d a b s)).marked hc (ok3_iff.2 ⟨hd, ha, hb⟩) hm
  · exact (guarded_laneOp (i := .sel d a b k) rfl).marked hc (ok3_iff.2 ⟨hd, ha, hb⟩) hm
  · exact (guarded_laneOp (exec_vectorUnary hq d a s)).marked hc (ok2_iff.2 ⟨hd, ha⟩) hm
  · exact (guarded_laneOp (exec_vectorImm hq d a imm s)).marked hc (ok2_iff.2 ⟨hd, ha⟩) hm
  · exact (guarded_laneOp (exec_vector64 hq d a b s)).marked hc
      (by rw [okV2_iff.2 hd, okV2_iff.2 ha, okV2_iff.2 hb]; rfl) hm
  · obtain ⟨ok, hok, hg⟩ := guarded_vectorCompares hq d a b ty s
    exact hg.marked hc ((hok t).2 ⟨ha, hb⟩) hm
  · exact (guarded_laneOpF (exec_fpBinary hq d a b s)).marked hc
      (by rw [okFp_iff.2 hd, okFp_iff.2 ha, okFp_iff.2 hb]; rfl) hm
  · refine raises_of_trap (i := .ldG ty hint d a off) hc rfl (w' := w) ?_
    rw [okMem_iff.2 hd, okV2_iff.2 ha, Bool.and_true, require_true, raising_room (ct := .l) hroom,
      reading_some _ (poisoned_of_firstMark hm), ofPoison_eq_ofMark]
  · refine raises_of_trap (i := .stG ty hint d a off) hc rfl (w' := w) ?_
    rw [isStoreTy_of_ne h8 h16, okMem_iff.2 hd, okV2_iff.2 ha, Bool.and_true, Bool.and_true, require_true, raising_room (ct := .s) hroom,
      memRegs_eq, reading_some _ (poisoned_of_firstMark hm), ofPoison_eq_ofMark]
  · show exec (q.2.1 d a ty scope ord pro) s = _
    rw [atomGlobal_legal (exec_atomics hq ..) hc hd hr ha hroom hord, releasing_met hrel,
      reading_some _ (poisoned_of_firstMark hm), ofPoison_eq_ofMark]
    rfl
  · obtain ⟨ok, hokt, he⟩ := exec_crossLane hi hok s
    exact xlane_marked hc he hokt hpark hin hall hm

/-- Settles O44: each wait is the model's own test of its counters or its lines, and a poisoned source stops an instruction between
its legality and its effect. -/
theorem waitsAndSleep : Obligations.WaitsAndSleep := ⟨waits_complete, sleep_blocks, memoryWaits, poisonedOperands⟩

end Sys2Proof.Spec
end

section
/-! SUPPORT. What warps see of a register of the team after a write of it, and the obligation on system registers (R93, R112, R113,
R138, R175, R176, R201, R331). -/

namespace Sys2Proof.Spec

open Sys2Proof.Machine

/-! ### Older values after a write (R138, R176, R201) -/

/-- A warp that learns of what satisfies `p` sees the rest. -/
theorem maySee_learn {x : Team} {j : Nat} {p : OldValue → Bool} {i : Nat} {u : OldWhat} {z : DWord} :
    maySee (x.learn j p).old i u z ↔ ∃ e ∈ x.old, e.what = u ∧ e.value = z ∧ i ∉ e.known ∧ ¬ (p e = true ∧ i = j) := by
  simp only [maySee, Team.learn, List.mem_map, exists_exists_and_eq_and]
  refine exists_congr fun e => and_congr_right fun _ => ?_
  split
  next h =>
    obtain ⟨hp, -⟩ := Bool.and_eq_true_iff.1 h
    simp [hp, not_or]
  next h =>
    have hk : p e = true → j ∈ e.known := by simpa using h
    refine and_congr_right fun _ => and_congr_right fun _ => ⟨fun hi => ⟨hi, ?_⟩, And.left⟩
    rintro ⟨hp, rfl⟩
    exact hi (hk hp)

/-- What every warp is ordered after is seen by none. -/
theorem maySee_forget {x : Team} {i : Nat} (hi : i < x.warps.length) {u : OldWhat} {z : DWord} :
    maySee x.forget.old i u z ↔ maySee x.old i u z := by
  simp only [maySee, Team.forget, List.mem_filter, List.any_eq_true, List.mem_range]
  refine exists_congr fun e => ⟨fun ⟨⟨he, _⟩, h⟩ => ⟨he, h⟩, fun ⟨he, hw, hv, hk⟩ => ⟨⟨he, i, hi, by simpa using hk⟩, hw, hv, hk⟩⟩

theorem leavesOlder_leaveOld (x : Team) (j : Nat) (what : OldWhat) (v : DWord) :
    leavesOlder x { x with old := (x.leaveOld j what v).old } j what v := by
  intro i u z hi
  have hadd : ∀ (l : List OldValue) (e : OldValue),
      maySee (if l.contains e then l else l ++ [e]) i u z ↔ maySee l i u z ∨ (e.what = u ∧ e.value = z ∧ i ∉ e.known) := by
    intro l e
    have happ : maySee (l ++ [e]) i u z ↔ maySee l i u z ∨ (e.what = u ∧ e.value = z ∧ i ∉ e.known) := by
      simp [maySee, or_and_right, exists_or]
    split
    next h => exact ⟨.inl, fun hs => hs.elim id fun he => ⟨e, by simpa using h, he⟩⟩
    next => exact happ
  show maySee (x.leaveOld j what v).old i u z ↔ _
  unfold Team.leaveOld
  rw [maySee_forget (by exact hi)]
  dsimp only
  rw [hadd, maySee_learn]
  simp only [beq_iff_eq, List.mem_singleton, not_and]
  by_cases hu : u = what
  · subst hu
    simp only [maySee, if_true]
    constructor
    · rintro (⟨e, he, hw, hz, hk, hij⟩ | ⟨-, rfl, hij⟩)
      · exact ⟨hij hw, .inr ⟨e, he, hw, hz, hk⟩⟩
      · exact ⟨hij, .inl rfl⟩
    · rintro ⟨hij, rfl | ⟨e, he, hw, hz, hk⟩⟩
      · exact .inr ⟨trivial, rfl, hij⟩
      · exact .inl ⟨e, he, hw, hz, hk, fun _ => hij⟩
  · rw [if_neg hu, maySee]
    constructor
    · rintro (⟨e, he, hw, hz, hk, -⟩ | ⟨hw, -, -⟩)
      · exact ⟨e, he, hw, hz, hk⟩
      · exact absurd hw.symm hu
    · rintro ⟨e, he, hw, hz, hk⟩
      exact .inl ⟨e, he, hw, hz, hk, fun h => absurd (hw.symm.trans h) hu⟩

/-! ### `getsr` and `setsr` (R93, R112, R113, R175, R176) -/

theorem fpmode_bits (v : Word) : v &&& 7#32 = BitVec.ofNat 32 (v.toNat % 8) := by
  refine BitVec.eq_of_toNat_eq ?_
  have h : v.toNat &&& 7 = v.toNat % 8 := Nat.and_two_pow_sub_one_eq_mod v.toNat 3
  rw [BitVec.toNat_and, BitVec.toNat_ofNat, BitVec.toNat_ofNat, Nat.mod_eq_of_lt (show 7 < 2 ^ 32 by decide), h]
  omega

theorem fpstat_bits (v : Word) : v.extractLsb' 0 5 = BitVec.ofNat 5 v.toNat :=
  BitVec.eq_of_toNat_eq (by simp)

/-- TRAPVEC takes a multiple of 4 below 2^58. -/
theorem trapvecOk_iff {v : DWord} : trapvecOk v = true ↔ v.toNat % 4 = 0 ∧ v.toNat < 2 ^ 58 := by
  have hv := v.isLt
  simp only [trapvecOk, field, Bool.and_eq_true, beq_iff_eq]
  omega

section
variable {s : State} {t : Team} {j : Nat} {w : Warp} (hc : s.curWarp = some (t, j, w)) {d : Nat}
include hc

/-- A 32-bit system register goes to a scalar register. -/
theorem getsr_word {r : Nat} {v : Word} (h2 : r ≠ 2) (hr : readSr s t j w r = some v) (hd : d < 64) :
    leaves (.getsr d r) s t j (w.sset d v) := by
  refine leaves_of_done (i := .getsr d r) hc rfl ?_
  rw [if_neg h2, hr]
  exact (congrArg (require · s w _) (decide_eq_true hd)).trans (require_true ..)

/-- A 64-bit system register goes to a scalar pair. -/
theorem getsr_pair {r : Nat} {v : DWord} (h2 : r ≠ 2) (hn : readSr s t j w r = none) (hr : readSr64 s t w r = some v)
    (hd : d < 64) (heven : d % 2 = 0) : leaves (.getsr d r) s t j (w.sset64 d v) := by
  refine leaves_of_done (i := .getsr d r) hc rfl ?_
  rw [if_neg h2, hn, hr]
  exact (congrArg (require · s w _) (by rw [decide_eq_true hd, okS2_eq_true heven]; rfl)).trans (require_true ..)

/-- A write of one of the three registers of the activation stack. -/
theorem setsr_stack {a r k : Nat} (ha : a % 2 = 0) (hr : (r, k) ∈ [(8, 0), (9, 1), (10, 2)]) :
    leavesOn (.setsr a r) s (s.updTeam t.uid fun x => x.setAs j k (w.sget64 a)) t j w := by
  simp only [List.mem_cons, Prod.mk.injEq, List.not_mem_nil, or_false] at hr
  have hreq := okS2_eq_true ha
  rcases hr with ⟨rfl, rfl⟩ | ⟨rfl, rfl⟩ | ⟨rfl, rfl⟩
  all_goals exact leavesOn_of_done hc rfl ((congrArg (require · s w _) hreq).trans (require_true ..))

end

theorem readSystemRegisters : ReadSystemRegisters := by
  intro s t j w d hc
  refine ⟨fun hd => ⟨_, leaves_of_done (i := .getsr d 2) hc rfl ?_, laneResult_writeLanes ..⟩, fun hd => ?_, fun hd heven => ?_,
    fun r hr => ?_⟩
  · rw [if_pos rfl, okV_iff.2 hd, require_true]
  · have hword : ∀ {r v}, r ≠ 2 → readSr s t j w r = some v → leaves (.getsr d r) s t j (w.sset d v) :=
      fun h2 h => getsr_word hc h2 h hd
    refine ⟨hword (by decide) rfl, ?_, hword (by decide) rfl, hword (by decide) rfl, hword (by decide) rfl, hword (by decide) rfl,
      hword (by decide) rfl, hword (by decide) rfl⟩
    exact hword (by decide) (congrArg some (BitVec.eq_of_toNat_eq (by simp [BitVec.zeroExtend])))
  · have hpair : ∀ {r v}, r ≠ 2 → readSr s t j w r = none → readSr64 s t w r = some v →
        leaves (.getsr d r) s t j (w.sset64 d v) := fun h2 hn h => getsr_pair hc h2 hn h hd heven
    exact ⟨hpair (by decide) rfl rfl, hpair (by decide) rfl rfl, hpair (by decide) rfl rfl, hpair (by decide) rfl rfl,
      hpair (by decide) rfl rfl⟩
  · refine raises_of_trap (i := .getsr d r) hc rfl (w' := w) ?_
    obtain ⟨n, rfl⟩ : ∃ n, r = n + 14 := ⟨r - 14, by omega⟩
    exact if_neg (by omega)

theorem writeSystemRegisters : WriteSystemRegisters := by
  intro s t j w a hc
  have hold : ∀ k v x, leavesOlder x { x with old := (x.leaveOld j (.stack k) v).old } j (.stack k) v :=
    fun k v x => leavesOlder_leaveOld x j (.stack k) v
  refine ⟨leaves_of_done (i := .setsr a 0) hc rfl (congrArg (fun v => Issue.done s { w with fpmode := v }) (fpmode_bits _)),
    leaves_of_done (i := .setsr a 1) hc rfl (congrArg (fun v => Issue.done s { w with fpstat := v }) (fpstat_bits _)),
    leaves_of_done (i := .setsr a 6) hc rfl rfl, fun ha => ⟨?_, ?_, ?_, fun h4 h58 => ?_, fun hbad => ?_⟩, fun r hr => ?_⟩
  · exact ⟨_, setsr_stack hc ha (r := 8) (k := 0) (by decide), fun x => hold 0 x.asbase x⟩
  · exact ⟨_, setsr_stack hc ha (r := 9) (k := 1) (by decide), fun x => hold 1 x.aslimit x⟩
  · exact ⟨_, setsr_stack hc ha (r := 10) (k := 2) (by decide), fun x => hold 2 x.astop x⟩
  · refine leavesOn_of_done (i := .setsr a 11) hc rfl ((congrArg (require · s w _) ?_).trans (require_true ..))
    rw [okS2_eq_true ha, trapvecOk_iff.2 ⟨h4, h58⟩]
    rfl
  · refine raises_of_trap (i := .setsr a 11) hc rfl (w' := w) ((congrArg (require · s w _) ?_).trans (require_false ..))
    rw [Bool.eq_false_of_not_eq_true (mt trapvecOk_iff.1 (by omega)), Bool.and_false]
  · refine raises_of_trap (i := .setsr a r) hc rfl (w' := w) ?_
    dsimp only
    split
    case h_8 => rfl
    all_goals exact absurd (by decide) hr

/-- Settles O48: each register number is one row of the model's tables, and a write of the activation stack leaves what the others may
still see. -/
theorem systemRegisters : Obligations.SystemRegisters := ⟨readSystemRegisters, writeSystemRegisters⟩

end Sys2Proof.Spec
end

section
/-! SUPPORT. What a core's fetch leaves of the selected warp (R73, R195, R216, R326, R335): it is still selected, and at most has
learnt of writes to its lines. -/

namespace Sys2Proof.Machine

/-- The selected warp stays selected and has at most learnt of writes to its lines (R195); no instruction is held that was not. -/
def State.Learns (s s' : State) : Prop :=
  s'.held = s.held ∧ ∀ t j w, s.curWarp = some (t, j, w) →
    ∃ t' y, s'.curWarp = some (t', j, { w with watched := y }) ∧ t'.uid = t.uid ∧ t'.nregs = t.nregs

theorem State.Learns.trans {s s' s'' : State} (h : s.Learns s') (h' : s'.Learns s'') : s.Learns s'' := by
  obtain ⟨hh, hw⟩ := h
  obtain ⟨hh', hw'⟩ := h'
  refine ⟨hh'.trans hh, fun t j w hc => ?_⟩
  obtain ⟨t1, y1, hc1, hu1, hn1⟩ := hw t j w hc
  obtain ⟨t2, y2, hc2, hu2, hn2⟩ := hw' t1 j _ hc1
  exact ⟨t2, y2, hc2, hu2.trans hu1, hn2.trans hn1⟩

/-- Where the teams stay as they are, nothing is learnt. -/
theorem State.learns_of_eq {s s' : State} (ht : s'.teams = s.teams) (hc : s'.cur = s.cur) (hh : s'.held = s.held) : s.Learns s' := by
  refine ⟨hh, fun t j w h => ⟨t, w.watched, ?_, rfl, rfl⟩⟩
  rw [← h]
  simp only [State.curWarp, State.findWarp, State.findTeam, ht, hc]

theorem State.learns_of_teams {s s' : State} (ht : s'.teams = s.teams) (hb : s'.beyondMemory = s.beyondMemory) : s.Learns s' :=
  State.learns_of_eq ht (show s'.beyondMemory.cur = s.beyondMemory.cur by rw [hb])
    (show s'.beyondMemory.held = s.beyondMemory.held by rw [hb])

theorem State.Learns.refl (s : State) : s.Learns s := State.learns_of_eq rfl rfl rfl

theorem State.learns_foldl {α : Type} {f : State → α → State} (hf : ∀ (s : State) a, s.Learns (f s a)) (l : List α) (s : State) :
    s.Learns (l.foldl f s) := by
  induction l generalizing s with
  | nil => exact .refl s
  | cons a r ih => exact (hf s a).trans (ih _)

theorem State.foldl_teams {α : Type} {f : State → α → State} (hf : ∀ s a, (f s a).teams = s.teams) (l : List α) (s : State) :
    (l.foldl f s).teams = s.teams := by
  induction l generalizing s with
  | nil => rfl
  | cons a r ih => rw [List.foldl_cons, ih, hf]

/-- A running warp that sees a write learns of it, and no more. -/
theorem Warp.seeWrite_running {w : Warp} (h : w.status = .running) (mine : Bool) (line : Nat) :
    ∃ y, w.seeWrite mine line = { w with watched := y } := by
  have hw : ∀ x : Warp, x.status = .running → x.wakeOn line = x := fun x hx => if_neg (by simp [hx])
  unfold Warp.seeWrite
  dsimp only
  split
  · exact ⟨_, hw _ h⟩
  · exact ⟨w.watched, hw _ h⟩

/-- A team whose warps have seen a write to a line. -/
def Team.seeWrite (t : Team) (a : Option (Nat × Nat)) (line : Nat) : Team :=
  { t with warps := (t.warps.zip (List.range t.warps.length)).map fun p => p.1.seeWrite (a == some (t.uid, p.2)) line }

theorem State.findTeam_noteWrite (s : State) (a : Option (Nat × Nat)) (line uid : Nat) :
    (s.noteWrite a line).findTeam uid = (s.findTeam uid).map fun t => t.seeWrite a line := by
  show (s.teams.map fun t => t.seeWrite a line).find? _ = _
  rw [List.find?_map]
  rfl

theorem Team.warp_seeWrite {t : Team} {j : Nat} {w : Warp} (hj : t.warps[j]? = some w) (a : Option (Nat × Nat)) (line : Nat) :
    (t.seeWrite a line).warps[j]? = some (w.seeWrite (a == some (t.uid, j)) line) := by
  have hlt : j < t.warps.length := (List.getElem?_eq_some_iff.1 hj).1
  have hz : (t.warps.zip (List.range t.warps.length))[j]? = some (w, j) :=
    (List.getElem?_zip_eq_some (z := (w, j))).2 ⟨hj, List.getElem?_range hlt⟩
  rw [Team.seeWrite, List.getElem?_map, hz]
  rfl

/-- A running warp of a resident team that the scheduler has picked is the selected one. -/
theorem curWarp_of {s : State} {t : Team} {j : Nat} {w : Warp} (ht : s.findTeam t.uid = some t) (hj : t.warps[j]? = some w)
    (hcur : s.cur = some (t.uid, j)) (hplace : t.place = .resident) (hrun : w.status = .running) : s.curWarp = some (t, j, w) := by
  simp only [State.curWarp, State.findWarp, Team.warp, hcur, ht, hj, hplace, hrun, and_self, if_true]

theorem State.learns_noteWrite (s : State) (a : Option (Nat × Nat)) (line : Nat) : s.Learns (s.noteWrite a line) := by
  refine ⟨rfl, fun t j w hc => ?_⟩
  obtain ⟨ht, hj, hcur, hplace, hrun⟩ := curWarp_spec hc
  obtain ⟨y, hy⟩ := Warp.seeWrite_running hrun (a == some (t.uid, j)) line
  have hfind : (s.noteWrite a line).findTeam (t.seeWrite a line).uid = some (t.seeWrite a line) := by
    show (s.noteWrite a line).findTeam t.uid = _
    rw [State.findTeam_noteWrite, ht]
    rfl
  exact ⟨t.seeWrite a line, y, curWarp_of hfind ((Team.warp_seeWrite hj a line).trans (congrArg some hy)) hcur hplace hrun, rfl, rfl⟩

/-! ### Memory and packets: the teams stay -/

theorem State.touchLine_teams (s : State) (pa n : Nat) : (s.touchLine pa n).teams = s.teams := by
  unfold State.touchLine; split <;> rfl
theorem State.keepCode_teams (s : State) (pa : Nat) (bs : List Byte) : (s.keepCode pa bs).teams = s.teams := by
  unfold State.keepCode; dsimp only; split <;> rfl
theorem State.dropPacket_teams (s : State) (line : Nat) : (s.dropPacket line).teams = s.teams := State.settleHealth_teams _
theorem State.lostWrite_teams (s : State) (w : Nat) (o : Origin) : (s.lostWrite w o).teams = s.teams := rfl
theorem State.clearLine_teams (s : State) (line : Nat) : (s.clearLine line).teams = s.teams := rfl
theorem State.dramPackets_teams (s : State) (w line : Nat) (b : Bool) : (s.dramPackets w line b).teams = s.teams := by
  unfold State.dramPackets; dsimp only; split <;> rfl
theorem State.homeTrip_teams (s : State) (c w line : Nat) (b : Bool) : (s.homeTrip c w line b).teams = s.teams := by
  unfold State.homeTrip; dsimp only; split <;> rfl
theorem State.loseGathered_teams (s : State) (gone : List Gathered) : (s.loseGathered gone).teams = s.teams := by
  unfold State.loseGathered
  exact (State.foldl_teams (fun _ _ => State.lostWrite_teams ..) _ _).trans (State.foldl_teams State.dropPacket_teams _ _)
theorem State.readCells_teams (w : Nat) (s : State) (line : Nat) : (State.readCells w s line).2.teams = s.teams := by
  have h0 : (if s.cachedLine w line then s else s.dramPackets w line false).teams = s.teams := by
    split
    · rfl
    · exact State.dramPackets_teams ..
  have h1 : ∀ x : State, x.countEcc.teams = x.teams := fun _ => State.settleHealth_teams _
  unfold State.readCells
  generalize (if s.cachedLine w line then s else s.dramPackets w line false) = s0 at h0
  dsimp only
  split
  · exact h0
  split
  · exact h0
  split
  · exact h0
  split
  · exact h0
  next c _ => rw [← h0]; cases c.fault.isSome <;> cases readCounts c <;> simp [h1, State.setLineMeta]

/-! ### Writes and gathered stores -/

theorem State.learns_writeMemLine (s : State) (a : Option (Nat × Nat)) (pa : Nat) (bs : List Byte) :
    s.Learns (s.writeMemLine a pa bs) := by
  refine .trans (State.learns_of_teams ?_ ?_) (State.learns_noteWrite ..)
  · rw [State.touchLine_teams]
    exact State.keepCode_teams ..
  · rw [State.touchLine_beyondMemory]
    exact State.keepCode_beyondMemory ..

theorem State.learns_writeMemGo (a : Option (Nat × Nat)) (f : Nat) (s : State) (pa : Nat) (bs : List Byte) :
    s.Learns (State.writeMemGo a f s pa bs) := by
  induction f generalizing s pa bs with
  | zero => exact .refl s
  | succ f ih =>
    rw [State.writeMemGo]
    split
    · exact .refl s
    · exact (State.learns_writeMemLine ..).trans (ih ..)

theorem State.learns_mergeWhere (s : State) (p : Gathered → Bool) : s.Learns (s.mergeWhere p) := by
  unfold State.mergeWhere
  dsimp only
  refine .trans (.trans ?_ (State.learns_foldl (fun _ _ => State.learns_writeMemGo ..) _ _))
    (State.learns_of_teams (State.foldl_teams (fun _ _ => State.clearLine_teams ..) _ _)
      (State.foldl_beyondMemory (fun _ _ => State.clearLine_beyondMemory ..) _ _))
  refine State.learns_of_teams ?_ ?_
  · exact (State.foldl_teams (fun _ _ => State.homeTrip_teams ..) _ _).trans (State.loseGathered_teams ..)
  · exact (State.foldl_beyondMemory (fun _ _ => State.homeTrip_beyondMemory ..) _ _).trans (State.loseGathered_beyondMemory ..)

theorem State.learns_snoopOwner (s : State) (line : Nat) : s.Learns (s.snoopOwner line) := by
  unfold State.snoopOwner
  split
  · exact State.learns_mergeWhere ..
  · exact .refl s

/-! ### Reads, walks and fetches -/

theorem State.learns_readLine (w : Nat) (s : State) (line : Nat) : s.Learns (State.readLine w s line).2 := by
  unfold State.readLine
  dsimp only
  refine (State.learns_snoopOwner s line).trans ?_
  split
  · exact State.learns_of_teams (State.dropPacket_teams ..) (State.dropPacket_beyondMemory ..)
  · exact State.learns_of_teams (State.readCells_teams ..) (State.readCells_beyondMemory ..)

theorem State.learns_walk2 (w a n : Nat) (s : State) (tbl : Nat) : s.Learns (State.walk2 w a n s tbl).2 := by
  induction n generalizing s tbl with
  | zero => exact .refl s
  | succ n ih =>
    have hd : ∀ pa, s.Learns (s.readDesc w pa).2 := fun _ => State.learns_readLine ..
    rw [State.walk2]
    split
    · exact hd _
    split
    · exact (hd _).trans (ih ..)
    · exact hd _

theorem State.learns_gpaWalk (s : State) (w gpa : Nat) : s.Learns (s.gpaWalk w gpa).2 := by
  unfold State.gpaWalk
  split
  · exact State.learns_walk2 ..
  · exact .refl s

theorem State.learns_walk1 (w a n : Nat) (s : State) (tbl : Nat) : s.Learns (State.walk1 w a n s tbl).2 := by
  induction n generalizing s tbl with
  | zero => exact .refl s
  | succ n ih =>
    have hd : ∀ (x : State) pa, x.Learns (x.readDesc w pa).2 := fun _ _ => State.learns_readLine ..
    rw [State.walk1]
    dsimp only
    refine (State.learns_gpaWalk s w (tbl + 8 * levelIndex (3 - n) a)).trans ?_
    split
    · exact .refl _
    split
    · exact hd ..
    split
    · exact (hd ..).trans (ih ..)
    · exact hd ..

theorem State.learns_pageWalk (s : State) (core w va : Nat) : s.Learns (s.pageWalk core w va).2 := by
  have h := State.learns_walk1 w va 4 s (s.world w).s1root
  unfold State.pageWalk
  split
  next e s1 hw => rw [hw] at h; exact h
  next l s1 hw => rw [hw] at h; exact h.trans (State.learns_gpaWalk ..)

theorem State.learns_walked (s : State) (core w : Nat) (vas : List Nat) : s.Learns (s.walked core w vas) := by
  refine State.learns_foldl (fun x p => ?_) _ _
  split
  · exact .refl x
  · exact State.learns_pageWalk ..

theorem State.learns_loadLine (c w : Nat) (s : State) (line : Nat) : s.Learns (State.loadLine c w s line).2 := by
  unfold State.loadLine
  split
  · exact .refl s
  split
  · exact .refl s
  split
  · exact (State.learns_of_teams (State.homeTrip_teams ..) (State.homeTrip_beyondMemory ..)).trans (State.learns_readLine ..)
  · exact State.learns_readLine ..

theorem State.learns_noteLog (s : State) (w kind agent op unit span amount : Nat) :
    s.Learns (s.noteLog w kind agent op unit span amount) := by
  unfold State.noteLog
  dsimp only
  split
  · exact .refl s
  · exact State.learns_of_eq rfl rfl rfl

theorem State.learns_noteLine (s : State) (w agent op gpa line : Nat) : s.Learns (s.noteLine w agent op gpa line) := by
  unfold State.noteLine
  split
  · exact .refl s
  · exact State.learns_noteLog ..

theorem State.learns_noteMem (s : State) (core w agent op va pa n : Nat) : s.Learns (s.noteMem core w agent op va pa n) := by
  unfold State.noteMem
  split
  · exact .refl s
  · refine State.learns_foldl (fun x p => ?_) _ _
    split
    · exact .refl x
    · exact State.learns_noteLine ..

/-- A fetch leaves the selected warp selected; it may have learnt of writes to its lines. -/
theorem State.learns_fetched (s : State) (t : Team) (va : Nat) : s.Learns (s.fetched t va) := by
  unfold State.fetched
  dsimp only
  refine (State.learns_walked s t.core t.world [va]).trans ?_
  split
  · exact .refl _
  next pa _ =>
    split
    · exact .refl _
    refine (State.learns_noteMem _ t.core t.world (logAgent 0 t.core) logRead va pa 1).trans
      ((State.learns_loadLine (t.core / 8) t.world _ (lineOf pa)).trans ?_)
    split
    · exact .refl _
    · exact State.learns_of_eq rfl rfl rfl

end Sys2Proof.Machine
end

section
/-! SUPPORT. `rep`: what words may repeat, the fields it steps, one repeat at each opportunity, and the obligation on repeated words
(R82, R151, R152). -/

namespace Sys2Proof.Machine

/-! ### The warp a repeat leaves -/

theorem State.updWarp_updWarp (s : State) (u j : Nat) (f g : Warp → Warp) :
    (s.updWarp u j f).updWarp u j g = s.updWarp u j (g ∘ f) := by
  simp only [State.updWarp, State.updTeam, List.map_map]
  refine congrArg (fun l => ({ s with teams := l } : State)) (List.map_congr_left fun t _ => ?_)
  by_cases h : t.uid = u
  · simp [h, Team.updWarp, List.modify_modify_eq]
  · simp [h]

theorem Warp.advance_of_lt {w : Warp} (h : w.idx + 1 < w.count) : w.advance = { w with idx := w.idx + 1 } := if_pos h

/-- What a warp has learnt of writes does not matter to where it goes on. -/
theorem Warp.advance_learnt (w : Warp) (y : KMap Bool) : ({ w with watched := y } : Warp).advance = { w.advance with watched := y } := by
  unfold Warp.advance
  by_cases h : w.idx + 1 < w.count
  · rw [if_pos h]
    exact if_pos h
  · rw [if_neg h]
    exact if_neg h

theorem findWarp_of_curWarp {s : State} {t : Team} {j : Nat} {w : Warp} (hc : s.curWarp = some (t, j, w)) :
    s.findWarp t.uid j = some (t, w) := by
  obtain ⟨ht, hj, -⟩ := curWarp_spec hc
  simp only [State.findWarp, Team.warp, ht, hj]

end Sys2Proof.Machine

namespace Sys2Proof.Spec

open Sys2Proof.Machine

/-! ### Words that `rep` may repeat (R82) -/

theorem repFormat_eq_none {op : Nat} (h : op ∉ repeatable) : repFormat op = none := by
  unfold repFormat
  split
  case h_14 => rfl
  all_goals exact absurd (by decide) h

/-- What a word decodes to, if to anything, satisfies `p`. -/
def decodesTo (p : Instr → Prop) : Except DecodeError Instr → Prop
  | .ok i => p i
  | .error _ => True

theorem decodesTo_reserved {p : Instr → Prop} {r : Except DecodeError Instr} (h : decodesTo p r) (n : Nat) :
    decodesTo p (reserved n r) := by
  unfold reserved
  split
  · exact h
  · trivial

theorem decodesTo_assigned {p : Instr → Prop} {α : Type} {k : α → Except DecodeError Instr} (h : ∀ x, decodesTo p (k x))
    (o : Option α) : decodesTo p (assigned o k) := by
  cases o with
  | none => trivial
  | some x => exact h x

/-- One repeat of the instruction is the instruction. -/
def repeats (i : Instr) : Prop := ∀ s, execRepeat i s = exec i s

theorem repeats_reserved {i : Instr} (h : ∀ s, execRepeat i s = exec i s) (n : Nat) : decodesTo repeats (reserved n (.ok i)) :=
  decodesTo_reserved (p := repeats) (r := .ok i) h n

theorem repeats_op00 (u : Nat) : decodesTo repeats (decodeOp00 u) := by
  unfold decodeOp00
  split
  case h_27 => trivial
  all_goals exact repeats_reserved (fun _ => rfl) _

theorem repeats_op01 (u : Nat) : decodesTo repeats (decodeOp01 u) := by
  unfold decodeOp01
  split
  case h_16 => exact repeats_reserved (fun _ => rfl) _
  case h_28 => trivial
  all_goals exact fun _ => rfl

theorem repeats_op10 (u : Nat) : decodesTo repeats (decodeOp10 u) := by
  unfold decodeOp10
  split
  case h_23 => trivial
  case h_17 | h_18 | h_19 | h_22 => exact repeats_reserved (fun _ => rfl) _
  all_goals exact fun _ => rfl

theorem repeats_op11 (u : Nat) : decodesTo repeats (decodeOp11 u) := by
  unfold decodeOp11
  split
  case h_16 => exact repeats_reserved (fun _ => rfl) _
  case h_17 => trivial
  all_goals exact fun _ => rfl

theorem repeats_op12 (u : Nat) : decodesTo repeats (decodeOp12 u) := by
  unfold decodeOp12
  split
  case h_14 | h_15 => exact repeats_reserved (fun _ => rfl) _
  case h_18 => trivial
  all_goals exact fun _ => rfl

theorem repeats_op14 (u : Nat) : decodesTo repeats (decodeOp14 u) := by
  unfold decodeOp14
  split
  case h_7 | h_8 => exact repeats_reserved (fun _ => rfl) _
  case h_9 => trivial
  all_goals exact fun _ => rfl

theorem repeats_op15 (u : Nat) : decodesTo repeats (decodeOp15 u) := by
  unfold decodeOp15
  split
  case h_7 | h_8 => exact repeats_reserved (fun _ => rfl) _
  case h_9 => trivial
  all_goals exact fun _ => rfl

theorem repeats_op17 (u : Nat) : decodesTo repeats (decodeOp17 u) := by
  unfold decodeOp17
  split
  case h_8 => trivial
  all_goals exact repeats_reserved (fun _ => rfl) _

theorem repeats_op18 (u : Nat) : decodesTo repeats (decodeOp18 u) := by
  unfold decodeOp18
  split
  case h_4 => trivial
  all_goals exact repeats_reserved (fun _ => rfl) _

theorem repeats_op30 (u : Nat) : decodesTo repeats (decodeOp30 u) := by
  refine decodesTo_assigned (fun ty => decodesTo_assigned (fun hint => ?_) _) _
  exact fun _ => rfl
theorem repeats_op31 (u : Nat) : decodesTo repeats (decodeOp31 u) := by
  refine decodesTo_assigned (fun ty => decodesTo_assigned (fun hint => ?_) _) _
  exact fun _ => rfl
theorem repeats_op32 (u : Nat) : decodesTo repeats (decodeOp32 u) := by
  refine decodesTo_reserved (decodesTo_assigned (fun ty => ?_) _) _
  exact fun _ => rfl
theorem repeats_op33 (u : Nat) : decodesTo repeats (decodeOp33 u) := by
  refine decodesTo_reserved (decodesTo_assigned (fun ty => ?_) _) _
  exact fun _ => rfl

/-- A word that may be repeated decodes as `rep` decodes it, and one repeat of it is its own instruction. -/
theorem decodeRep_eq {u : Nat} (h : field u 31 26 ∈ repeatable) : decodeRep u = decodeWord u ∧ decodesTo repeats (decodeRep u) := by
  unfold decodeRep decodeWord
  simp only [repeatable, List.mem_cons, List.not_mem_nil, or_false] at h
  rcases h with h | h | h | h | h | h | h | h | h | h | h | h | h
  all_goals rw [h]
  · exact ⟨rfl, repeats_op00 u⟩
  · exact ⟨rfl, repeats_op01 u⟩
  · exact ⟨rfl, repeats_op10 u⟩
  · exact ⟨rfl, repeats_op11 u⟩
  · exact ⟨rfl, repeats_op12 u⟩
  · exact ⟨rfl, repeats_op14 u⟩
  · exact ⟨rfl, repeats_op15 u⟩
  · exact ⟨rfl, repeats_op17 u⟩
  · exact ⟨rfl, repeats_op18 u⟩
  · exact ⟨rfl, repeats_op30 u⟩
  · exact ⟨rfl, repeats_op31 u⟩
  · exact ⟨rfl, repeats_op32 u⟩
  · exact ⟨rfl, repeats_op33 u⟩

/-! ### Stepped fields (R151) -/

/-- A field that may be stepped may be stepped by nothing. -/
theorem stepField_zero {f : RepFormat} {step add x i : Nat} (h : stepField f step add (some x) i ≠ none) (x' : Nat) :
    ∃ y, stepField f step 0 (some x') i = some y := by
  unfold stepField at h ⊢
  dsimp only at h ⊢
  split at h
  next hs => exact ⟨x', if_pos hs⟩
  next hs =>
    rw [if_neg hs]
    cases hf : repField f i with
    | none => rw [hf] at h; exact absurd rfl h
    | some p => exact ⟨_, if_pos (field_lt ..)⟩

theorem foldl_stepField_none (f : RepFormat) (step add : Nat) (l : List Nat) : l.foldl (stepField f step add) none = none := by
  induction l with
  | nil => rfl
  | cons i r ih => exact ih

theorem foldl_stepField_zero {f : RepFormat} {step add : Nat} (l : List Nat) {x : Nat}
    (h : l.foldl (stepField f step add) (some x) ≠ none) (x' : Nat) : l.foldl (stepField f step 0) (some x') ≠ none := by
  induction l generalizing x x' with
  | nil => exact Option.some_ne_none _
  | cons i r ih =>
    rw [List.foldl_cons] at h ⊢
    cases hx : stepField f step add (some x) i with
    | none => rw [hx, foldl_stepField_none] at h; exact absurd rfl h
    | some y =>
      obtain ⟨y', hy'⟩ := stepField_zero (h := by rw [hx]; exact Option.some_ne_none y) x'
      rw [hx] at h
      rw [hy']
      exact ih h y'

/-- A word whose repeat has an instruction has the fields that the step selects. -/
theorem stepWord_zero {step sz k v : Nat} (h : stepWord step sz k v ≠ none) : stepWord step 0 0 v ≠ none := by
  unfold stepWord at h ⊢
  split at h
  · exact absurd rfl h
  next f _ =>
    rw [Nat.zero_mul]
    exact foldl_stepField_zero _ h v

theorem encode_vAdd (d a b : Nat) : encode (.vAdd d a b) = some (0x40000000 + d * 2 ^ 19 + a * 2 ^ 12 + b * 2 ^ 5) := rfl

/-- The fields of the word of `v.add`. -/
theorem encode_vAdd_fields {d a b v : Nat} (hd : d < 128) (ha : a < 128) (hb : b < 128) (h : encode (.vAdd d a b) = some v) :
    v = 0x40000000 + d * 2 ^ 19 + a * 2 ^ 12 + b * 2 ^ 5 ∧ field v 31 26 = 16 ∧ field v 25 19 = d ∧ field v 18 12 = a ∧
      field v 11 5 = b := by
  have hv : v = 0x40000000 + d * 2 ^ 19 + a * 2 ^ 12 + b * 2 ^ 5 := (Option.some.inj h).symm
  simp only [field]
  omega

/-- A step of one field of a word in format V. -/
theorem stepWord_v {v sz k step : Nat} (hv : field v 31 26 = 16) :
    stepWord step sz k v = [0, 1, 2].foldl (stepField .v step (k * 2 ^ sz)) (some v) := by
  rw [stepWord, hv]
  rfl

theorem stepField_unselected {f : RepFormat} {step add i : Nat} (h : stepSelects step i = false) (v : Option Nat) :
    stepField f step add v i = v := by
  cases v <;> simp [stepField, h]

/-- A selected field of format V rises while it stays in its seven bits. -/
theorem stepField_selected {step add i v lo x : Nat} (h : stepSelects step i = true) (hf : repField .v i = some (lo + 6, lo))
    (hx : field v (lo + 6) lo = x) :
    stepField .v step add (some v) i = if x + add < 128 then some (v - x * 2 ^ lo + (x + add) * 2 ^ lo) else none := by
  have hw : 2 ^ (lo + 6 + 1 - lo) = 128 := by rw [show lo + 6 + 1 - lo = 7 by omega]; rfl
  simp only [stepField, h, hf, hx, hw, Bool.not_true, Bool.false_eq_true, if_false, setField]
  by_cases hlt : x + add < 128
  · rw [if_pos hlt, if_pos hlt, Nat.mod_eq_of_lt hlt]
  · rw [if_neg hlt, if_neg hlt]

/-- The step of `v.add`'s fields gives the words of other registers. -/
theorem stepWord_vAdd {d a b v : Nat} (hd : d < 128) (ha : a < 128) (hb : b < 128) (h : encode (.vAdd d a b) = some v) (sz k : Nat) :
    (stepWord 4 sz k v = if d + k * 2 ^ sz < 128 then encode (.vAdd (d + k * 2 ^ sz) a b) else none) ∧
    (stepWord 2 sz k v = if a + k * 2 ^ sz < 128 then encode (.vAdd d (a + k * 2 ^ sz) b) else none) ∧
    (stepWord 1 sz k v = if b + k * 2 ^ sz < 128 then encode (.vAdd d a (b + k * 2 ^ sz)) else none) := by
  obtain ⟨hv, hop, hfd, hfa, hfb⟩ := encode_vAdd_fields hd ha hb h
  simp only [stepWord_v hop, List.foldl_cons, List.foldl_nil, encode_vAdd]
  refine ⟨?_, ?_, ?_⟩
  · rw [stepField_selected (i := 0) (lo := 19) (by decide) rfl hfd, stepField_unselected (i := 1) (by decide),
      stepField_unselected (i := 2) (by decide)]
    exact congrArg (fun e => if d + k * 2 ^ sz < 128 then some e else none) (by omega)
  · rw [stepField_unselected (i := 0) (by decide), stepField_selected (i := 1) (lo := 12) (by decide) rfl hfa,
      stepField_unselected (i := 2) (by decide)]
    exact congrArg (fun e => if a + k * 2 ^ sz < 128 then some e else none) (by omega)
  · rw [stepField_unselected (i := 0) (by decide), stepField_unselected (i := 1) (by decide),
      stepField_selected (i := 2) (lo := 5) (by decide) rfl hfb]
    exact congrArg (fun e => if b + k * 2 ^ sz < 128 then some e else none) (by omega)

/-! ### One opportunity of `rep` (R151, R152) -/

section
variable {s : State} {t : Team} {j : Nat} {w : Warp} {step : Nat}

theorem repWord_error {e : FaultCode × Nat} (hf : s.fetchWord t (wordsFrom w 1).toNat = .error e) : repWord s t w step = .error e := by
  rw [repWord, show w.target 1 = wordsFrom w 1 from rfl, hf]

theorem repWord_ok {v : Nat} (hf : s.fetchWord t (wordsFrom w 1).toNat = .ok v) (hs : stepWord step 0 0 v ≠ none) :
    repWord s t w step = .ok v := by
  rw [repWord, show w.target 1 = wordsFrom w 1 from rfl, hf]
  exact if_pos (Option.isSome_iff_ne_none.2 hs)

theorem repWord_illegal {v : Nat} (hf : s.fetchWord t (wordsFrom w 1).toNat = .ok v) (hs : stepWord step 0 0 v = none) :
    repWord s t w step = .error (.illegal, 0) := by
  rw [repWord, show w.target 1 = wordsFrom w 1 from rfl, hf]
  exact if_neg (by rw [hs]; exact Bool.false_ne_true)

variable {h : Header} {sz v : Nat} (hcl : w.clause = some h) (hchk : wordCheck h (w.idx + 1) v = none)
include hcl hchk

theorem repeatInstr_illegal (hs : stepWord step sz w.repcnt.toNat v = none) : repeatInstr w step sz v = .error (.illegal, 0) := by
  simp only [repeatInstr, hcl, Option.getD_some, hchk, hs]

theorem repeatInstr_ok {u : Nat} {i : Instr} (hs : stepWord step sz w.repcnt.toNat v = some u) (hi : decodeRep u = .ok i) :
    repeatInstr w step sz v = .ok i := by
  simp only [repeatInstr, hcl, Option.getD_some, hchk, hs, hi]

end

section
variable {s : State} {t : Team} {j : Nat} {w : Warp} {cnt step sz v : Nat} (hc : s.curWarp = some (t, j, w))
include hc

theorem rep_unfetched {e : FaultCode × Nat} (hw : repWord s t w step = .error e) :
    raisesOn (.rep cnt step sz) s (s.fetched t (wordsFrom w 1).toNat) t j w (ofRead w e) := by
  show execRep cnt step sz s = _
  simp only [execRep, hc, hw]
  rfl

theorem rep_past (hw : repWord s t w step = .ok v) (hk : cnt < w.repcnt.toNat) :
    exec (.rep cnt step sz) s = .next (onlyWarp (s.fetched t (wordsFrom w 1).toNat) t j
      (Warp.advance (Warp.advance { w with repcnt := 0, inRep := false }))) := by
  show execRep cnt step sz s = _
  simp only [execRep, hc, hw, if_pos (show cnt + 1 ≤ w.repcnt.toNat from hk)]
  rfl

theorem rep_faults (hw : repWord s t w step = .ok v) (hk : w.repcnt.toNat ≤ cnt) {e : FaultCode × Nat}
    (hi : repeatInstr w step sz v = .error e) :
    raisesOn (.rep cnt step sz) s (s.fetched t (wordsFrom w 1).toNat) t j w (ofRead w e) := by
  show execRep cnt step sz s = _
  simp only [execRep, hc, hw, if_neg (show ¬ cnt + 1 ≤ w.repcnt.toNat by omega), hi]
  rfl

theorem rep_issues (hw : repWord s t w step = .ok v) (hk : w.repcnt.toNat ≤ cnt) {i : Instr}
    (hi : repeatInstr w step sz v = .ok i) {s' : State} (hx : execRepeat i (s.fetched t (wordsFrom w 1).toNat) = .next s')
    (hheld : s'.held = false) {t' : Team} {w' : Warp} (hf : s'.findWarp t.uid j = some (t', w')) :
    exec (.rep cnt step sz) s =
      .next (if w'.status = .running then s'.updWarp t.uid j (afterRepeat (cnt + 1) w.repcnt.toNat w) else s') := by
  show execRep cnt step sz s = _
  simp only [execRep, hc, hw, if_neg (show ¬ cnt + 1 ≤ w.repcnt.toNat by omega), hi,
    show (w.target 1).toNat = (wordsFrom w 1).toNat from rfl, hx, hheld, Bool.false_eq_true, if_false, hf]
  split <;> rfl

end

theorem ofRead_illegal (w : Warp) : ofRead w (.illegal, 0) = { code := .illegal } := if_neg (by decide)

/-- A repeated word whose step leaves its fields in range is its own instruction. -/
theorem repeated_instr {u v i} (hv : field v 31 26 ∈ repeatable) (hop : field u 31 26 = field v 31 26) (hd : decodeWord u = .ok i) :
    decodeRep u = .ok i ∧ ∀ s, execRepeat i s = exec i s := by
  obtain ⟨heq, hrep⟩ := decodeRep_eq (hop ▸ hv)
  have hr : decodeRep u = .ok i := heq.trans hd
  rw [hr] at hrep
  exact ⟨hr, hrep⟩

theorem repeat_issues : Repeat := by
  intro s t j w h cnt step sz v u i hc hcl hf hchk hv hs hop hd hk s' t' w' hx hheld hw'
  obtain ⟨hr, hrep⟩ := repeated_instr hv hop hd
  have he := rep_issues hc (repWord_ok hf (stepWord_zero (by rw [hs]; exact Option.some_ne_none u))) hk
    (repeatInstr_ok hcl hchk hs hr) ((hrep _).trans hx) hheld hw'
  refine ⟨fun hrun => ?_, fun hrun => ?_⟩
  · rw [he, if_pos hrun]
    refine congrArg (fun g => Host.Outcome.next (s'.updWarp t.uid j g)) (funext fun x => ?_)
    simp only [afterRepeat, Nat.add_lt_add_iff_right]
  · rw [he, if_neg hrun]

/-! ### A repeated `v.add` -/

/-- What the warp has learnt of writes does not matter to the lanes' writes. -/
theorem writeLanes_watched (w : Warp) (y : KMap Bool) (m : LaneMask) (f : Nat → List (Nat × Word)) :
    ({ w with watched := y } : Warp).writeLanes m f = { w.writeLanes m f with watched := y } := by
  have hput : ∀ (es : List (Nat × Nat × Word)) (x : Warp), putAll { x with watched := y } es = { putAll x es with watched := y } := by
    intro es
    induction es with
    | nil => exact fun _ => rfl
    | cons e es ih => exact fun x => ih (x.vset e.1 e.2.1 e.2.2)
  rw [writeLanes_eq_putAll, writeLanes_eq_putAll, hput]

/-- What the lanes' writes leave of a warp but its registers. -/
theorem writeLanes_control (w : Warp) (m : LaneMask) (f : Nat → List (Nat × Word)) :
    ∃ v p, w.writeLanes m f = { w with vregs := v, poison := p } := ⟨_, _, writeLanes_frame⟩

/-- A repeat's warp, past its word within the clause, is back at the `rep` or past both words. -/
theorem afterRepeat_advance {w w1 : Warp} {n k : Nat} (hidx : w.idx + 1 < w.count) (h1 : ∃ v p, w1 = { w with vregs := v, poison := p })
    (y : KMap Bool) :
    afterRepeat n k w { w1.advance with watched := y } =
      { (if k + 1 < n then { w1 with repcnt := BitVec.ofNat 32 (k + 1), inRep := true }
        else Warp.advance (Warp.advance { w1 with repcnt := 0, inRep := false })) with watched := y } := by
  obtain ⟨v, p, rfl⟩ := h1
  rw [Warp.advance_of_lt (w := { w with vregs := v, poison := p }) hidx, afterRepeat]
  split
  · rfl
  · rw [Warp.advance_of_lt (w := { w with vregs := v, poison := p, repcnt := 0, inRep := false }) hidx]
    exact Warp.advance_learnt { w with vregs := v, poison := p, repcnt := 0, inRep := false, idx := w.idx + 1 } y

theorem rep_vAdd {s : State} {t : Team} {j : Nat} {w : Warp} {h : Header} {cnt step sz v d a b : Nat}
    (hc : s.curWarp = some (t, j, w)) (hcl : w.clause = some h) (hidx : w.idx + 1 < h.count) (hheld : s.held = false)
    (hw : repWord s t w step = .ok v) (hk : w.repcnt.toNat ≤ cnt) (hi : repeatInstr w step sz v = .ok (.vAdd d a b))
    (hd : has t d) (ha : has t a) (hb : has t b) (hp : w.poisoned [a, b] w.active = none) :
    ∃ w', exec (.rep cnt step sz) s = .next (onlyWarp (s.fetched t (wordsFrom w 1).toNat) t j
        (if w.repcnt.toNat < cnt then { w' with repcnt := BitVec.ofNat 32 (w.repcnt.toNat + 1), inRep := true }
        else Warp.advance (Warp.advance { w' with repcnt := 0, inRep := false }))) ∧
      laneResult w w' d fun l => w.vget a l + w.vget b l := by
  generalize hs1 : s.fetched t (wordsFrom w 1).toNat = s1
  obtain ⟨hheld1, hlearn⟩ := hs1 ▸ State.learns_fetched s t (wordsFrom w 1).toNat
  obtain ⟨t1, y, hc1, hu, hn⟩ := hlearn t j w hc
  have hcount : w.idx + 1 < w.count := by rw [Warp.count, hcl]; exact hidx
  generalize hw1 : w.writeLanes w.active (fun l => [(d, w.vget a l + w.vget b l)]) = w1
  have hctl := hw1 ▸ writeLanes_control w w.active fun l => [(d, w.vget a l + w.vget b l)]
  have hl : leaves (.vAdd d a b) s1 t1 j { w1 with watched := y } := by
    have hok : has t1 d ∧ has t1 a ∧ has t1 b := by
      simp only [has, hn]
      exact ⟨hd, ha, hb⟩
    have hv : exec (.vAdd d a b) s1 = laneOp s1 (fun t => t.okV d && t.okV a && t.okV b) [a, b]
        fun w l => [(d, w.vget a l + w.vget b l)] := rfl
    have hdone := leaves_of_laneOp hc1 hv (ok3_iff.2 hok) hp
    rw [writeLanes_watched] at hdone
    exact hw1 ▸ hdone
  have hrun : ({ w1 with watched := y } : Warp).advance.status = .running := by
    obtain ⟨-, -, -, -, hrun⟩ := curWarp_spec hc
    obtain ⟨v, p, rfl⟩ := hctl
    rw [Warp.advance_status]
    exact hrun
  have hx : execRepeat (.vAdd d a b) (s.fetched t (wordsFrom w 1).toNat) =
      .next (s1.updWarp t.uid j fun x => { ({ w1 with watched := y } : Warp).advance with watched := x.watched }) := by
    have hrep : execRepeat (.vAdd d a b) s1 = exec (.vAdd d a b) s1 := rfl
    rw [hs1, hrep, ← hu]
    exact hl
  have hfind := State.findWarp_updWarp_self (fun x => { ({ w1 with watched := y } : Warp).advance with watched := x.watched })
    (findWarp_of_curWarp hc1)
  rw [hu] at hfind
  have he := rep_issues hc hw hk hi hx (hheld1.trans hheld) hfind
  refine ⟨w1, ?_, hw1 ▸ laneResult_writeLanes ..⟩
  rw [he, if_pos hrun, State.updWarp_updWarp]
  refine congrArg (fun g => Host.Outcome.next (s1.updWarp t.uid j g)) (funext fun x => ?_)
  rw [Function.comp_apply, Warp.advance_learnt]
  refine (afterRepeat_advance hcount hctl x.watched).trans ?_
  simp only [Nat.add_lt_add_iff_right]

theorem repeat_steps : RepeatSteps := by
  refine ⟨fun d a b sz k v hd ha hb he => ?_, fun s t j w h cnt step sz v hc hcl hf hchk hk hs => ?_,
    fun s t j w cnt step sz e hc hf => rep_unfetched hc (repWord_error hf),
    fun s t j w cnt step sz v hc hf => ⟨fun h => ?_, fun hs hk => ?_⟩,
    fun s t j w h cnt step sz v u d a b hc hcl hidx hrun hheld hf hchk hv hs hop hdec hk hd ha hb hp => ?_⟩
  · obtain ⟨h4, h2, h1⟩ := stepWord_vAdd hd ha hb he sz k
    exact ⟨fun h => h4.trans (if_pos h), fun h => h2.trans (if_pos h), fun h => h1.trans (if_pos h),
      fun h => h4.trans (if_neg (by omega))⟩
  · rw [← ofRead_illegal w]
    by_cases h0 : stepWord step 0 0 v = none
    · exact rep_unfetched hc (repWord_illegal hf h0)
    · exact rep_faults hc (repWord_ok hf h0) hk (repeatInstr_illegal hcl hchk hs)
  · rw [← ofRead_illegal w]
    refine rep_unfetched hc (repWord_illegal hf (h.elim (fun hop => ?_) id))
    rw [stepWord, repFormat_eq_none hop]
  · exact rep_past hc (repWord_ok hf hs) hk
  · obtain ⟨hr, -⟩ := repeated_instr hv hop hdec
    exact rep_vAdd hc hcl hidx hheld (repWord_ok hf (stepWord_zero (by rw [hs]; exact Option.some_ne_none u))) hk
      (repeatInstr_ok hcl hchk hs hr) hd ha hb hp

/-- Settles O50: a word `rep` may repeat decodes to an instruction whose repeat is its own meaning, and the fetch before it leaves the
warp selected. -/
theorem repeatedWords : Obligations.RepeatedWords := ⟨repeat_issues, repeat_steps⟩

end Sys2Proof.Spec
end

section
/-! SUPPORT. A state in which the obligation on fences, cache control and prefetch fails (R194, R329, R341). -/

namespace Sys2Proof.Spec

open Sys2Proof.Machine

/-- The placed instruction's machine with its warp selected. -/
def placedMachine : State := { State.reset.withFetchWord 32 0x40081000 with cur := some (1, 0) }

/-- World 0 with no more than a watched range on its first lines (R341): reads are to be noted, and it is not ACTIVE. -/
def watchedOnly : World :=
  { placedMachine.world 0 with
    state := .free, log := { (placedMachine.world 0).log with watch := [{ kind := 0, ops := 1, lo := 0, hi := 8 }] } }

/-- The machine with two entries of world 0: one that is read as the world's, and the ACTIVE one that R329 counts ways for. -/
def twoEntries : State := { placedMachine with worlds := [(0, watchedOnly), (0, placedMachine.world 0)] }

/-- The team and the warp whose turn it is in it. -/
def twoTeam : Team := placedTeam { cls := .valu, kwait := 0, wl := false, ws := false, yield := false, count := 2 }
def twoWarp : Warp :=
  { Warp.zero with active := allLanes, live := allLanes,
                   clause := some { cls := .valu, kwait := 0, wl := false, ws := false, yield := false, count := 2 } }

/-- Line 0 has not come to cluster 0 and has not been asked for. -/
def lineMissing (o : Out) : Bool :=
  match o with
  | .next s => !(s.l2.any fun x => x.cluster == 0 && x.world == 0 && x.line == 0) && !s.requested 0 0
  | _ => false

theorem twoEntries_selects : twoEntries.curWarp = some (twoTeam, 0, twoWarp) := by decide +kernel

/-- Before the prefetch world 0 has ways. -/
theorem twoEntries_ways : (twoEntries.wayMasks 0).1 ≠ 0 := by decide +kernel

theorem twoEntries_undamaged : undamaged twoEntries := ⟨rfl, rfl, fun _ => rfl⟩

/-- The prefetch notes its read, which writes the world's record back and drops the ACTIVE entry: the world has no ways left, and the
line is not asked for. -/
theorem twoEntries_missing : lineMissing (exec (.prefetch 2 .clu) twoEntries) = true := by decide +kernel

theorem twoEntries_translate : twoEntries.translate 0 0 (globalAt twoWarp 2 0 0) .read = .ok 0 := by rfl

theorem not_prefetch : ¬ Prefetch := by
  intro h
  obtain ⟨-, hok, -⟩ := h twoEntries twoTeam 0 twoWarp 2 .clu twoEntries_selects (by unfold hasPair; decide) (by decide +kernel)
  obtain ⟨s1, he, -, -, -, hline, -⟩ := hok (.inl rfl)
  have hmiss := twoEntries_missing
  rw [he] at hmiss
  simp only [lineMissing, Bool.and_eq_true, Bool.not_eq_true'] at hmiss
  obtain ⟨hnone, hasked⟩ := hmiss
  rcases hline 0 (by decide) 0 (by decide) twoEntries_translate rfl twoEntries_undamaged (by decide +kernel) twoEntries_ways with
    ⟨x, hx, hcl, hw, hl⟩ | hreq
  · have hany : (s1.l2.any fun x => x.cluster == 0 && x.world == 0 && x.line == 0) = true :=
      List.any_eq_true.2 ⟨x, hx, by rw [hcl, hw, hl]; rfl⟩
    exact Bool.false_ne_true (hnone.symm.trans hany)
  · exact Bool.false_ne_true (hasked.symm.trans hreq)

/-- Refutes O47, by its `Prefetch`: where the map of worlds lists world 0 twice, the ways are counted for the ACTIVE entry, but noting
the read of a `prefetch` in the log of the entry found first keeps that entry alone; the world then has no ways and its L2 asks for
nothing. A map without double keys does not meet this. -/
theorem not_fencesAndCacheControl : ¬ Obligations.FencesAndCacheControl := fun ⟨_, _, h⟩ => not_prefetch h

end Sys2Proof.Spec
end

section
/-! SUPPORT. Fractions scaled by powers of two, bit patterns and rounding (R105, R107 to R111). -/

namespace Sys2Proof.Machine

/-! ### Fractions scaled by powers of two -/

theorem scaleFrac_rat (n d : Nat) (k : Int) : ((scaleFrac n d k).1 : ℚ) / (scaleFrac n d k).2 = n / d * 2 ^ k := by
  unfold scaleFrac
  split
  next h =>
    obtain ⟨m, rfl⟩ := Int.eq_ofNat_of_zero_le h
    simp [div_mul_eq_mul_div]
  next h =>
    obtain ⟨m, hm⟩ := Int.eq_ofNat_of_zero_le (show 0 ≤ -k by omega)
    rw [hm, show k = -(m : ℤ) by omega, zpow_neg, zpow_natCast]
    simp [div_div, ← div_eq_mul_inv]

theorem scaleFrac_den_pos {d : Nat} (n : Nat) (k : Int) (hd : 0 < d) : 0 < (scaleFrac n d k).2 := by
  unfold scaleFrac
  split <;> positivity

theorem scaleFrac_num_eq_zero {n d : Nat} {k : Int} : (scaleFrac n d k).1 = 0 ↔ n = 0 := by
  unfold scaleFrac
  split <;> simp

/-- Where a scaled fraction is the whole number `m`, its numerator is `m` times its denominator. -/
theorem scaleFrac_num_of_whole {n d m : Nat} {q : Int} (hd : 0 < d) (h : (n : ℚ) / d = m * 2 ^ q) :
    (scaleFrac n d (-q)).1 = m * (scaleFrac n d (-q)).2 := by
  have hpos : ((scaleFrac n d (-q)).2 : ℚ) ≠ 0 := by exact_mod_cast (scaleFrac_den_pos n (-q) hd).ne'
  have hm : ((scaleFrac n d (-q)).1 : ℚ) / (scaleFrac n d (-q)).2 = m := by
    rw [scaleFrac_rat, h, mul_assoc, ← zpow_add₀ two_ne_zero, add_neg_cancel, zpow_zero, mul_one]
  exact_mod_cast (div_eq_iff hpos).1 hm

/-! ### The floor of the binary logarithm -/

theorem log_two_eq_iff {r : ℚ} (hr : 0 < r) {e : Int} : Int.log 2 r = e ↔ 2 ^ e ≤ r ∧ r < 2 ^ (e + 1) := by
  have hle := Int.zpow_le_iff_le_log (b := 2) one_lt_two (x := e) hr
  have hlt := Int.lt_zpow_iff_log_lt (b := 2) one_lt_two (x := e + 1) hr
  push_cast at hle hlt
  rw [hle, hlt]
  omega

theorem floorLog2_eq_log {n d : Nat} (hn : 0 < n) (hd : 0 < d) : floorLog2 n d = Int.log 2 ((n : ℚ) / d) := by
  have hnq : (0 : ℚ) < n := by exact_mod_cast hn
  have hdq : (0 : ℚ) < d := by exact_mod_cast hd
  have hr : (0 : ℚ) < n / d := div_pos hnq hdq
  have hnlo : (2 : ℚ) ^ (Nat.log2 n : ℤ) ≤ n := by
    rw [zpow_natCast]; exact_mod_cast Nat.log2_self_le hn.ne'
  have hnhi : (n : ℚ) < 2 ^ ((Nat.log2 n : ℤ) + 1) := by
    rw [← Nat.cast_one (R := ℤ), ← Nat.cast_add, zpow_natCast]; exact_mod_cast Nat.lt_log2_self
  have hdlo : (2 : ℚ) ^ (Nat.log2 d : ℤ) ≤ d := by
    rw [zpow_natCast]; exact_mod_cast Nat.log2_self_le hd.ne'
  have hdhi : (d : ℚ) < 2 ^ ((Nat.log2 d : ℤ) + 1) := by
    rw [← Nat.cast_one (R := ℤ), ← Nat.cast_add, zpow_natCast]; exact_mod_cast Nat.lt_log2_self
  unfold floorLog2
  set e : ℤ := (Nat.log2 n : ℤ) - Nat.log2 d with he
  have hbelow : (2 : ℚ) ^ (e - 1) ≤ n / d := by
    rw [le_div_iff₀ hdq]
    calc (2 : ℚ) ^ (e - 1) * d ≤ 2 ^ (e - 1) * 2 ^ ((Nat.log2 d : ℤ) + 1) := by gcongr
      _ = 2 ^ (Nat.log2 n : ℤ) := by rw [← zpow_add₀ two_ne_zero]; congr 1; omega
      _ ≤ n := hnlo
  have habove : (n : ℚ) / d < 2 ^ (e + 1) := by
    rw [div_lt_iff₀ hdq]
    calc (n : ℚ) < 2 ^ ((Nat.log2 n : ℤ) + 1) := hnhi
      _ = 2 ^ (e + 1) * 2 ^ (Nat.log2 d : ℤ) := by rw [← zpow_add₀ two_ne_zero]; congr 1; omega
      _ ≤ 2 ^ (e + 1) * d := by gcongr
  have hcut : (scaleFrac n d (-e)).1 < (scaleFrac n d (-e)).2 ↔ (n : ℚ) / d < 2 ^ e := by
    have hpos : (0 : ℚ) < (scaleFrac n d (-e)).2 := by exact_mod_cast scaleFrac_den_pos n (-e) hd
    rw [← Nat.cast_lt (α := ℚ), ← div_lt_one hpos, scaleFrac_rat, zpow_neg, ← div_eq_mul_inv, div_lt_one (by positivity)]
  symm
  simp only [hcut]
  split
  next h => exact (log_two_eq_iff hr).2 ⟨hbelow, by rwa [sub_add_cancel]⟩
  next h => exact (log_two_eq_iff hr).2 ⟨not_lt.1 h, habove⟩

/-! ### The parts of a bit pattern (R105) -/

theorem Fmt.sign_eq (f : Fmt) : f.sign = 2 ^ f.ebits * 2 ^ f.mbits := by rw [Fmt.sign, pow_add]
theorem Fmt.sign_pos (f : Fmt) : 0 < f.sign := by rw [Fmt.sign_eq]; positivity

theorem Fmt.inf_add (f : Fmt) : f.inf + 2 ^ f.mbits = f.sign := by
  have h : 0 < 2 ^ f.ebits := by positivity
  rw [Fmt.sign_eq, Fmt.inf, ← Nat.succ_mul, Nat.succ_eq_add_one, Nat.sub_add_cancel h]

theorem Fmt.inf_lt (f : Fmt) : f.inf < f.sign := by
  have h := Fmt.inf_add f
  have : 0 < 2 ^ f.mbits := by positivity
  omega

theorem Fmt.neg_add_sign {f : Fmt} {b : Nat} (h : b < f.sign) : f.neg (b + f.sign) = true := by
  rw [Fmt.neg, bitOf, ← Fmt.sign, Nat.add_div_right _ (Fmt.sign_pos f), Nat.div_eq_of_lt h]
  rfl

theorem Fmt.neg_of_lt {f : Fmt} {b : Nat} (h : b < f.sign) : f.neg b = false := by
  rw [Fmt.neg, bitOf, ← Fmt.sign, Nat.div_eq_of_lt h]
  rfl

/-- A pattern is its magnitude's bits and its sign bit. -/
theorem Fmt.mod_sign_add {f : Fmt} {b : Nat} (h : b < 2 * f.sign) : b % f.sign + (if f.neg b = true then f.sign else 0) = b := by
  rcases lt_or_ge b f.sign with hlt | hge
  · rw [Fmt.neg_of_lt hlt, Nat.mod_eq_of_lt hlt]
    rfl
  · obtain ⟨c, rfl⟩ := Nat.exists_eq_add_of_le' hge
    have hc : c < f.sign := by omega
    rw [Fmt.neg_add_sign hc, if_pos rfl, Nat.add_mod_right, Nat.mod_eq_of_lt hc]

/-- `M · 2 ^ q` is what magnitude bits `g` stand for: a subnormal or a normal number of the format. -/
structure Significand (f : Fmt) (g M : Nat) (q : Int) : Prop where
  lt : M < 2 ^ (f.mbits + 1)
  qmin_le : f.qmin ≤ q
  canonical : q = f.qmin ∨ 2 ^ f.mbits ≤ M
  bits : (q - f.qmin).toNat * 2 ^ f.mbits + M = g

/-- The value of a pattern that is neither a NaN nor an infinity. -/
theorem Fmt.val_finite {f : Fmt} {b : Nat} (h : b % f.sign < f.inf) : ∃ M q, Significand f (b % f.sign) M q ∧
    f.val false b = .fin (f.neg b) (scaleFrac M 1 q).1 (scaleFrac M 1 q).2 := by
  have hm : b % f.sign % 2 ^ f.mbits < 2 ^ f.mbits := Nat.mod_lt _ (by positivity)
  have hdiv := Nat.div_add_mod (b % f.sign) (2 ^ f.mbits)
  simp only [Fmt.val, if_neg h.ne, if_neg (Nat.not_lt.2 h.le), Bool.false_eq_true, if_false]
  generalize b % f.sign = g at hm hdiv ⊢
  split
  next he =>
    refine ⟨g % 2 ^ f.mbits, f.qmin, ⟨by rw [pow_succ]; omega, le_rfl, .inl rfl, ?_⟩, rfl⟩
    rw [he] at hdiv
    simpa using hdiv
  next he =>
    obtain ⟨k, hk⟩ := Nat.exists_eq_succ_of_ne_zero he
    rw [hk] at hdiv ⊢
    refine ⟨g % 2 ^ f.mbits + 2 ^ f.mbits, (k.succ : ℤ) - 1 + f.qmin, ⟨by rw [pow_succ]; omega, by omega, .inr (by omega), ?_⟩, rfl⟩
    rw [show ((k.succ : ℤ) - 1 + f.qmin - f.qmin).toNat = k by omega, Nat.add_left_comm, ← Nat.succ_mul, Nat.mul_comm, Nat.add_comm]
    exact hdiv

theorem Fmt.val_inf {f : Fmt} {b : Nat} (h : b % f.sign = f.inf) : f.val false b = .inf (f.neg b) := by
  simp [Fmt.val, h]

theorem Fmt.val_nan {f : Fmt} {b : Nat} (h : f.inf < b % f.sign) : f.val false b = .nan := by
  simp [Fmt.val, h]

/-! ### Rounding (R108 to R111) -/

theorem roundMag_whole (mode : Mode) (neg : Bool) (m : Nat) {d : Nat} (hd : 0 < d) : roundMag mode neg (m * d) d = m := by
  have hup : roundsUp mode neg m 0 d = false := by cases mode <;> simp [roundsUp]; omega
  simp only [roundMag, Nat.mul_div_cancel _ hd, Nat.mul_mod_left, hup, Bool.false_eq_true, if_false]

/-- A number of the format keeps its bits and raises nothing. -/
theorem roundFrac_exact {f : Fmt} (mode : Mode) (neg : Bool) {n d g M : Nat} {q : Int} (hs : Significand f g M q) (hM : 0 < M)
    (hn : 0 < n) (hd : 0 < d) (hg : g < f.inf) (h : (n : ℚ) / d = M * 2 ^ q) : roundFrac f mode false neg n d = (g, 0) := by
  have hMq : (0 : ℚ) < M := by exact_mod_cast hM
  have hlog : floorLog2 n d = Nat.log 2 M + q := by
    have hlo : (2 : ℚ) ^ Nat.log 2 M ≤ M := by exact_mod_cast Nat.pow_log_le_self 2 hM.ne'
    have hhi : (M : ℚ) < 2 ^ (Nat.log 2 M + 1) := by exact_mod_cast Nat.lt_pow_succ_log_self one_lt_two M
    rw [floorLog2_eq_log hn hd, h, log_two_eq_iff (by positivity)]
    constructor
    · rw [zpow_add₀ two_ne_zero, zpow_natCast]
      gcongr
    · rw [show (Nat.log 2 M : ℤ) + q + 1 = (Nat.log 2 M + 1 : ℕ) + q by push_cast; ring, zpow_add₀ two_ne_zero, zpow_natCast]
      gcongr
  have hlt : Nat.log 2 M < f.mbits + 1 := Nat.log_lt_of_lt_pow hM.ne' hs.lt
  have hq : max (floorLog2 n d - f.mbits) f.qmin = q := by
    rw [hlog]
    rcases hs.canonical with he | hge
    · have := hs.qmin_le; omega
    · have := Nat.le_log_of_pow_le one_lt_two hge
      have := hs.qmin_le
      omega
  have hc := scaleFrac_num_of_whole hd h
  have hpos := scaleFrac_den_pos n (-q) hd
  simp only [roundFrac, hq, hc, roundMag_whole mode neg M hpos, hs.bits, if_neg (Nat.not_le.2 hg), Nat.mul_mod_left]
  simp

/-- A value that the format holds is given back. -/
theorem Fmt.round_val (f : Fmt) (mode : Mode) {b : Nat} (hb : b < 2 * f.sign) (hn : f.isNaN b = false) :
    (f.val false b).round f mode false = (b, 0) := by
  have hsum := Fmt.mod_sign_add hb
  have hle : b % f.sign ≤ f.inf := by simpa [Fmt.isNaN] using hn
  rcases hle.lt_or_eq with hlt | heq
  · obtain ⟨M, q, hs, hv⟩ := Fmt.val_finite hlt
    rw [hv, XR.round]
    rcases Nat.eq_zero_or_pos M with rfl | hM
    · rw [if_pos (scaleFrac_num_eq_zero.2 rfl)]
      rcases hs.canonical with rfl | hge
      · have hg : b % f.sign = 0 := by have := hs.bits; simpa using this.symm
        rw [hg, Nat.zero_add] at hsum
        rw [hsum]
        rfl
      · exact absurd hge (by simp)
    · have hn0 : (scaleFrac M 1 q).1 ≠ 0 := fun h => hM.ne' (scaleFrac_num_eq_zero.1 h)
      have hr := scaleFrac_rat M 1 q
      rw [Nat.cast_one, div_one] at hr
      rw [if_neg hn0, roundFrac_exact mode _ hs hM (Nat.pos_of_ne_zero hn0) (scaleFrac_den_pos M q Nat.one_pos) hlt hr]
      exact congrArg (·, (0 : Flags)) hsum
  · rw [Fmt.val_inf heq, XR.round, ← heq, hsum]
    rfl

/-! ### What rounding delivers (R105, R107, R109) -/

theorem Fmt.val_congr {f : Fmt} {a b : Nat} (hm : a % f.sign = b % f.sign) (hn : f.neg a = f.neg b) : f.val false a = f.val false b := by
  simp only [Fmt.val, hm, hn]

theorem Fmt.val_add_sign {f : Fmt} {b : Nat} (h : b < f.sign) : f.val false (b + f.sign) = (f.val false b).neg := by
  have hm : (b + f.sign) % f.sign = b % f.sign := Nat.add_mod_right ..
  simp only [Fmt.val, hm, Fmt.neg_add_sign h, Fmt.neg_of_lt h, Bool.false_eq_true, if_false]
  split
  · rfl
  · split
    · rfl
    · split <;> rfl

theorem Fmt.val_eq_nan_iff {f : Fmt} {b : Nat} : f.val false b = .nan ↔ f.inf < b % f.sign := by
  refine ⟨fun h => ?_, Fmt.val_nan⟩
  by_contra hle
  rcases (not_lt.1 hle).lt_or_eq with hlt | heq
  · obtain ⟨M, q, -, hv⟩ := Fmt.val_finite hlt
    rw [hv] at h
    cases h
  · rw [Fmt.val_inf heq] at h
    cases h

theorem overflowMag_le (f : Fmt) (mode : Mode) (neg : Bool) : overflowMag f mode neg ≤ f.inf := by
  cases mode <;> cases neg <;> simp [overflowMag]

theorem roundFrac_le (f : Fmt) (mode : Mode) (ftz neg : Bool) (n d : Nat) : (roundFrac f mode ftz neg n d).1 ≤ f.inf := by
  simp only [roundFrac]
  split
  · exact overflowMag_le f mode neg
  · split
    · exact Nat.zero_le _
    · omega

/-- A finite value is delivered as a magnitude no larger than an infinity's, with its sign. -/
theorem XR.round_fin (f : Fmt) (mode : Mode) (neg : Bool) (n d : Nat) :
    ∃ g ≤ f.inf, ((XR.fin neg n d).round f mode false).1 = g + if neg = true then f.sign else 0 := by
  rw [XR.round]
  split
  · exact ⟨0, Nat.zero_le _, (Nat.zero_add _).symm⟩
  · exact ⟨_, roundFrac_le .., rfl⟩

theorem add_sign_mod {f : Fmt} {g : Nat} (hg : g ≤ f.inf) (neg : Bool) : (g + if neg = true then f.sign else 0) % f.sign = g := by
  have hlt := hg.trans_lt (Fmt.inf_lt f)
  cases neg
  · exact Nat.mod_eq_of_lt hlt
  · rw [if_pos rfl, Nat.add_mod_right, Nat.mod_eq_of_lt hlt]

/-- A NaN is delivered as the canonical one. -/
theorem round_eq_qnan {f : Fmt} {mode : Mode} {v : XR} (h : f.val false (v.round f mode false).1 = .nan) :
    (v.round f mode false).1 = f.qnan := by
  rw [Fmt.val_eq_nan_iff] at h
  cases v with
  | nan => rfl
  | inf neg => exact absurd h (by rw [XR.round, add_sign_mod le_rfl]; exact lt_irrefl _)
  | fin neg n d =>
    obtain ⟨g, hg, hr⟩ := XR.round_fin f mode neg n d
    rw [hr, add_sign_mod hg] at h
    exact absurd h (not_lt.2 hg)

/-- A magnitude has no sign bit. -/
theorem round_abs_lt {f : Fmt} (hq : f.qnan < f.sign) (mode : Mode) (v : XR) : (v.abs.round f mode false).1 < f.sign := by
  cases v with
  | nan => exact hq
  | inf neg => exact Fmt.inf_lt f
  | fin neg n d =>
    obtain ⟨g, hg, hr⟩ := XR.round_fin f mode false n d
    rw [XR.abs, hr]
    exact hg.trans_lt (Fmt.inf_lt f)

theorem Fmt.val_mod (f : Fmt) (b : Nat) : f.val false (b % (2 * f.sign)) = f.val false b := by
  refine Fmt.val_congr (Nat.mod_mod_of_dvd b (Nat.dvd_mul_left ..)) ?_
  rw [Fmt.neg, Fmt.neg, bitOf, bitOf, ← Fmt.sign, Nat.mul_comm, Nat.mod_mul_right_div_self, Nat.mod_mod]

end Sys2Proof.Machine
end

section
/-! SUPPORT. The obligation on exact rounding, and exact values as rational numbers: their order, powers of two and largest
magnitudes (R105, R108, R130). -/

namespace Sys2Proof.Spec

open Sys2Proof.Machine

/-- Settles O3: a value that a format holds is a significand times a power of two at its own exponent, which rounding leaves whole. -/
theorem roundingExact : Obligations.RoundingExact := fun f _ mode _ hb hn => Fmt.round_val f mode hb hn

/-! ### Finite values as rational numbers -/

theorem mag_eq_abs (r : ℚ) : mag r = |r| := by
  unfold mag
  split
  next h => exact (abs_of_neg h).symm
  next h => exact (abs_of_nonneg (not_lt.1 h)).symm

theorem isFin_iff {x : XR} : x.isFin = true ↔ ∃ neg n d, x = .fin neg n d := by
  cases x <;> simp [XR.isFin]

theorem abs_signedNum (neg : Bool) (n : Nat) : |(signedNum neg n : ℚ)| = n := by
  cases neg <;> simp [signedNum]

theorem rat_abs (x : XR) : rat x.abs = |rat x| := by
  cases x with
  | fin neg n d => simp only [XR.abs, rat, abs_div, abs_signedNum, Nat.abs_cast]; rfl
  | nan => simp [XR.abs, rat]
  | inf _ => simp [XR.abs, rat]

theorem rat_scale2 (k : Int) (x : XR) : rat (XR.scale2 k x) = rat x * 2 ^ k := by
  cases x with
  | fin neg n d =>
    have h := scaleFrac_rat n d k
    cases neg <;> simp [XR.scale2, rat, signedNum, h, neg_div]
  | nan => simp [XR.scale2, rat]
  | inf _ => simp [XR.scale2, rat]

theorem proper_scale2 {x : XR} (k : Int) (h : proper x) : proper (XR.scale2 k x) := by
  cases x with
  | fin neg n d => exact scaleFrac_den_pos n k h
  | nan => trivial
  | inf _ => trivial

@[simp] theorem isFin_scale2 (k : Int) (x : XR) : (XR.scale2 k x).isFin = x.isFin := by cases x <;> rfl
@[simp] theorem isFin_abs (x : XR) : x.abs.isFin = x.isFin := by cases x <;> rfl
theorem proper_abs {x : XR} (h : proper x) : proper x.abs := by cases x <;> exact h

theorem proper_val (f : Fmt) (b : Nat) : proper (f.val false b) := by
  rcases lt_trichotomy (b % f.sign) f.inf with h | h | h
  · obtain ⟨M, q, -, hv⟩ := Fmt.val_finite h
    rw [hv]
    exact scaleFrac_den_pos M q Nat.one_pos
  · rw [Fmt.val_inf h]
    trivial
  · rw [Fmt.val_nan h]
    trivial

theorem rat_two (e : Int) : rat (two e) = 2 ^ e := by rw [two, rat_scale2]; simp [rat, signedNum]
theorem proper_two (e : Int) : proper (two e) := proper_scale2 e Nat.one_pos
@[simp] theorem isFin_two (e : Int) : (two e).isFin = true := isFin_scale2 ..

theorem isZero_iff {x : XR} (hx : proper x) (hf : x.isFin = true) : x.isZero = true ↔ rat x = 0 := by
  obtain ⟨neg, n, d, rfl⟩ := isFin_iff.1 hf
  have hd : (d : ℚ) ≠ 0 := by exact_mod_cast Nat.pos_iff_ne_zero.1 hx
  cases neg <;> simp [XR.isZero, rat, signedNum, hd]

theorem le_iff_rat {x y : XR} (hx : proper x) (hy : proper y) (hxf : x.isFin = true) (hyf : y.isFin = true) :
    XR.le x y = true ↔ rat x ≤ rat y := by
  obtain ⟨a, n, d, rfl⟩ := isFin_iff.1 hxf
  obtain ⟨b, m, k, rfl⟩ := isFin_iff.1 hyf
  have hd : (0 : ℚ) < d := by exact_mod_cast hx
  have hk : (0 : ℚ) < k := by exact_mod_cast hy
  simp only [XR.le, decide_eq_true_eq, rat, div_le_div_iff₀ hd hk]
  exact_mod_cast Iff.rfl

theorem lt_iff_rat {x y : XR} (hx : proper x) (hy : proper y) (hxf : x.isFin = true) (hyf : y.isFin = true) :
    XR.lt x y = true ↔ rat x < rat y := by
  have hn : ∀ z : XR, z.isFin = true → z.isNaN = false := fun z hz => by cases z <;> simp_all [XR.isFin, XR.isNaN]
  rw [← not_le, ← le_iff_rat hy hx hyf hxf]
  simp [XR.lt, hn x hxf, hn y hyf]

theorem eqv_iff_rat {x y : XR} (hx : proper x) (hy : proper y) (hxf : x.isFin = true) (hyf : y.isFin = true) :
    XR.eqv x y = true ↔ rat x = rat y := by
  rw [XR.eqv, Bool.and_eq_true, le_iff_rat hx hy hxf hyf, le_iff_rat hy hx hyf hxf, le_antisymm_iff]

theorem log2_eq_log {x : XR} (hx : proper x) (hf : x.isFin = true) (h0 : rat x ≠ 0) : x.log2 = Int.log 2 |rat x| := by
  obtain ⟨neg, n, d, rfl⟩ := isFin_iff.1 hf
  have hn : 0 < n := Nat.pos_of_ne_zero fun h => h0 (by cases neg <;> simp [rat, signedNum, h])
  rw [XR.log2, floorLog2_eq_log hn hx]
  simp only [rat, abs_div, abs_signedNum, Nat.abs_cast]

/-! ### The largest magnitude -/

/-- The fold of `maxAbs` from a value that is not negative. -/
theorem foldl_max_abs {xs : List XR} (hp : ∀ x ∈ xs, proper x) (hf : ∀ x ∈ xs, x.isFin = true) {m : XR} (hm : proper m)
    (hmf : m.isFin = true) : ∃ r, xs.foldl (fun m x => XR.max m x.abs) m = r ∧ (r = m ∨ ∃ x ∈ xs, r = x.abs) ∧ rat m ≤ rat r ∧
      ∀ y ∈ xs, |rat y| ≤ rat r := by
  induction xs generalizing m with
  | nil => exact ⟨m, rfl, .inl rfl, le_rfl, fun _ h => absurd h List.not_mem_nil⟩
  | cons x l ih =>
    have hpx := proper_abs (hp x (List.mem_cons_self ..))
    have hfx : x.abs.isFin = true := by rw [isFin_abs]; exact hf x (List.mem_cons_self ..)
    have ih' := fun {m : XR} => @ih (fun y hy => hp y (List.mem_cons_of_mem _ hy)) (fun y hy => hf y (List.mem_cons_of_mem _ hy)) m
    rw [List.foldl_cons, XR.max]
    split
    next h =>
      rw [le_iff_rat hm hpx hmf hfx] at h
      obtain ⟨r, hr, hfrom, hle, hall⟩ := ih' hpx hfx
      refine ⟨r, hr, .inr ?_, h.trans hle, fun y hy => ?_⟩
      · rcases hfrom with rfl | ⟨z, hz, rfl⟩
        · exact ⟨x, List.mem_cons_self .., rfl⟩
        · exact ⟨z, List.mem_cons_of_mem _ hz, rfl⟩
      · rcases List.mem_cons.1 hy with rfl | hy
        · rwa [← rat_abs]
        · exact hall y hy
    next h =>
      rw [le_iff_rat hm hpx hmf hfx, not_le] at h
      obtain ⟨r, hr, hfrom, hle, hall⟩ := ih' hm hmf
      refine ⟨r, hr, hfrom.imp_right fun ⟨z, hz, e⟩ => ⟨z, List.mem_cons_of_mem _ hz, e⟩, hle, fun y hy => ?_⟩
      rcases List.mem_cons.1 hy with rfl | hy
      · rw [← rat_abs]; exact h.le.trans hle
      · exact hall y hy

/-- `maxAbs` is the magnitude of an element that none exceeds. -/
theorem maxAbs_spec {xs : List XR} (hp : ∀ x ∈ xs, proper x) (hf : ∀ x ∈ xs, x.isFin = true) (hne : xs ≠ []) :
    ∃ x ∈ xs, maxAbs xs = x.abs ∧ ∀ y ∈ xs, |rat y| ≤ |rat x| := by
  obtain ⟨x, l, rfl⟩ := List.exists_cons_of_ne_nil hne
  have hpx := proper_abs (hp x (List.mem_cons_self ..))
  have hfx : x.abs.isFin = true := by rw [isFin_abs]; exact hf x (List.mem_cons_self ..)
  have hfirst : XR.max (.fin false 0 1) x.abs = x.abs := by
    have hz : rat (.fin false 0 1) ≤ rat x.abs := by rw [rat_abs]; simp [rat, signedNum]
    rw [XR.max, if_pos ((le_iff_rat (show proper (.fin false 0 1) from Nat.one_pos) hpx rfl hfx).2 hz)]
  obtain ⟨r, hr, hfrom, hle, hall⟩ := foldl_max_abs (fun y hy => hp y (List.mem_cons_of_mem _ hy))
    (fun y hy => hf y (List.mem_cons_of_mem _ hy)) hpx hfx
  have hmax : maxAbs (x :: l) = r := by rw [maxAbs, List.foldl_cons, hfirst, hr]
  have hany : ∃ z ∈ x :: l, r = z.abs := by
    rcases hfrom with rfl | ⟨z, hz, rfl⟩
    · exact ⟨x, List.mem_cons_self .., rfl⟩
    · exact ⟨z, List.mem_cons_of_mem _ hz, rfl⟩
  obtain ⟨z, hz, hrz⟩ := hany
  refine ⟨z, hz, hmax.trans hrz, fun y hy => ?_⟩
  rw [← rat_abs z, ← hrz]
  rcases List.mem_cons.1 hy with rfl | hy
  · rwa [← rat_abs]
  · exact hall y hy

theorem isFin_maxAbs {xs : List XR} (hp : ∀ x ∈ xs, proper x) (hf : ∀ x ∈ xs, x.isFin = true) : (maxAbs xs).isFin = true := by
  rcases eq_or_ne xs [] with rfl | hne
  · rfl
  · obtain ⟨x, hx, hmax, -⟩ := maxAbs_spec hp hf hne
    rw [hmax, isFin_abs, hf x hx]

theorem topExp_iff {xs : List XR} (hp : ∀ x ∈ xs, proper x) (hf : ∀ x ∈ xs, x.isFin = true) {e : Int} :
    topExp xs e ↔ (∃ x ∈ xs, 2 ^ e ≤ |rat x|) ∧ ∀ x ∈ xs, |rat x| < 2 ^ (e + 1) := by
  have hle : ∀ x ∈ xs, (XR.le (two e) x.abs = true ↔ 2 ^ e ≤ |rat x|) := fun x hx => by
    rw [le_iff_rat (proper_two e) (proper_abs (hp x hx)) (isFin_two e) (by rw [isFin_abs, hf x hx]), rat_two, rat_abs]
  have hlt : ∀ x ∈ xs, (XR.lt x.abs (two (e + 1)) = true ↔ |rat x| < 2 ^ (e + 1)) := fun x hx => by
    rw [lt_iff_rat (proper_abs (hp x hx)) (proper_two _) (by rw [isFin_abs, hf x hx]) (isFin_two _), rat_two, rat_abs]
  unfold topExp
  refine and_congr (exists_congr fun x => and_congr_right (hle x)) (forall₂_congr hlt)

/-- The exponent of `maxAbs` is the one that `topExp` describes. -/
theorem topExp_iff_maxAbs {xs : List XR} (hp : ∀ x ∈ xs, proper x) (hf : ∀ x ∈ xs, x.isFin = true)
    (h0 : ∃ x ∈ xs, x.isZero = false) {e : Int} : topExp xs e ↔ (maxAbs xs).log2 = e := by
  obtain ⟨z, hz, hnz⟩ := h0
  obtain ⟨x, hx, hmax, hall⟩ := maxAbs_spec hp hf (List.ne_nil_of_mem hz)
  have hzr : rat z ≠ 0 := fun h => by rw [(isZero_iff (hp z hz) (hf z hz)).2 h] at hnz; cases hnz
  have hpos : 0 < |rat x| := (abs_pos.2 hzr).trans_le (hall z hz)
  rw [topExp_iff hp hf, hmax, log2_eq_log (proper_abs (hp x hx)) (by rw [isFin_abs, hf x hx]) (by rw [rat_abs]; exact hpos.ne'),
    rat_abs, abs_abs, log_two_eq_iff hpos]
  constructor
  · exact fun ⟨⟨y, hy, hle⟩, hlt⟩ => ⟨hle.trans (hall y hy), hlt x hx⟩
  · exact fun ⟨hle, hlt⟩ => ⟨⟨x, hx, hle⟩, fun y hy => (hall y hy).trans_lt hlt⟩

theorem exists_nonzero_of_topExp {xs : List XR} (hp : ∀ x ∈ xs, proper x) (hf : ∀ x ∈ xs, x.isFin = true) {e : Int}
    (h : topExp xs e) : ∃ x ∈ xs, x.isZero = false := by
  obtain ⟨⟨x, hx, hle⟩, -⟩ := (topExp_iff hp hf).1 h
  refine ⟨x, hx, Bool.eq_false_iff.2 fun hz => ?_⟩
  rw [isZero_iff (hp x hx) (hf x hx)] at hz
  rw [hz, abs_zero] at hle
  exact absurd hle (not_le.2 (by positivity))

end Sys2Proof.Spec
end

section
/-! SUPPORT. Lists cut into pieces and numbered, and the writes of a row (R132, R245). -/

namespace Sys2Proof.Machine

variable {α : Type}

/-! ### Quotients rounded up -/

theorem lt_ceilDiv {n : Nat} (hn : 0 < n) {a q : Nat} : q < ceilDiv a n ↔ n * q < a := by
  rw [ceilDiv, ← Nat.succ_le_iff, Nat.le_div_iff_mul_le hn, Nat.succ_mul, Nat.mul_comm]
  omega

theorem ceilDiv_eq_iff {n : Nat} (hn : 0 < n) {a m : Nat} : ceilDiv a n = m ↔ ∀ q, q < m ↔ n * q < a := by
  constructor
  · rintro rfl q
    exact lt_ceilDiv hn
  · intro h
    exact eq_of_forall_lt_iff fun q => (lt_ceilDiv hn).trans (h q).symm

theorem ceilDiv_eq_ceil (a : Nat) {n : Nat} (hn : 0 < n) : ceilDiv a n = ((a : ℚ) / n).ceil.toNat := by
  have hnq : (0 : ℚ) < n := by exact_mod_cast hn
  refine eq_of_forall_ge_iff fun m => ?_
  rw [← not_lt, lt_ceilDiv hn, not_lt, Int.toNat_le, Rat.ceil_le_iff, div_le_iff₀ hnq, Nat.mul_comm]
  exact_mod_cast Iff.rfl

theorem ceilDiv_of_mod_eq_zero {a n : Nat} (hn : 0 < n) (h : a % n = 0) : ceilDiv a n = a / n := by
  rw [ceilDiv_eq_iff hn]
  intro q
  rw [Nat.lt_div_iff_mul_lt' (Nat.dvd_of_mod_eq_zero h)]

theorem ceilDiv_succ {a n m : Nat} (h : ceilDiv a n = m + 1) : 0 < n ∧ 0 < a ∧ ceilDiv (a - n) n = m := by
  have hn : 0 < n := Nat.pos_of_ne_zero fun h0 => by rw [h0, ceilDiv, Nat.div_zero] at h; omega
  have hq := (ceilDiv_eq_iff hn).1 h
  refine ⟨hn, by simpa using (hq 0).1 (by omega), (ceilDiv_eq_iff hn).2 fun q => ?_⟩
  have := hq (q + 1)
  rw [Nat.mul_succ] at this
  omega

/-! ### Pieces of a list -/

theorem chunksOf_cut {n : Nat} (f : Nat) {l : List α} (h : 0 < l.length) :
    chunksOf n (f + 1) l = l.take n :: chunksOf n f (l.drop n) := by
  cases l with
  | nil => exact absurd h (lt_irrefl 0)
  | cons x r => rfl

theorem chunksOf_eq (n : Nat) (l : List α) : chunksOf n (ceilDiv l.length n) l =
    (List.range (ceilDiv l.length n)).map fun q => (l.drop (n * q)).take n := by
  generalize hf : ceilDiv l.length n = f
  induction f generalizing l with
  | zero => rfl
  | succ f ih =>
    obtain ⟨-, hl, hrest⟩ := ceilDiv_succ hf
    rw [← List.length_drop] at hrest
    rw [chunksOf_cut f hl, ih _ hrest, List.range_succ_eq_map, List.map_cons, List.map_map, Nat.mul_zero, List.drop_zero]
    congr 1
    refine List.map_congr_left fun q _ => ?_
    rw [List.drop_drop, Function.comp_apply, Nat.mul_succ, Nat.add_comm]

theorem drop_take_map_range (v : Nat → α) (m k n : Nat) : (((List.range m).map v).drop k).take n =
    (List.range (min n (m - k))).map fun i => v (k + i) := by
  apply List.ext_getElem
  · simp
  · intro i _ _
    simp

theorem map_range_getD (l : List α) (d : α) : (List.range l.length).map (fun i => l.getD i d) = l := by
  apply List.ext_getElem
  · simp
  · intro i _ h
    simp [h]

theorem eq_map_range_getD {l : List α} {n : Nat} (h : l.length = n) (d : α) : l = (List.range n).map fun i => l.getD i d := by
  rw [← h, map_range_getD]

/-- A list filled up to `n` elements. -/
theorem append_replicate_eq {l : List α} {n : Nat} (h : l.length ≤ n) (d : α) :
    l ++ List.replicate (n - l.length) d = (List.range n).map fun i => l.getD i d := by
  apply List.ext_getElem
  · simp [h]
  · intro i _ _
    by_cases hi : i < l.length
    · simp [hi]
    · simp [List.getElem_append_right (not_lt.1 hi), not_lt.1 hi]

@[simp] theorem map_range_zip_range (g : Nat → α) (n : Nat) : ((List.range n).map g).zip (List.range n) =
    (List.range n).map fun i => (g i, i) := by
  simpa using List.zip_map' (l := List.range n) (f := g) (g := id)

@[simp] theorem map_range_zip_map_range {β : Type} (g : Nat → α) (h : Nat → β) (n : Nat) :
    ((List.range n).map g).zip ((List.range n).map h) = (List.range n).map fun i => (g i, h i) := List.zip_map'

theorem getD_map_range (g : Nat → α) {n i : Nat} (h : i < n) (d : α) : ((List.range n).map g).getD i d = g i := by
  simp [h]

/-- Pieces of one length joined. -/
theorem flatMap_range_blocks {g : Nat → List α} {m n : Nat} (h : ∀ q < m, (g q).length = n) (d : α) :
    (List.range m).flatMap g = (List.range (m * n)).map fun e => (g (e / n)).getD (e % n) d := by
  induction m with
  | zero => simp
  | succ m ih =>
    rw [List.range_succ, List.flatMap_append, ih fun q hq => h q (by omega), Nat.succ_mul, List.range_add, List.map_append,
      List.map_map, List.flatMap_singleton]
    congr 1
    conv_lhs => rw [eq_map_range_getD (h m (by omega)) d]
    refine List.map_congr_left fun i hi => ?_
    have hi := List.mem_range.1 hi
    have hn : 0 < n := by omega
    rw [Function.comp_apply, Nat.mul_comm m n, Nat.mul_add_div hn, Nat.mul_add_mod, Nat.div_eq_of_lt hi, Nat.mod_eq_of_lt hi, Nat.add_zero]

/-- The pieces of a numbered list that they divide. -/
theorem chunksOf_map_range (v : Nat → α) {n m : Nat} (hn : 0 < n) (hm : m % n = 0) : chunksOf n (ceilDiv m n) ((List.range m).map v) =
    (List.range (m / n)).map fun q => (List.range n).map fun i => v (q * n + i) := by
  have hcut := chunksOf_eq n ((List.range m).map v)
  rw [List.length_map, List.length_range, ceilDiv_of_mod_eq_zero hn hm] at hcut
  rw [ceilDiv_of_mod_eq_zero hn hm, hcut]
  refine List.map_congr_left fun q hq => ?_
  have hroom : (q + 1) * n ≤ m / n * n := Nat.mul_le_mul_right n (List.mem_range.1 hq)
  rw [Nat.succ_mul, Nat.div_mul_cancel (Nat.dvd_of_mod_eq_zero hm)] at hroom
  rw [drop_take_map_range, Nat.mul_comm n q, Nat.min_eq_left (by omega)]

theorem flatten_chunksOf {n : Nat} (hn : 0 < n) (l : List α) : (chunksOf n (ceilDiv l.length n) l).flatten = l := by
  generalize hf : ceilDiv l.length n = f
  induction f generalizing l with
  | zero =>
    have : l.length = 0 := by simpa using (ceilDiv_eq_iff hn).1 hf 0
    rw [List.eq_nil_of_length_eq_zero this]
    rfl
  | succ f ih =>
    obtain ⟨-, hl, hrest⟩ := ceilDiv_succ hf
    rw [← List.length_drop] at hrest
    rw [chunksOf_cut f hl, List.flatten_cons, ih _ hrest, List.take_append_drop]

/-- Pieces of a numbered list, the last one perhaps short, joined. -/
theorem flatMap_range_pieces {n : Nat} (hn : 0 < n) (m : Nat) (v : Nat → α) :
    ((List.range (ceilDiv m n)).flatMap fun q => (List.range (min n (m - n * q))).map fun i => v (n * q + i)) = (List.range m).map v := by
  have h := flatten_chunksOf hn ((List.range m).map v)
  rw [chunksOf_eq, List.length_map, List.length_range, ← List.flatMap_def] at h
  simpa only [drop_take_map_range] using h

theorem any_range_pieces {n : Nat} (hn : 0 < n) (m : Nat) (p : Nat → Bool) :
    ((List.range (ceilDiv m n)).any fun q => (List.range (min n (m - n * q))).any fun i => p (n * q + i)) = (List.range m).any p := by
  have h := congrArg (fun l => l.any id) (flatMap_range_pieces hn m p)
  simpa only [List.any_flatMap, List.any_map, Function.comp_def, id] using h

/-! ### Places counted piece by piece -/

theorem exists_lt_blocks {n m : Nat} (hn : 0 < n) (hm : m % n = 0) (p : Nat → Prop) :
    (∃ k < m, p k) ↔ ∃ q < m / n, ∃ i < n, p (q * n + i) := by
  have hwhole : m / n * n = m := Nat.div_mul_cancel (Nat.dvd_of_mod_eq_zero hm)
  constructor
  · rintro ⟨k, hk, hp⟩
    exact ⟨k / n, Nat.div_lt_div_of_lt_of_dvd (Nat.dvd_of_mod_eq_zero hm) hk, k % n, Nat.mod_lt k hn, by rwa [Nat.mul_comm, Nat.div_add_mod]⟩
  · rintro ⟨q, hq, i, hi, hp⟩
    have hroom : (q + 1) * n ≤ m / n * n := Nat.mul_le_mul_right n hq
    rw [Nat.succ_mul] at hroom
    exact ⟨q * n + i, by omega, hp⟩

theorem exists_lt_pieces {n : Nat} (hn : 0 < n) (m : Nat) (p : Nat → Nat → Prop) :
    (∃ r < ceilDiv m n, ∃ i < min n (m - n * r), p r i) ↔ ∃ k < m, p (k / n) (k % n) := by
  constructor
  · rintro ⟨r, hr, i, hi, hp⟩
    refine ⟨n * r + i, by omega, ?_⟩
    rwa [Nat.mul_add_div hn, Nat.mul_add_mod, Nat.div_eq_of_lt (by omega), Nat.mod_eq_of_lt (by omega), Nat.add_zero]
  · rintro ⟨k, hk, hp⟩
    have hdm := Nat.div_add_mod k n
    have hmod := Nat.mod_lt k hn
    exact ⟨k / n, (lt_ceilDiv hn).2 (by omega), k % n, by omega, hp⟩

end Sys2Proof.Machine
end

section
/-! SUPPORT. The rotation of a block and of a row of blocks (R130, R131, R133). -/

namespace Sys2Proof.Spec

open Sys2Proof.Machine

/-! ### Signs (R133) -/

theorem lfsr_succ (st : Word) (i : Nat) : lfsr st (i + 1) = lfsrNext (lfsr st i) := rfl

theorem lfsr_lfsrNext (st : Word) (i : Nat) : lfsr (lfsrNext st) i = lfsr st (i + 1) := by
  induction i with
  | zero => rfl
  | succ i ih => rw [lfsr_succ, ih, ← lfsr_succ]

theorem lfsrBits_eq (n : Nat) (st : Word) : lfsrBits n st = (List.range n).map fun i => (lfsr st i).getLsbD 0 := by
  induction n generalizing st with
  | zero => rfl
  | succ n ih =>
    rw [lfsrBits, ih, List.range_succ_eq_map, List.map_cons, List.map_map]
    simp only [lfsr_lfsrNext]
    rfl

theorem applySigns_eq (seed : Word) (bi : Nat) (a : List Int) : applySigns (lfsrSigns seed bi a.length) a = signed seed bi a := by
  have hs : lfsrSigns seed bi a.length = (List.range a.length).map (lfsrSign seed bi) := lfsrBits_eq ..
  rw [hs, applySigns]
  conv_lhs => rw [← map_range_getD a 0, List.length_map, List.length_range, map_range_zip_map_range, List.map_map]
  rfl

@[simp] theorem length_signed (seed : Word) (bi : Nat) (a : List Int) : (signed seed bi a).length = a.length := by simp [signed]

/-! ### Butterflies (R131) -/

@[simp] theorem length_butterfly (s : Nat) (a : List Int) : (butterfly s a).length = a.length := by simp [butterfly]

theorem butterflies_succ (s : Nat) (a : List Int) : butterflies (s + 1) a = butterfly s (butterflies s a) := by
  simp [butterflies, List.range_succ]

@[simp] theorem length_butterflies (k : Nat) (a : List Int) : (butterflies k a).length = a.length := by
  induction k with
  | zero => rfl
  | succ k ih => rw [butterflies_succ, length_butterfly, ih]

theorem getD_butterfly {s : Nat} {a : List Int} {i : Nat} (h : i < a.length) : (butterfly s a).getD i 0 =
    if bitOf i s = true then a.getD (i - 2 ^ s) 0 - a.getD i 0 else a.getD i 0 + a.getD (i + 2 ^ s) 0 :=
  getD_map_range _ h 0

/-- The partner of a position whose bit `s` is clear lies in the block. -/
theorem add_two_pow_lt {i s k : Nat} (hs : s < k) (hi : i < 2 ^ k) (h0 : i / 2 ^ s % 2 = 0) : i + 2 ^ s < 2 ^ k := by
  obtain ⟨m, rfl⟩ := Nat.exists_eq_add_of_lt hs
  have hlow : i % 2 ^ (s + 1) < 2 ^ s := by
    rw [pow_succ, Nat.mod_mul, h0, Nat.mul_zero, Nat.add_zero]
    exact Nat.mod_lt _ (by positivity)
  have hhigh : i / 2 ^ (s + 1) < 2 ^ m := by
    rw [Nat.div_lt_iff_lt_mul (by positivity), ← pow_add]
    exact hi.trans_eq (by congr 1; omega)
  calc i + 2 ^ s = 2 ^ (s + 1) * (i / 2 ^ (s + 1)) + (i % 2 ^ (s + 1) + 2 ^ s) := by rw [← Nat.add_assoc, Nat.div_add_mod]
    _ < 2 ^ (s + 1) * (i / 2 ^ (s + 1)) + 2 ^ (s + 1) := Nat.add_lt_add_left (by rw [pow_succ _ s] at hlow ⊢; omega) _
    _ = 2 ^ (s + 1) * (i / 2 ^ (s + 1) + 1) := (Nat.mul_succ ..).symm
    _ ≤ 2 ^ (s + 1) * 2 ^ m := Nat.mul_le_mul_left _ hhigh
    _ = 2 ^ (s + m + 1) := by rw [← pow_add]; congr 1; omega

theorem stages_butterflies {a : List Int} {k : Nat} (ha : a.length = 2 ^ k) : stages k fun s => butterflies s a := by
  intro s hs
  simp only [butterflies_succ, length_butterfly, length_butterflies, ha, true_and]
  intro i hi h0
  have hclear : bitOf i s = false := by simp [bitOf, h0]
  have hlen : (butterflies s a).length = 2 ^ k := by rw [length_butterflies, ha]
  rw [getD_butterfly (hlen.symm ▸ hi), getD_butterfly (hlen.symm ▸ add_two_pow_lt hs hi h0), hclear, bitOf_add_two_pow_self hclear,
    Nat.add_sub_cancel]
  exact ⟨rfl, rfl⟩

/-! ### A block rotated (R130, R131) -/

theorem rotateCases_notFinite {xs : List XR} (W k : Nat) (f : List Int → List Int) (h : ∃ x ∈ xs, x.isFin = false) :
    rotateCases xs W k f = (xs.map fun _ => XR.nan, flagNV) := by
  have : (xs.any fun x => !x.isFin) = true := by simpa using h
  rw [rotateCases, if_pos this]

theorem any_notFinite_eq_false {xs : List XR} (h : ∀ x ∈ xs, x.isFin = true) : (xs.any fun x => !x.isFin) = false := by simpa using h

theorem isFin_of_isZero {x : XR} (h : x.isZero = true) : x.isFin = true := by
  cases x <;> simp_all [XR.isZero, XR.isFin]

theorem rotateCases_zero {xs : List XR} (W k : Nat) (f : List Int → List Int) (h : ∀ x ∈ xs, x.isZero = true) :
    rotateCases xs W k f = (xs.map fun _ => XR.fin false 0 1, 0) := by
  rw [rotateCases, any_notFinite_eq_false fun x hx => isFin_of_isZero (h x hx), if_neg Bool.false_ne_true, if_pos (List.all_eq_true.2 h)]

/-- The integers a block becomes, and what a rotation's integers give back. -/
def aligned (xs : List XR) (W : Nat) : List Int := xs.map fun x => (XR.scale2 (W - 2 - (maxAbs xs).log2) x).toInt .rtz

theorem rotateCases_finite {xs : List XR} (W k : Nat) (f : List Int → List Int) (hf : ∀ x ∈ xs, x.isFin = true)
    (h0 : ∃ x ∈ xs, x.isZero = false) : rotateCases xs W k f =
      ((f (aligned xs W)).map (fun v => XR.scale2 ((maxAbs xs).log2 - W + 2) (XR.ofInt ((XR.ofFrac v (2 ^ (k / 2))).toInt .rne))),
        if (xs.any fun x => !(XR.scale2 (W - 2 - (maxAbs xs).log2) x).isInt) || (f (aligned xs W)).any (fun v => v % (2 ^ (k / 2) : Nat) ≠ 0)
        then flagNX else 0) := by
  have hz : xs.all XR.isZero = false := by simpa using h0
  rw [rotateCases, any_notFinite_eq_false hf, if_neg Bool.false_ne_true, hz, if_neg Bool.false_ne_true]
  simp only [alignBlock, normalise, aligned, List.map_map, List.any_map]
  rfl

theorem length_rotateCases (xs : List XR) (W k : Nat) {f : List Int → List Int}
    (hf : ∀ a, a.length = xs.length → (f a).length = xs.length) : (rotateCases xs W k f).1.length = xs.length := by
  unfold rotateCases
  split
  · simp
  · split
    · simp
    · simp only [normalise, List.length_map]
      exact hf _ (by simp [alignBlock])

theorem turned_rotateCases {fwd : Bool} {xs : List XR} {k : Nat} {seed : Word} {bi W : Nat} (hlen : xs.length = 2 ^ k)
    (hp : ∀ x ∈ xs, proper x) {f : List Int → List Int}
    (hfwd : ∀ a, a.length = xs.length → f a = if fwd = true then butterflies k (signed seed bi a) else signed seed bi (butterflies k a)) :
    turned fwd xs k seed bi W (rotateCases xs W k f) := by
  refine ⟨rotateCases_notFinite W k f, rotateCases_zero W k f, fun hf h0 => ?_⟩
  rw [rotateCases_finite W k f hf h0]
  refine ⟨_, _, f (aligned xs W), fun s => butterflies s (if fwd = true then signed seed bi (aligned xs W) else aligned xs W),
    (topExp_iff_maxAbs hp hf h0).2 rfl, rfl, rfl, stages_butterflies (by cases fwd <;> simp [aligned, hlen]), ?_, rfl, fun h => ?_, fun hi hv => ?_⟩
  · rw [hfwd _ (by simp [aligned])]
    cases fwd <;> rfl
  · rw [if_pos]
    simpa using h
  · rw [if_neg]
    simp only [Bool.or_eq_true, List.any_eq_true, not_or, not_exists, not_and]
    exact ⟨fun x hx => by simp [hi x hx], fun v hmem => by simpa using hv v hmem⟩

theorem applySigns_of_length {xs : List XR} (seed : Word) (bi : Nat) {a : List Int} (ha : a.length = xs.length) :
    applySigns (lfsrSigns seed bi xs.length) a = signed seed bi a := ha ▸ applySigns_eq seed bi a

theorem rotatedBlocks : RotatedBlocks := by
  intro xs k seed bi W hlen hp
  have hk : Nat.log2 xs.length = k := by rw [hlen, Nat.log2_two_pow]
  constructor
  · simp only [gavotteFwd, hk]
    refine turned_rotateCases hlen hp fun a ha => ?_
    rw [applySigns_of_length seed bi ha, if_pos rfl]
  · simp only [gavotteInv, hk]
    refine turned_rotateCases hlen hp fun a ha => ?_
    rw [applySigns_of_length seed bi (by rw [length_butterflies, ha]), if_neg Bool.false_ne_true]

theorem length_gavotteFwd (xs : List XR) (seed : Word) (bi W : Nat) : (gavotteFwd xs seed bi W).1.length = xs.length :=
  length_rotateCases xs W _ fun a ha => by rw [length_butterflies, applySigns_of_length seed bi ha, length_signed, ha]

theorem length_gavotteInv (xs : List XR) (seed : Word) (bi W : Nat) : (gavotteInv xs seed bi W).1.length = xs.length :=
  length_rotateCases xs W _ fun a ha => by
    rw [applySigns_of_length seed bi (by rw [length_butterflies, ha]), length_signed, length_butterflies, ha]

/-! ### Rows of blocks (R132, R245) -/

/-- A row whose blocks are whole is rotated element by element as the statements write it. -/
theorem rotateRow_values (fwd : Bool) (v : Nat → XR) {n m : Nat} (hn : 0 < n) (hm : m % n = 0) (bi : Nat) (seed : Word) (W : Nat) :
    (rotateRow fwd ((List.range m).map v) n bi seed W).1 = (List.range m).map (rotated fwd v n bi seed W) := by
  have hwhole : m / n * n = m := Nat.div_mul_cancel (Nat.dvd_of_mod_eq_zero hm)
  have hlen : ∀ q < m / n, (if fwd = true then gavotteFwd ((List.range n).map fun i => v (q * n + i)) seed (bi + q) W
      else gavotteInv ((List.range n).map fun i => v (q * n + i)) seed (bi + q) W).1.length = n := fun q _ => by
    split <;> simp [length_gavotteFwd, length_gavotteInv]
  simp only [rotateRow, List.length_map, List.length_range, chunksOf_map_range v hn hm, map_range_zip_range, List.map_map,
    List.flatMap_map, Function.comp_def]
  rw [flatMap_range_blocks hlen .nan, hwhole]
  rfl

end Sys2Proof.Spec
end

section
/-! SUPPORT. Delivery as INT8 codes with their scale (R132). -/

namespace Sys2Proof.Spec

open Sys2Proof.Machine

/-! ### `narrow_i8` (R132) -/

/-- A power of two in FP32's range has the pattern `scaleBits`. -/
theorem round_two {u : Int} (hlo : -149 ≤ u) (hhi : u ≤ 127) : (((XR.fin false 1 1).scale2 u).rne fp32).1 = scaleBits u := by
  have hqmin : fp32.qmin = -149 := rfl
  have hinf : fp32.inf = 2139095040 := rfl
  have hpos : 0 < (scaleFrac 1 1 u).1 := Nat.pos_of_ne_zero fun h => one_ne_zero (scaleFrac_num_eq_zero.1 h)
  have hval := scaleFrac_rat 1 1 u
  rw [Nat.cast_one, div_one, one_mul] at hval
  have hround : ∀ {g M : Nat} {q : Int}, Significand fp32 g M q → 0 < M → g < fp32.inf → (2 : ℚ) ^ u = M * 2 ^ q →
      (((XR.fin false 1 1).scale2 u).rne fp32).1 = g := fun hs hM hg h => by
    simp only [XR.scale2, XR.rne, XR.round, if_neg hpos.ne',
      roundFrac_exact .rne false hs hM hpos (scaleFrac_den_pos 1 u Nat.one_pos) hg (hval.trans h)]
    rfl
  unfold scaleBits
  split
  next hsub =>
    obtain ⟨m, hm⟩ := Int.eq_ofNat_of_zero_le (show 0 ≤ u + 149 by omega)
    have hm23 : 2 ^ m < 2 ^ 23 := Nat.pow_lt_pow_right one_lt_two (by omega)
    rw [hm, Int.toNat_natCast]
    refine hround (M := 2 ^ m) (q := -149) ⟨by change _ < 2 ^ 24; omega, by omega, .inl rfl, by simp [hqmin]⟩ (by positivity) (by omega) ?_
    rw [Nat.cast_pow, Nat.cast_ofNat, ← zpow_natCast, ← zpow_add₀ two_ne_zero]
    congr 1
    omega
  next hnorm =>
    obtain ⟨m, hm⟩ := Int.eq_ofNat_of_zero_le (show 0 ≤ u + 126 by omega)
    rw [show (u + 127).toNat = m + 1 by omega]
    refine hround (M := 2 ^ 23) (q := u - 23) ⟨by decide, by omega, .inr le_rfl, ?_⟩ (by positivity) (by omega) ?_
    · rw [hqmin, show (u - 23 - -149).toNat = m by omega]
      show m * 2 ^ 23 + 2 ^ 23 = _
      omega
    · rw [Nat.cast_pow, Nat.cast_ofNat, ← zpow_natCast, ← zpow_add₀ two_ne_zero]
      congr 1
      omega

theorem isNaN_eq_false_of_isFin {x : XR} (h : x.isFin = true) : x.isNaN = false := by
  cases x <;> simp_all [XR.isFin, XR.isNaN]

theorem narrowI8_nan {ys : List XR} (h : ∃ y ∈ ys, y.isNaN = true) : narrowI8 ys = (ys.map fun _ => 0, 0x7FC0_0000, flagNV) := by
  rw [narrowI8, if_pos (List.any_eq_true.2 h)]
  rfl

theorem any_isNaN_eq_false {ys : List XR} (h : ∀ y ∈ ys, y.isNaN = false) : ys.any XR.isNaN = false := by simpa using h

theorem narrowI8_inf {ys : List XR} (hn : ∀ y ∈ ys, y.isNaN = false) (h : ∃ y ∈ ys, y.isFin = false) :
    narrowI8 ys = (ys.map fun _ => 0, 0x7FC0_0000, flagNV ||| flagOF) := by
  have hany : (ys.any fun y => !y.isFin) = true := by simpa using h
  rw [narrowI8, any_isNaN_eq_false hn, if_neg Bool.false_ne_true, if_pos hany]
  rfl

theorem narrowI8_zero {ys : List XR} (h : ∀ y ∈ ys, y.isZero = true) : narrowI8 ys = (ys.map fun _ => 0, 0x3F80_0000, 0) := by
  have hf := fun y hy => isFin_of_isZero (h y hy)
  rw [narrowI8, any_isNaN_eq_false fun y hy => isNaN_eq_false_of_isFin (hf y hy), if_neg Bool.false_ne_true, any_notFinite_eq_false hf,
    if_neg Bool.false_ne_true, if_pos (List.all_eq_true.2 h)]

/-- The code of an element under scale `2 ^ u`. -/
def narrowCode (u : Int) (y : XR) : Int := max (-128) (min 127 ((XR.scale2 (-u) y).toInt .rne))

theorem narrowI8_finite {ys : List XR} (hf : ∀ y ∈ ys, y.isFin = true) (h0 : ∃ y ∈ ys, y.isZero = false) {u : Int}
    (hu : u = max ((maxAbs ys).log2 - 6) (-149)) : narrowI8 ys = if 127 < u then (ys.map fun _ => 0, 0x7FC0_0000, flagNV ||| flagOF)
      else (ys.map (narrowCode u), scaleBits u,
        if (ys.zip (ys.map (narrowCode u))).any fun p => !(XR.eqv (XR.scale2 (-u) p.1) (XR.ofInt p.2)) then flagNX else 0) := by
  have hz : ys.all XR.isZero = false := by simpa using h0
  rw [narrowI8, any_isNaN_eq_false fun y hy => isNaN_eq_false_of_isFin (hf y hy), if_neg Bool.false_ne_true, any_notFinite_eq_false hf,
    if_neg Bool.false_ne_true, hz, if_neg Bool.false_ne_true, ← hu]
  by_cases hbig : 127 < u
  · simp only [if_pos hbig]
    rfl
  · simp only [if_neg hbig, round_two (by omega : -149 ≤ u) (not_lt.1 hbig), List.map_map, List.zip_map_left, List.zip_map_right,
      List.any_map]
    rfl

theorem length_narrowI8 (ys : List XR) : (narrowI8 ys).1.length = ys.length := by
  unfold narrowI8
  split
  · simp
  · split
    · simp
    · split
      · simp
      · dsimp only
        split <;> simp

end Sys2Proof.Spec
end

section
/-! SUPPORT. NQ4: the superscale, block scales, codes and records of a superblock (R120 to R123), and narrowed groups. -/

namespace Sys2Proof.Spec

open Sys2Proof.Machine

/-! ### The nearest code (R123) -/

/-- A fold that keeps the least key met. -/
theorem foldl_least {α β : Type} [LinearOrder β] (key : α → β) (better : α → α → Bool)
    (hb : ∀ k b, better k b = true ↔ key k < key b) (l : List α) (b : α) :
    ∃ r, l.foldl (fun b k => if better k b = true then k else b) b = r ∧ (r = b ∨ r ∈ l) ∧ key r ≤ key b ∧ ∀ k ∈ l, key r ≤ key k := by
  induction l generalizing b with
  | nil => exact ⟨b, rfl, .inl rfl, le_rfl, fun _ h => absurd h List.not_mem_nil⟩
  | cons x l ih =>
    obtain ⟨r, hr, hfrom, hle, hall⟩ := ih (if better x b = true then x else b)
    have hmin : key (if better x b = true then x else b) ≤ key x ∧ key (if better x b = true then x else b) ≤ key b := by
      split
      next h => exact ⟨le_rfl, ((hb x b).1 h).le⟩
      next h => exact ⟨not_lt.1 fun hlt => h ((hb x b).2 hlt), le_rfl⟩
    refine ⟨r, hr, ?_, hle.trans hmin.2, fun k hk => ?_⟩
    · rcases hfrom with rfl | hmem
      · split
        · exact .inr (List.mem_cons_self ..)
        · exact .inl rfl
      · exact .inr (List.mem_cons_of_mem _ hmem)
    · rcases List.mem_cons.1 hk with rfl | hk
      · exact hle.trans hmin.1
      · exact hall k hk

/-- How far `tn / td` lies from a code, in units of `1 / (128 * td)`. -/
def codeDist (tn : Int) (td k : Nat) : Nat := (128 * tn - nq4Code k * td).natAbs

theorem codeDist_rat (tn : Int) {td : Nat} (hd : 0 < td) (k : Nat) : (codeDist tn td k : ℚ) = codeGap (tn / td) k * (128 * td) := by
  have hdq : (0 : ℚ) < td := by exact_mod_cast hd
  have h : ((128 * tn - nq4Code k * td : ℤ) : ℚ) = (tn / td - nq4Code k / 128) * (128 * td) := by
    push_cast
    field_simp
  rw [codeDist, Nat.cast_natAbs, Int.cast_abs, h, abs_mul, abs_of_pos (by positivity : (0 : ℚ) < 128 * td), codeGap, mag_eq_abs]

/-- The order in which codes are preferred: the nearer, then the smaller. -/
def codeOrder (tn : Int) (td k : Nat) : ℕ ×ₗ ℕ := toLex (codeDist tn td k, (nq4Code k).natAbs)

theorem nq4Encode_spec (fresh : Nat) (tn : Int) {td : Nat} (hd : 0 < td) {c : Nat} (hc : nq4Encode fresh tn td = c) {t : ℚ} (ht : t = tn / td) :
    c < 16 ∧ ∀ k < 16, codeGap t c < codeGap t k ∨ (codeGap t c = codeGap t k ∧ (nq4Code c).natAbs ≤ (nq4Code k).natAbs) := by
  have hdq : (0 : ℚ) < 128 * td := by positivity
  have hlt : ∀ a b, codeGap t a < codeGap t b ↔ codeDist tn td a < codeDist tn td b := fun a b => by
    rw [← Nat.cast_lt (α := ℚ), codeDist_rat tn hd, codeDist_rat tn hd, mul_lt_mul_iff_left₀ hdq, ht]
  have heq : ∀ a b, codeGap t a = codeGap t b ↔ codeDist tn td a = codeDist tn td b := fun a b => by
    rw [← Nat.cast_inj (R := ℚ), codeDist_rat tn hd, codeDist_rat tn hd, mul_left_inj' hdq.ne', ht]
  simp only [hlt, heq]
  unfold nq4Encode at hc
  split at hc
  next h0 =>
    have hsmall : c = 7 ∨ c = 8 := by omega
    have hdist : ∀ k, codeDist tn td k = (nq4Code k).natAbs * td := fun k => by
      rw [codeDist, h0, Int.mul_zero, Int.zero_sub, Int.natAbs_neg, Int.natAbs_mul, Int.natAbs_natCast]
    have hleast : ∀ k < 16, (nq4Code c).natAbs ≤ (nq4Code k).natAbs := by
      rcases hsmall with rfl | rfl <;> decide
    refine ⟨by omega, fun k hk => ?_⟩
    rw [hdist, hdist]
    rcases (hleast k hk).lt_or_eq with h | h
    · exact .inl (Nat.mul_lt_mul_of_pos_right h hd)
    · exact .inr ⟨by rw [h], h.le⟩
  next h0 =>
    obtain ⟨r, hr, hfrom, -, hall⟩ := foldl_least (codeOrder tn td) (fun k best => nearer tn td (nq4Code k) (nq4Code best) ||
      (equallyNear tn td (nq4Code k) (nq4Code best) && decide ((nq4Code k).natAbs < (nq4Code best).natAbs)))
      (fun k b => by simp [nearer, equallyNear, codeOrder, codeDist, Prod.Lex.toLex_lt_toLex]) (List.range 16) 0
    rw [← hc, hr]
    refine ⟨?_, fun k hk => ?_⟩
    · rcases hfrom with rfl | h
      · decide
      · exact List.mem_range.1 h
    · simpa [codeOrder, Prod.Lex.toLex_le_toLex] using hall k (List.mem_range.2 hk)

/-! ### Blocks (R121 to R123) -/

/-- R123: the superscale is the largest magnitude, rounded up. -/
theorem superscale_spec (xs : List XR) (h : ∀ x ∈ xs, proper x ∧ x.isFin = true) (hne : xs ≠ []) : ∃ x ∈ xs, largest xs (mag (rat x)) ∧
    nq4Superscale xs = (x.abs.round fp32 .rup false).1 := by
  obtain ⟨x, hx, hmax, hall⟩ := maxAbs_spec (fun x hx => (h x hx).1) (fun x hx => (h x hx).2) hne
  exact ⟨x, hx, ⟨⟨x, hx, rfl⟩, fun y hy => by simpa only [mag_eq_abs] using hall y hy⟩, by rw [nq4Superscale, hmax]⟩

/-- The code of element `x` at place `j` of a block of scale `q`, under superscale `n / d`. -/
def nq4CodeAt (fresh n d q j : Nat) (x : XR) : Nat :=
  if q = 0 then 8
  else match x with
    | .fin neg xn xd => nq4Encode (fresh + j) (signedNum neg (xn * 255 * d)) (xd * q * n)
    | _ => 8

/-- The scale of a block. -/
def nq4Scale (l : List XR) (sneg : Bool) (n d : Nat) : Nat := (nq4Block 0 l sneg n d).1

theorem nq4Block_eq (fresh : Nat) (l : List XR) (sneg : Bool) (n d : Nat) (hf : (maxAbs l).isFin = true) : nq4Block fresh l sneg n d =
    (nq4Scale l sneg n d, (List.range l.length).map fun j => nq4CodeAt fresh n d (nq4Scale l sneg n d) j (l.getD j .nan)) := by
  obtain ⟨s, an, ad, hmax⟩ := isFin_iff.1 hf
  have hq : ∀ fresh, (nq4Block fresh l sneg n d).1 = nq4Scale l sneg n d := fun fresh => by simp only [nq4Scale, nq4Block, hmax]
  refine Prod.ext (hq fresh) ?_
  rw [← hq fresh]
  simp only [nq4Block, hmax]
  conv_lhs => rw [← map_range_getD l .nan, List.length_map, List.length_range, map_range_zip_range, List.map_map]
  rfl

theorem neg_eq_false_of_nonneg {neg : Bool} {n d : Nat} (hn : 0 < n) (hd : 0 < d) (h : 0 ≤ rat (.fin neg n d)) : neg = false := by
  cases neg with
  | false => rfl
  | true =>
    have : rat (.fin true n d) < 0 := by
      simp only [rat, signedNum, if_true]
      push_cast
      rw [neg_div, neg_lt_zero]
      positivity
    exact absurd h (not_le.2 this)

theorem nq4Scale_eq {l : List XR} {sneg : Bool} {n d : Nat} (hp : ∀ x ∈ l, proper x) (hf : ∀ x ∈ l, x.isFin = true) (hd : 0 < d)
    (h0 : 0 ≤ rat (.fin sneg n d)) {a : ℚ} (ha : largest l a) : nq4Scale l sneg n d =
      if rat (.fin sneg n d) = 0 then 0 else min 255 (255 * a / rat (.fin sneg n d)).ceil.toNat := by
  obtain ⟨⟨y, hy, rfl⟩, hle⟩ := ha
  obtain ⟨x, hx, hmax, hall⟩ := maxAbs_spec hp hf (List.ne_nil_of_mem hy)
  obtain ⟨xneg, an, ad, rfl⟩ := isFin_iff.1 (hf x hx)
  have had : 0 < ad := hp _ hx
  have ha : mag (rat y) = (an : ℚ) / ad := by
    refine le_antisymm ?_ ?_
    · simpa only [mag_eq_abs, rat, abs_div, abs_signedNum, Nat.abs_cast] using hall y hy
    · simpa only [mag_eq_abs, rat, abs_div, abs_signedNum, Nat.abs_cast] using hle _ hx
  have hdq : (d : ℚ) ≠ 0 := by exact_mod_cast hd.ne'
  rw [ha]
  simp only [nq4Scale, nq4Block, hmax, XR.abs]
  rcases Nat.eq_zero_or_pos n with rfl | hn
  · simp [rat, signedNum]
  · have hnq : (0 : ℚ) < n := by exact_mod_cast hn
    obtain rfl := neg_eq_false_of_nonneg hn hd h0
    have hs : rat (.fin false n d) = n / d := by simp [rat, signedNum]
    have hfrac : ((255 * an * d : ℕ) : ℚ) / (ad * n : ℕ) = 255 * (an / ad) / (n / d) := by
      push_cast
      field_simp
    rw [hs, if_neg hn.ne', if_neg Bool.false_ne_true, if_neg (div_pos hnq (by positivity)).ne', ceilDiv_eq_ceil _ (Nat.mul_pos had hn), hfrac]

theorem nq4CodeAt_spec (fresh : Nat) {sneg : Bool} {n d q : Nat} (j : Nat) {x : XR} (hp : proper x) (hf : x.isFin = true) (hd : 0 < d)
    (h0 : 0 ≤ rat (.fin sneg n d)) (hn : q ≠ 0 → n ≠ 0) {c : Nat} (hc : nq4CodeAt fresh n d q j x = c) : c < 16 ∧ (q = 0 → c = 8) ∧
    (q ≠ 0 → ∀ t : ℚ, t = rat x / (((q : ℚ) / 255) * rat (.fin sneg n d)) → ∀ k < 16,
      codeGap t c < codeGap t k ∨ (codeGap t c = codeGap t k ∧ (nq4Code c).natAbs ≤ (nq4Code k).natAbs)) := by
  unfold nq4CodeAt at hc
  split at hc
  next hq => exact ⟨by omega, fun _ => hc.symm, fun h => absurd hq h⟩
  next hq =>
    obtain ⟨neg, xn, xd, rfl⟩ := isFin_iff.1 hf
    have hnpos := Nat.pos_of_ne_zero (hn hq)
    have hqpos := Nat.pos_of_ne_zero hq
    obtain rfl := neg_eq_false_of_nonneg hnpos hd h0
    have ht : rat (.fin neg xn xd) / (((q : ℚ) / 255) * rat (.fin false n d)) = (signedNum neg (xn * 255 * d) : ℚ) / (xd * q * n : ℕ) := by
      have hxd : (xd : ℚ) ≠ 0 := by exact_mod_cast Nat.pos_iff_ne_zero.1 hp
      have hdq : (d : ℚ) ≠ 0 := by exact_mod_cast hd.ne'
      cases neg <;> simp only [rat, signedNum, if_true, Bool.false_eq_true, if_false] <;> push_cast <;> field_simp
    have hpos : 0 < xd * q * n := Nat.mul_pos (Nat.mul_pos hp hqpos) hnpos
    refine ⟨(nq4Encode_spec _ _ hpos hc rfl).1, fun h => absurd h hq, fun _ t h => (nq4Encode_spec _ _ hpos hc (h.trans ht)).2⟩

/-! ### Superblocks (R121 to R123) -/

theorem nq4Superblock_invalid (fresh : Nat) {xs : List XR} {S : Nat} (h : (f32 S).isFin = false ∨ ∃ x ∈ xs, x.isFin = false) :
    nq4Superblock fresh xs S = (xs.map fun _ => 8, List.replicate (ceilDiv xs.length 64) 0, 0x7FC0_0000, flagNV) := by
  unfold f32 at h
  unfold nq4Superblock
  split
  next heq =>
    rw [heq] at h
    rw [if_pos (by simpa [XR.isFin] using h)]
    rfl
  next => rfl

/-- The code of element `i` of a superblock. -/
def superCode (fresh : Nat) (xs : List XR) (sneg : Bool) (n d i : Nat) : Nat :=
  nq4CodeAt fresh n d (nq4Scale (blockOf xs (i / 64)) sneg n d) (i % 64) (xs.getD i .nan)

theorem blockOf_eq (xs : List XR) (b : Nat) :
    blockOf xs b = (List.range (min 64 (xs.length - 64 * b))).map fun j => xs.getD (64 * b + j) .nan := by
  conv_lhs => rw [blockOf, ← map_range_getD xs .nan, drop_take_map_range]

theorem mem_of_mem_blockOf {xs : List XR} {b : Nat} {x : XR} (h : x ∈ blockOf xs b) : x ∈ xs := List.mem_of_mem_drop (List.mem_of_mem_take h)

theorem nq4Block_blockOf (fresh : Nat) {xs : List XR} (hp : ∀ x ∈ xs, proper x) (hf : ∀ x ∈ xs, x.isFin = true) (sneg : Bool) (n d b : Nat) :
    nq4Block fresh (blockOf xs b) sneg n d = (nq4Scale (blockOf xs b) sneg n d,
      (List.range (min 64 (xs.length - 64 * b))).map fun j => superCode fresh xs sneg n d (64 * b + j)) := by
  rw [nq4Block_eq _ _ _ _ _ (isFin_maxAbs (fun x hx => hp x (mem_of_mem_blockOf hx)) fun x hx => hf x (mem_of_mem_blockOf hx))]
  congr 1
  rw [show (blockOf xs b).length = min 64 (xs.length - 64 * b) by rw [blockOf_eq, List.length_map, List.length_range]]
  refine List.map_congr_left fun j hj => ?_
  have hj := List.mem_range.1 hj
  rw [superCode, show (64 * b + j) / 64 = b by omega, show (64 * b + j) % 64 = j by omega]
  conv_lhs => rw [blockOf_eq xs b, getD_map_range _ hj]
  rw [← blockOf_eq]

theorem nq4Superblock_finite (fresh : Nat) {xs : List XR} {S : Nat} (hp : ∀ x ∈ xs, proper x) (hf : ∀ x ∈ xs, x.isFin = true) {sneg : Bool}
    {n d : Nat} (hS : f32 S = .fin sneg n d) : nq4Superblock fresh xs S = ((List.range xs.length).map (superCode fresh xs sneg n d),
      (List.range (ceilDiv xs.length 64)).map fun b => nq4Scale (blockOf xs b) sneg n d, S,
      if (List.range xs.length).any fun i => !(XR.eqv (nq4Value (superCode fresh xs sneg n d i) (nq4Scale (blockOf xs (i / 64)) sneg n d) S)
        (xs.getD i .nan)) then flagNX else 0) := by
  have hcut : chunksOf 64 (ceilDiv xs.length 64) xs = (List.range (ceilDiv xs.length 64)).map (blockOf xs) := chunksOf_eq 64 xs
  unfold f32 at hS
  have hzip : ∀ b, ((List.range (min 64 (xs.length - 64 * b))).map fun j => superCode fresh xs sneg n d (64 * b + j)).zip (blockOf xs b) =
      (List.range (min 64 (xs.length - 64 * b))).map fun j => (superCode fresh xs sneg n d (64 * b + j), xs.getD (64 * b + j) .nan) := fun b => by
    rw [blockOf_eq, map_range_zip_map_range]
  simp only [nq4Superblock, hS, any_notFinite_eq_false hf, Bool.false_eq_true, if_false, hcut, List.map_map, List.flatMap_map, List.any_map,
    Function.comp_def, nq4Block_blockOf fresh hp hf, hzip]
  rw [flatMap_range_pieces (by norm_num : 0 < 64), ← any_range_pieces (by norm_num : 0 < 64) xs.length]
  refine congrArg (fun b : Bool => ((List.range xs.length).map (superCode fresh xs sneg n d), _, S, if b = true then flagNX else 0)) ?_
  refine congrArg (List.any _) (funext fun b => ?_)
  rw [Bool.eq_iff_iff, List.any_eq_true, List.any_eq_true]
  refine exists_congr fun j => and_congr_right fun hj => ?_
  have hj := List.mem_range.1 hj
  rw [show (64 * b + j) / 64 = b by omega]

theorem signedNum_bne (neg : Bool) (m : Int) (k : Nat) : signedNum (neg != decide (m < 0)) (m.natAbs * k) = m * signedNum neg k := by
  by_cases hm : m < 0
  · rw [signedNum, signedNum, Nat.cast_mul, Int.ofNat_natAbs_of_nonpos hm.le]
    cases neg <;> simp [hm]
  · rw [signedNum, signedNum, Nat.cast_mul, Int.natAbs_of_nonneg (not_lt.1 hm)]
    cases neg <;> simp [hm]

theorem rat_nq4Value {c q S : Nat} {sneg : Bool} {n d : Nat} (hS : f32 S = .fin sneg n d) :
    rat (nq4Value c q S) = (nq4Code c : ℚ) / 128 * ((q : ℚ) / 255) * rat (f32 S) := by
  have hnum := signedNum_bne sneg (nq4Code c) (q * n)
  unfold f32 at hS ⊢
  rw [nq4Value, hS]
  simp only [rat, Nat.mul_assoc, hnum]
  cases sneg <;> simp only [signedNum, if_true, Bool.false_eq_true, if_false] <;> push_cast <;> field_simp

theorem isFin_nq4Value {c q S : Nat} {sneg : Bool} {n d : Nat} (hS : f32 S = .fin sneg n d) : (nq4Value c q S).isFin = true := by
  unfold f32 at hS
  rw [nq4Value, hS]
  rfl

theorem proper_nq4Value {c q S : Nat} {sneg : Bool} {n d : Nat} (hS : f32 S = .fin sneg n d) : proper (nq4Value c q S) := by
  have hd : proper (f32 S) := proper_val ..
  rw [hS] at hd
  unfold f32 at hS
  rw [nq4Value, hS]
  exact Nat.mul_pos (by norm_num) hd

theorem nq4Scale_zero (l : List XR) (sneg : Bool) (d : Nat) : nq4Scale l sneg 0 d = 0 := by
  unfold nq4Scale nq4Block
  split <;> rfl

/-- Elements, codes and scales of a superblock, read at their places. -/
theorem forall_superblock (xs : List XR) (code scale : Nat → Nat) (p : Nat → Nat → Nat → XR → Prop) :
    (∀ (i c q : Nat) (x : XR), xs[i]? = some x → ((List.range xs.length).map code)[i]? = some c →
      ((List.range (ceilDiv xs.length 64)).map scale)[i / 64]? = some q → p i c q x) ↔
    ∀ i < xs.length, p i (code i) (scale (i / 64)) (xs.getD i .nan) := by
  have hblock : ∀ i < xs.length, i / 64 < ceilDiv xs.length 64 := fun i hi => (lt_ceilDiv (by norm_num)).2 (by omega)
  constructor
  · intro h i hi
    exact h i _ _ _ (by simp [hi]) (by simp [hi]) (by simp [hblock i hi])
  · intro h i c q x hx hc hq
    obtain ⟨hi, rfl⟩ := List.getElem?_eq_some_iff.1 hx
    have hp := h i hi
    simp only [List.getElem?_map, List.getElem?_range hi, List.getElem?_range (hblock i hi), Option.map_some, Option.some_inj] at hc hq
    rw [hc, hq, List.getD_eq_getElem _ _ hi] at hp
    exact hp

/-- NX is raised exactly where an element differs from what its code stands for. -/
theorem superFlag_eq_zero {fresh : Nat} {xs : List XR} {S : Nat} (hp : ∀ x ∈ xs, proper x) (hf : ∀ x ∈ xs, x.isFin = true) {sneg : Bool}
    {n d : Nat} (hS : f32 S = .fin sneg n d) : (if (List.range xs.length).any fun i => !(XR.eqv
        (nq4Value (superCode fresh xs sneg n d i) (nq4Scale (blockOf xs (i / 64)) sneg n d) S) (xs.getD i .nan)) then flagNX else 0) = 0 ↔
      ∀ i < xs.length, rat (xs.getD i .nan) = (nq4Code (superCode fresh xs sneg n d i) : ℚ) / 128 *
        ((nq4Scale (blockOf xs (i / 64)) sneg n d : ℚ) / 255) * rat (f32 S) := by
  have hmem : ∀ i < xs.length, xs.getD i .nan ∈ xs := fun i hi => by simp [hi]
  have heqv : ∀ i < xs.length, (XR.eqv (nq4Value (superCode fresh xs sneg n d i) (nq4Scale (blockOf xs (i / 64)) sneg n d) S)
      (xs.getD i .nan) = true ↔ rat (xs.getD i .nan) = (nq4Code (superCode fresh xs sneg n d i) : ℚ) / 128 *
        ((nq4Scale (blockOf xs (i / 64)) sneg n d : ℚ) / 255) * rat (f32 S)) := fun i hi => by
    rw [eqv_iff_rat (proper_nq4Value hS) (hp _ (hmem i hi)) (isFin_nq4Value hS) (hf _ (hmem i hi)), rat_nq4Value hS, eq_comm]
  rw [← forall₂_congr heqv]
  split
  next hany =>
    obtain ⟨i, hi, hne⟩ := List.any_eq_true.1 hany
    have hi := List.mem_range.1 hi
    exact iff_of_false (by decide) fun h => by rw [h i hi] at hne; exact absurd hne (by decide)
  next hany =>
    refine iff_of_true rfl fun i hi => ?_
    by_contra hne
    exact hany (List.any_eq_true.2 ⟨i, List.mem_range.2 hi, by rw [Bool.not_eq_true] at hne; rw [hne]; rfl⟩)

/-! ### Records (R121) -/

/-- The two bytes of codes and the scales of a record. -/
def recordCodes (codes : List Nat) : List Byte :=
  (List.range 8192).map fun i => BitVec.ofNat 8 (codes.getD (2 * i) 8 + 16 * codes.getD (2 * i + 1) 8)
def recordScales (qs : List Nat) : List Byte := (List.range 256).map fun b => BitVec.ofNat 8 (qs.getD b 0)

theorem nq4Record_eq {codes qs : List Nat} (hc : codes.length ≤ 16384) (hq : qs.length ≤ 256) (S : Nat) :
    nq4Record codes qs S = recordCodes codes ++ recordScales qs ++ leBytes 4 S ++ leBytes 60 0 := by
  have hcut := chunksOf_map_range (fun i => codes.getD i 8) (n := 2) (m := 16384) (by norm_num) (by norm_num)
  rw [ceilDiv_of_mod_eq_zero (by norm_num) (by norm_num), show 16384 / 2 = 8192 by norm_num] at hcut
  have hpair : ∀ q, BitVec.ofNat 8 ((((List.range 2).map fun i => codes.getD (q * 2 + i) 8).getD 0 8) +
      16 * (((List.range 2).map fun i => codes.getD (q * 2 + i) 8).getD 1 8)) =
      BitVec.ofNat 8 (codes.getD (2 * q) 8 + 16 * codes.getD (2 * q + 1) 8) := fun q => by
    rw [getD_map_range _ (by norm_num), getD_map_range _ (by norm_num), Nat.mul_comm q 2, Nat.add_zero]
  simp only [nq4Record, append_replicate_eq hc, append_replicate_eq hq, hcut, List.map_map, recordCodes, recordScales, Function.comp_def, hpair]

theorem record_spec (codes qs : List Nat) (S : Nat) (hc : codes.length ≤ 16384) (hq : qs.length ≤ 256) : (nq4Record codes qs S).length = 8512 ∧
    (∀ i < 8192, (nq4Record codes qs S)[i]? = some (BitVec.ofNat 8 (codes.getD (2 * i) 8 + 16 * codes.getD (2 * i + 1) 8))) ∧
    (∀ b < 256, (nq4Record codes qs S)[8192 + b]? = some (BitVec.ofNat 8 (qs.getD b 0))) ∧
    ((nq4Record codes qs S).drop 8448).take 4 = leBytes 4 S ∧ leVal ((nq4Record codes qs S).drop 8452) = 0 := by
  have h1 : (recordCodes codes).length = 8192 := by simp [recordCodes]
  have h2 : (recordScales qs).length = 256 := by simp [recordScales]
  rw [nq4Record_eq hc hq]
  refine ⟨by simp [h1, h2], fun i hi => ?_, fun b hb => ?_, ?_, ?_⟩
  · rw [List.append_assoc, List.append_assoc, List.getElem?_append_left (by omega)]
    simp [recordCodes, hi]
  · rw [List.append_assoc, List.append_assoc, List.getElem?_append_right (by omega), h1, Nat.add_sub_cancel_left,
      List.getElem?_append_left (by omega)]
    simp [recordScales, hb]
  · rw [List.append_assoc, List.drop_left' (by simp [h1, h2]), List.take_left' (leBytes_length ..)]
  · rw [List.drop_left' (by simp [h1, h2]), leVal_leBytes, Nat.zero_mod]

theorem narrowedGroups : NarrowedGroups := by
  refine ⟨fun ys r hp hr => ?_, superscale_spec, fun fresh xs S codes qs S' fl hp hr => ⟨fun hbad => ?_, fun hfin h0 hf => ?_⟩, record_spec⟩
  · subst hr
    refine ⟨narrowI8_nan, narrowI8_zero, narrowI8_inf, fun E u hf hE hu => ?_⟩
    have hne := exists_nonzero_of_topExp hp hf hE
    rw [narrowI8_finite hf hne (u := u) (by rw [(topExp_iff_maxAbs hp hf hne).1 hE, hu])]
    refine ⟨fun h => if_pos h, fun h => ?_⟩
    rw [if_neg (not_lt.2 h)]
    refine ⟨rfl, rfl, fun hex => if_pos ?_, fun hall => if_neg ?_⟩
    · simpa using hex
    · simpa using hall
  · rw [nq4Superblock_invalid fresh hbad] at hr
    obtain ⟨rfl, rfl, rfl, rfl⟩ : _ ∧ _ ∧ _ ∧ _ := by simpa only [Prod.mk.injEq] using hr
    exact ⟨by simp, fun q hq => List.eq_of_mem_replicate hq, rfl, rfl⟩
  · obtain ⟨sneg, n, d, hS⟩ := isFin_iff.1 hfin
    have hd : proper (f32 S) := proper_val ..
    have hmem : ∀ i < xs.length, xs.getD i .nan ∈ xs := fun i hi => by simp [hi]
    rw [nq4Superblock_finite fresh hp hf hS] at hr
    obtain ⟨rfl, rfl, rfl, rfl⟩ : _ ∧ _ ∧ _ ∧ _ := by simpa only [Prod.mk.injEq] using hr
    rw [forall_superblock, forall_superblock]
    rw [hS] at hd h0 ⊢
    refine ⟨rfl, by simp, fun b a hb ha => ?_, fun i hi => ?_, by split <;> simp, ?_⟩
    · rw [List.getElem?_map, List.getElem?_range ((lt_ceilDiv (by norm_num)).2 hb), Option.map_some,
        nq4Scale_eq (fun x hx => hp x (mem_of_mem_blockOf hx)) (fun x hx => hf x (mem_of_mem_blockOf hx)) hd h0 ha]
    · exact nq4CodeAt_spec fresh _ (hp _ (hmem i hi)) (hf _ (hmem i hi)) hd h0 (fun hq hn => hq (by rw [hn, nq4Scale_zero])) rfl
    · exact (superFlag_eq_zero hp hf hS).trans (by rw [hS])

end Sys2Proof.Spec
end

section
/-! SUPPORT. What `rot`, `irot`, `acc.ld` and `acc.st` write (R132, R245, R246, R250, R251). -/

namespace Sys2Proof.Spec

open Sys2Proof.Machine

/-! ### The writes of a row -/

theorem mem_put {m : TMap} {c : List Nat} {v : Nat} {p : MemWrite} : p ∈ m.put c v ↔ placed m c v p := by
  unfold TMap.put placed
  split <;> simp_all

theorem mem_putRow {m : TMap} {o : Nat} {tail : List Nat} {n : Nat} {v : Nat → Nat} {p : MemWrite} :
    p ∈ putRow m o tail ((List.range n).map v) ↔ ∃ k < n, placed m ((o + k) :: tail) (v k) p := by
  simp [putRow, mem_put]

theorem mem_putPlain {m : TMap} {f : Fmt} (hf : m.fmt.float = some f) {o : Nat} {tail : List Nat} {n : Nat} {v : Nat → XR} {p : MemWrite} :
    p ∈ (putPlain m o tail ((List.range n).map v)).1 ↔ ∃ k < n, placed m ((o + k) :: tail) (bitsIn f (v k)) p := by
  simp only [putPlain, hf, List.map_map]
  exact mem_putRow

theorem mem_putRotated_float {m sc : TMap} {f : Fmt} (hf : m.fmt.float = some f) {o : Nat} {tail : List Nat} {b : Nat} {group : Bool}
    {n : Nat} {v : Nat → XR} {p : MemWrite} : p ∈ (putRotated m sc o tail b group ((List.range n).map v)).1 ↔
      ∃ k < n, placed m ((o + k) :: tail) (floatBits f (v k)) p := by
  simp only [putRotated, hf, deliverFloat, List.map_map]
  exact mem_putRow

theorem deliverI8_eq {n g : Nat} (hg : 0 < g) (hn : n % g = 0) (v : Nat → XR) :
    (deliverI8 ((List.range n).map v) g).1 = (List.range n).map (fun k =>
      ((narrowI8 ((List.range g).map fun i => v (k / g * g + i))).1.getD (k % g) 0 % 256).toNat) ∧
    (deliverI8 ((List.range n).map v) g).2.1 = (List.range (n / g)).map fun q => (narrowI8 ((List.range g).map fun i => v (q * g + i))).2.1 := by
  have hlen : ∀ q < n / g, (((narrowI8 ((List.range g).map fun i => v (q * g + i))).1).map fun c => (c % 256).toNat).length = g :=
    fun q _ => by rw [List.length_map, length_narrowI8, List.length_map, List.length_range]
  simp only [deliverI8, List.length_map, List.length_range, chunksOf_map_range v hg hn, List.flatMap_map, List.map_map,
    Function.comp_def]
  refine ⟨?_, trivial⟩
  rw [flatMap_range_blocks hlen 0, Nat.div_mul_cancel (Nat.dvd_of_mod_eq_zero hn)]
  refine List.map_congr_left fun k _ => ?_
  simp only [List.getD_eq_getElem?_getD, List.getElem?_map]
  cases (narrowI8 ((List.range g).map fun i => v (k / g * g + i))).1[k % g]? <;> rfl

/-- A rotated row delivered as INT8: each scale group's codes and its scale. -/
theorem mem_putRotated_codes {m sc : TMap} (hm : m.fmt = .i8) {o : Nat} {tail : List Nat} {b : Nat} {group : Bool} {n g : Nat}
    (hgr : g = if group = true then n else b) (hg : 0 < g) (hn : n % g = 0) {v : Nat → XR} {p : MemWrite} :
    p ∈ (putRotated m sc o tail b group ((List.range n).map v)).1 ↔ ∃ q < n / g, ∃ r, r = narrowI8 ((List.range g).map fun i => v (q * g + i)) ∧
      ((∃ i < g, placed m ((o + (q * g + i)) :: tail) (r.1.getD i 0 % 256).toNat p) ∨
        placed sc ((if group = true then 0 else o / b + q) :: tail) r.2.1 p) := by
  have hf : m.fmt.float = none := by rw [hm]; rfl
  obtain ⟨hcodes, hscales⟩ := deliverI8_eq hg hn v
  have hcoord : ∀ q < n / g, (if group = true then 0 else o / b) + q = if group = true then 0 else o / b + q := fun q hq => by
    cases group with
    | false => rfl
    | true =>
      rw [if_pos rfl] at hgr
      rw [← hgr, Nat.div_self hg] at hq
      simpa using hq
  simp only [putRotated, hf, List.length_map, List.length_range, ← hgr, hcodes, hscales, List.mem_append, mem_putRow,
    exists_lt_blocks hg hn, exists_eq_left]
  constructor
  · rintro (⟨q, hq, i, hi, hp⟩ | ⟨q, hq, hp⟩)
    · refine ⟨q, hq, .inl ⟨i, hi, ?_⟩⟩
      rwa [Nat.mul_comm q g, Nat.mul_add_div hg, Nat.mul_add_mod, Nat.div_eq_of_lt hi, Nat.mod_eq_of_lt hi, Nat.add_zero, Nat.mul_comm g q] at hp
    · exact ⟨q, hq, .inr (hcoord q hq ▸ hp)⟩
  · rintro ⟨q, hq, ⟨i, hi, hp⟩ | hp⟩
    · refine .inl ⟨q, hq, i, hi, ?_⟩
      rwa [Nat.mul_comm q g, Nat.mul_add_div hg, Nat.mul_add_mod, Nat.div_eq_of_lt hi, Nat.mod_eq_of_lt hi, Nat.add_zero, Nat.mul_comm g q]
    · exact .inr ⟨q, hq, (hcoord q hq).symm ▸ hp⟩

theorem blkSize_pos (c : Nat) : 0 < blkSize c := by
  unfold blkSize
  split <;> norm_num

/-! ### `rot` and `irot` (R245, R246) -/

theorem rotSource_rot {s : State} {t : Team} {x : Tensor} (h : x.kind = .rot) (n : Nat) (tail : List Nat) : rotSource s t x n tail =
    fun e => s.elemVal t x.pages (x.map 0) (((rotSorg x).getD 0 0 + e) :: tailAt (rotSorg x) tail) := by
  funext e
  simp only [rotSource, h]

theorem rotSource_irot {s : State} {t : Team} {x : Tensor} (h : x.kind = .irot) (n : Nat) (tail : List Nat) : rotSource s t x n tail =
    fun e => (irotValue s t x n (((rotSorg x).getD 0 0 + e) :: tailAt (rotSorg x) tail)).1 := by
  funext e
  cases hf : (x.map 0).fmt <;> simp only [rotSource, irotValue, h, hf] <;> rfl

/-- The rows that `rot` rotates, and those that `irot` does. -/
def rotRow (s : State) (t : Team) (x : Tensor) (tail : List Nat) : Nat → XR :=
  rotated true (rotSource s t x (blkSize (rotBlk (x.nat 3 1))) tail) (blkSize (rotBlk (x.nat 3 1)))
    ((rotDorg x).getD 0 0 / blkSize (rotBlk (x.nat 3 1))) (x.seed (rotSeed (x.nat 3 1))) 24
def irotRow (s : State) (t : Team) (x : Tensor) (tail : List Nat) : Nat → XR :=
  rotated false (rotSource s t x (blkSize (tagBlk (x.map 0).tag)) tail) (blkSize (tagBlk (x.map 0).tag))
    ((rotSorg x).getD 0 0 / blkSize (tagBlk (x.map 0).tag)) (x.seed (tagSlot (x.map 0).tag)) (if (x.map 1).fmt = .f64 then 48 else 24)

theorem rotEffect_plain {s : State} {t : Team} {x : Tensor} (hk : x.kind = .rot) (hc : rotBlk (x.nat 3 1) = 0) :
    (rotEffect s t x).mem = (rowTails (rotBox x) (x.map 0).rank).flatMap fun tail => (putPlain (x.map 1) ((rotDorg x).getD 0 0)
      (tailAt (rotDorg x) tail) ((List.range ((rotBox x).getD 0 0)).map (rotSource s t x (blkSize (rotBlk (x.nat 3 1))) tail))).1 := by
  simp only [rotEffect, if_pos hc, List.flatMap_map, List.map_map, rotSource_rot hk, Function.comp_def]

theorem rotEffect_rows {s : State} {t : Team} {x : Tensor} (hk : x.kind = .rot) (hc : rotBlk (x.nat 3 1) ≠ 0) (hq : (x.map 1).fmt ≠ .nq4)
    (hb : (rotBox x).getD 0 0 % blkSize (rotBlk (x.nat 3 1)) = 0) :
    (rotEffect s t x).mem = (rowTails (rotBox x) (x.map 0).rank).flatMap fun tail => (putRotated (x.map 1) (x.map 2) ((rotDorg x).getD 0 0)
      (tailAt (rotDorg x) tail) (blkSize (rotBlk (x.nat 3 1))) (rotGroup (x.nat 3 1))
      ((List.range ((rotBox x).getD 0 0)).map (rotRow s t x tail))).1 := by
  simp only [rotEffect, if_neg hc, if_neg hq, List.flatMap_map, List.map_map, Function.comp_def, rotRow, rotSource_rot hk,
    ← rotateRow_values true _ (blkSize_pos _) hb]

theorem rotEffect_records {s : State} {t : Team} {x : Tensor} (hk : x.kind = .rot) (hc : rotBlk (x.nat 3 1) ≠ 0) (hq : (x.map 1).fmt = .nq4)
    (hb : (rotBox x).getD 0 0 % blkSize (rotBlk (x.nat 3 1)) = 0) :
    (rotEffect s t x).mem = (nq4Writes s.fresh (x.map 1) ((rowTails (rotBox x) (x.map 0).rank).flatMap fun tail =>
      (List.range ((rotBox x).getD 0 0)).map (rotRow s t x tail))).1 := by
  simp only [rotEffect, if_neg hc, if_pos hq, List.flatMap_map, List.map_map, Function.comp_def, rotRow, rotSource_rot hk,
    ← rotateRow_values true _ (blkSize_pos _) hb]

theorem irotEffect_rows {s : State} {t : Team} {x : Tensor} (hk : x.kind = .irot) (hb : (rotBox x).getD 0 0 % blkSize (tagBlk (x.map 0).tag) = 0) :
    (irotEffect s t x).mem = (rowTails (rotBox x) (x.map 0).rank).flatMap fun tail => (putRotated (x.map 1) default ((rotDorg x).getD 0 0)
      (tailAt (rotDorg x) tail) (blkSize (tagBlk (x.map 0).tag)) false ((List.range ((rotBox x).getD 0 0)).map (irotRow s t x tail))).1 := by
  simp only [irotEffect, List.flatMap_map, List.map_map, Function.comp_def, irotRow, rotSource_irot hk,
    ← rotateRow_values false _ (blkSize_pos _) hb]

/-- The records of a whole NQ4 tensor. -/
theorem mem_nq4Writes {fresh : Nat} {m : TMap} {ys : List XR} {p : MemWrite} : p ∈ (nq4Writes fresh m ys).1 ↔
    ∃ k, 16384 * k < ys.length ∧ ∃ xs r, xs = (ys.drop (16384 * k)).take 16384 ∧
      r = nq4Superblock (fresh + 16384 * k) xs (nq4Superscale xs) ∧ p = (m.scratch, m.base + 8512 * k, nq4Record r.1 r.2.1 r.2.2.1) := by
  simp only [nq4Writes, chunksOf_eq, List.length_map, List.length_range, map_range_zip_range, List.map_map, List.mem_map, List.mem_range,
    lt_ceilDiv (by norm_num : 0 < 16384), exists_and_left, exists_eq_left, Function.comp_apply]
  exact exists_congr fun k => and_congr_right fun _ => eq_comm

theorem tensorEffect_rot {s : State} {o : Op} {t : Team} {x : Tensor} {k : Option Nat} (h : x.kind = .rot) :
    tensorEffect s o t x k = rotEffect s t x := by simp only [tensorEffect, h]
theorem tensorEffect_irot {s : State} {o : Op} {t : Team} {x : Tensor} {k : Option Nat} (h : x.kind = .irot) :
    tensorEffect s o t x k = irotEffect s t x := by simp only [tensorEffect, h]

theorem rotationResults : RotationResults := by
  rintro s o t x e src dst c n d0 b0 row at' hk rfl rfl rfl rfl rfl rfl hb rfl rfl rfl
  rcases hk with hk | hk
  · simp only [hk, if_true] at hb ⊢
    rw [tensorEffect_rot hk]
    refine ⟨fun f hf _ hc p => ?_, fun f hf hc p => ?_, fun g _ hc hi8 h0 hg p => ?_, fun ys _ hc hq hys p => ?_⟩
    · simp only [rotEffect_plain hk hc, List.mem_flatMap, mem_putPlain hf]
    · have hq : (x.map 1).fmt ≠ .nq4 := fun h => by rw [h] at hf; cases hf
      simp only [rotEffect_rows hk hc hq hb, List.mem_flatMap, mem_putRotated_float hf]
      rfl
    · have hq : (x.map 1).fmt ≠ .nq4 := fun h => by rw [h] at hi8; cases hi8
      have hg0 : 0 < g := by rw [hg]; split; exacts [h0, blkSize_pos _]
      have hdvd : (rotBox x).getD 0 0 % g = 0 := by rw [hg]; split; exacts [Nat.mod_self _, hb]
      simp only [rotEffect_rows hk hc hq hb, List.mem_flatMap, mem_putRotated_codes hi8 hg hg0 hdvd]
      rfl
    · rw [rotEffect_records hk hc hq hb, mem_nq4Writes, hys]
      rfl
  · simp only [hk, reduceCtorEq, if_false, false_imp_iff, implies_true, and_true, true_and] at hb ⊢
    intro f hf hc p
    rw [tensorEffect_irot hk, irotEffect_rows hk hb]
    simp only [List.mem_flatMap, mem_putRotated_float hf]
    rfl

end Sys2Proof.Spec
end

section
/-! SUPPORT. What `acc.ld` and `acc.st` move between tiles and maps (R250, R251). -/

namespace Sys2Proof.Spec

open Sys2Proof.Machine

/-! ### `acc.ld` (R250) -/

/-- The elements that `acc.ld` writes. -/
theorem mem_accLd {s : State} {o : Op} {t : Team} {x : Tensor} (hk : x.kind = .accLd) {q : Nat × Nat × DWord} :
    q ∈ (tensorEffect s o t x none).tiles ↔
      ∃ p < accCount x, q = (x.nat 1 1 + p / 4096, p % 4096, (accElem s t x (accCoord x p)).1) := by
  have he : tensorEffect s o t x none = accLdEffect s t x := by simp only [tensorEffect, hk]
  simp only [he, accLdEffect, List.map_map, List.mem_map, List.mem_range, Function.comp_apply, stripAt, eq_comm]

/-! ### `acc.st` (R251) -/

theorem accStVal_eq (s : State) (t : Team) (x : Tensor) (p : Nat) : (accStVal s t x (x.kinds.headD false) p).1 = storedVal s t x p := by
  have hscale : ∀ k i, (scaleAt s t x k i).1 = if x.has k = true then f32 (s.elemBits t x.pages (x.map k) [i, 0, 0, 0, 0]) else .fin false 1 1 :=
    fun k i => by unfold scaleAt; split <;> rfl
  simp only [accStVal, scaleBy, hscale, storedVal, stripAt]
  rfl

/-- The number of values in row `r` of a strip. -/
def rowCount (x : Tensor) (r : Nat) : Nat := min (accLen x) (accCount x - accLen x * r)

/-- A row of a strip, rotated. -/
def storedRow (s : State) (t : Team) (x : Tensor) (r : Nat) : Nat → XR :=
  rotated true (fun i => storedVal s t x (accLen x * r + i)) (blkSize (rotBlk (x.nat 3 1))) (accOrg0 x / blkSize (rotBlk (x.nat 3 1)))
    (x.seed (rotSeed (x.nat 3 1))) (if (x.map 0).fmt = .f64 then 48 else 24)

theorem strip_rows (s : State) (t : Team) (x : Tensor) :
    chunksOf (accLen x) (accRows x) ((List.range (accCount x)).map (accStVal s t x (x.kinds.headD false))) =
      (List.range (accRows x)).map fun r => (List.range (rowCount x r)).map fun i => accStVal s t x (x.kinds.headD false) (accLen x * r + i) := by
  have h := chunksOf_eq (accLen x) ((List.range (accCount x)).map (accStVal s t x (x.kinds.headD false)))
  simp only [List.length_map, List.length_range, drop_take_map_range] at h
  exact h

theorem accStEffect_plain {s : State} {t : Team} {x : Tensor} (hi : ¬ ((x.map 0).fmt = .i64 ∨ (x.map 0).fmt = .i32))
    (hc : rotBlk (x.nat 3 1) = 0) : (accStEffect s t x).mem = (List.range (accRows x)).flatMap fun r =>
      (putPlain (x.map 0) (accOrg0 x) [accOrg1 x + r, 0, 0, 0] ((List.range (rowCount x r)).map fun i => storedVal s t x (accLen x * r + i))).1 := by
  simp only [accStEffect, if_neg hi, if_pos hc, strip_rows, List.length_map, List.length_range, map_range_zip_range, List.flatMap_map,
    List.map_map, Function.comp_def, accStVal_eq]

theorem rowCount_mod {x : Tensor} {n : Nat} (hl : accLen x % n = 0) (hc : accCount x % n = 0) (r : Nat) : rowCount x r % n = 0 := by
  unfold rowCount
  rcases min_choice (accLen x) (accCount x - accLen x * r) with h | h <;> rw [h]
  · exact hl
  · exact Nat.mod_eq_zero_of_dvd (Nat.dvd_sub (Nat.dvd_of_mod_eq_zero hc) (dvd_mul_of_dvd_left (Nat.dvd_of_mod_eq_zero hl) r))

theorem accStEffect_rows {s : State} {t : Team} {x : Tensor} (hi : ¬ ((x.map 0).fmt = .i64 ∨ (x.map 0).fmt = .i32))
    (hc : rotBlk (x.nat 3 1) ≠ 0) (hl : accLen x % blkSize (rotBlk (x.nat 3 1)) = 0) (hn : accCount x % blkSize (rotBlk (x.nat 3 1)) = 0) :
    (accStEffect s t x).mem = (List.range (accRows x)).flatMap fun r => (putRotated (x.map 0) (x.map 1) (accOrg0 x) [accOrg1 x + r, 0, 0, 0]
      (blkSize (rotBlk (x.nat 3 1))) (rotGroup (x.nat 3 1)) ((List.range (rowCount x r)).map (storedRow s t x r))).1 := by
  simp only [accStEffect, if_neg hi, if_neg hc, strip_rows, List.length_map, List.length_range, map_range_zip_range, List.flatMap_map,
    List.map_map, Function.comp_def, accStVal_eq, rotateRow_values true _ (blkSize_pos _) (rowCount_mod hl hn _), storedRow]

theorem tileTransferResults : TileTransferResults := by
  refine ⟨fun s o t x q hk => ?_, fun s o t x e m hk he hm hlen => ?_⟩
  · rw [mem_accLd hk]
    simp only [exists_and_left, exists_eq_left]
    refine exists_congr fun p => and_congr_right fun _ => ?_
    cases hf : (x.map 0).fmt <;> simp only [accElem, hf] <;> rfl
  have hst : e = accStEffect s t x := by rw [← he]; simp only [tensorEffect, hk]
  subst hst hm
  have hfloat : ∀ f, (x.map 0).fmt.float = some f → ¬ ((x.map 0).fmt = .i64 ∨ (x.map 0).fmt = .i32) := fun f hf h => by
    rcases h with h | h <;> rw [h] at hf <;> cases hf
  refine ⟨fun hi w => ?_, fun f hf hc w => ?_, ?_⟩
  · simp only [accStEffect, if_pos hi, List.mem_flatMap, List.mem_range, mem_put, stripAt, exists_eq_left]
  · simp only [accStEffect_plain (hfloat f hf) hc, List.mem_flatMap, List.mem_range, mem_putPlain hf]
    refine (exists_lt_pieces hlen (accCount x) _).trans ?_
    simp only [Nat.div_add_mod]
    rfl
  rintro n row W hc rfl hl hn rfl rfl
  refine ⟨fun f hf w => ?_, fun h8 w => ?_⟩
  · simp only [accStEffect_rows (hfloat f hf) hc hl hn, List.mem_flatMap, List.mem_range, mem_putRotated_float hf]
    refine (exists_lt_pieces hlen (accCount x) _).trans ?_
    simp only [storedRow, Nat.mul_comm (accLen x)]
    rfl
  · have hi : ¬ ((x.map 0).fmt = .i64 ∨ (x.map 0).fmt = .i32) := by rw [h8]; decide
    rw [accStEffect_rows hi hc hl hn]
    simp only [List.mem_flatMap, List.mem_range]
    refine exists_congr fun r => ?_
    rw [show r < accRows x ↔ r * accLen x < accCount x by rw [Nat.mul_comm]; exact lt_ceilDiv hlen]
    refine and_congr_right fun hr => ?_
    have hg0 : 0 < if rotGroup (x.nat 3 1) = true then rowCount x r else blkSize (rotBlk (x.nat 3 1)) := by
      split
      · rw [rowCount, Nat.mul_comm]; omega
      · exact blkSize_pos _
    have hdvd : rowCount x r % (if rotGroup (x.nat 3 1) = true then rowCount x r else blkSize (rotBlk (x.nat 3 1))) = 0 := by
      split
      exacts [Nat.mod_self _, rowCount_mod hl hn r]
    refine (mem_putRotated_codes h8 rfl hg0 hdvd).trans ?_
    simp only [storedRow, rowCount, Nat.mul_comm (accLen x)]
    constructor
    · exact fun h => ⟨_, _, rfl, rfl, h⟩
    · rintro ⟨_, _, rfl, rfl, h⟩
      exact h

end Sys2Proof.Spec
end

section
/-! SUPPORT. The sums of the matrix unit (R124, R126, R127). -/

namespace Sys2Proof.Spec

open Sys2Proof.Machine

/-! ### `chunk_sum` (R124) -/

theorem val_add64 (a b : Nat) : fp64.val false (add64 a b).1 = rnd fp64 (plus (fp64.val false a) (fp64.val false b)) := rfl

/-- The tree read from its leaves. -/
theorem chunk_succ (n : Nat) (p : Nat → XR) : chunk (n + 1) p = chunk n fun i => rnd fp64 (plus (p (2 * i)) (p (2 * i + 1))) := by
  induction n generalizing p with
  | zero => rfl
  | succ n ih =>
    rw [chunk, ih, ih]
    conv_rhs => rw [chunk]
    simp only [Nat.mul_add, pow_succ, Nat.mul_comm (2 ^ n) 2, Nat.add_right_comm]

theorem length_chunkLevel {m : Nat} {l : List Nat} (h : l.length = 2 * m) : (chunkLevel l).1.length = m := by
  induction m generalizing l with
  | zero => rw [List.eq_nil_of_length_eq_zero h]; rfl
  | succ m ih =>
    obtain ⟨a, r, rfl⟩ := List.exists_cons_of_length_pos (show 0 < l.length by omega)
    obtain ⟨b, r, rfl⟩ := List.exists_cons_of_length_pos (show 0 < r.length by simp at h; omega)
    simp [chunkLevel, ih (show r.length = 2 * m by simp at h; omega)]

theorem getD_chunkLevel {m : Nat} {l : List Nat} (h : l.length = 2 * m) {i : Nat} (hi : i < m) :
    (chunkLevel l).1.getD i 0 = (add64 (l.getD (2 * i) 0) (l.getD (2 * i + 1) 0)).1 := by
  induction m generalizing l i with
  | zero => omega
  | succ m ih =>
    obtain ⟨a, r, rfl⟩ := List.exists_cons_of_length_pos (show 0 < l.length by omega)
    obtain ⟨b, r, rfl⟩ := List.exists_cons_of_length_pos (show 0 < r.length by simp at h; omega)
    cases i with
    | zero => rfl
    | succ i => exact ih (show r.length = 2 * m by simp at h; omega) (by omega)

theorem chunk_congr {n : Nat} {p q : Nat → XR} (h : ∀ i < 2 ^ n, p i = q i) : chunk n p = chunk n q := by
  induction n generalizing p q with
  | zero => exact h 0 Nat.one_pos
  | succ n ih =>
    rw [chunk, chunk, ih fun i hi => h i (by rw [pow_succ]; omega), ih fun i hi => h _ (by rw [pow_succ]; omega)]

theorem val_chunkLevels {n : Nat} {l : List Nat} (h : l.length = 2 ^ n) :
    fp64.val false (chunkLevels n l).1 = chunk n fun i => fp64.val false (l.getD i 0) := by
  induction n generalizing l with
  | zero =>
    obtain ⟨a, rfl⟩ := List.length_eq_one_iff.1 h
    rfl
  | succ n ih =>
    have h2 : l.length = 2 * 2 ^ n := by rw [h, pow_succ, Nat.mul_comm]
    rw [chunk_succ, chunkLevels, ih (length_chunkLevel h2)]
    exact chunk_congr fun i hi => by rw [getD_chunkLevel h2 hi, val_add64]

/-- A chunk of up to 32 products. -/
theorem val_chunkSum {m : Nat} (hm : m ≤ 32) (p : Nat → Nat) : fp64.val false (chunkSum ((List.range m).map p)).1 =
    chunk 5 fun i => if i < m then fp64.val false (p i) else fp64.val false 0 := by
  have hlen : ((List.range m).map p ++ List.replicate (32 - ((List.range m).map p).length) 0).length = 2 ^ 5 := by simp; omega
  rw [chunkSum, val_chunkLevels hlen, append_replicate_eq (by simpa using hm)]
  refine chunk_congr fun i hi => ?_
  rw [getD_map_range _ (show i < 32 from hi)]
  split
  next h => rw [getD_map_range _ h]
  next h => rw [List.getD_eq_default _ _ (by simpa using h)]

/-! ### Accumulation -/

theorem val_accumulate (acc : Nat) (terms : List (Nat × Flags)) : fp64.val false (accumulate acc terms).1 =
    terms.foldl (fun a t => rnd fp64 (plus a (fp64.val false t.1))) (fp64.val false acc) := by
  have hfold : ∀ (l : List (Nat × Flags)) (a : Nat × Flags),
      fp64.val false (l.foldl (fun a t => let r := add64 a.1 t.1; (r.1, a.2 ||| t.2 ||| r.2)) a).1 =
        l.foldl (fun a t => rnd fp64 (plus a (fp64.val false t.1))) (fp64.val false a.1) := by
    intro l
    induction l with
    | nil => exact fun _ => rfl
    | cons t l ih => exact fun a => ih _
  exact hfold terms (acc, 0)

/-- A sum that is a NaN is the canonical one. -/
theorem accumulate_eq_qnan {acc : Nat} {terms : List (Nat × Flags)} (hne : terms ≠ [])
    (h : fp64.val false (accumulate acc terms).1 = .nan) : (accumulate acc terms).1 = fp64.qnan := by
  obtain ⟨l, t, rfl⟩ := (List.eq_nil_or_concat terms).resolve_left hne
  rw [List.concat_eq_append, accumulate, List.foldl_append] at h ⊢
  exact round_eq_qnan h

/-! ### Products and slices (R124, R126) -/

theorem val_mulBf (a b : Nat) : fp64.val false (mulBf a b).1 = product (bf a) (bf b) := rfl

theorem val_round_add_sign (v : XR) (neg : Bool) :
    bf ((v.abs.round Machine.bf16 .rtz false).1 + if neg = true then Machine.bf16.sign else 0) =
      if neg = true then (bf (v.abs.round Machine.bf16 .rtz false).1).neg else bf (v.abs.round Machine.bf16 .rtz false).1 := by
  cases neg
  · rfl
  · exact Fmt.val_add_sign (round_abs_lt (by decide) .rtz v)

theorem val_slices {a : Nat} (hf : (f32 a).isFin = true) {i : Nat} (hi : i < 3) : bf ((slices a).getD i 0) = slice (f32 a) i := by
  have hneg : ∀ {neg n d}, f32 a = .fin neg n d → fp32.neg a = neg := fun {neg n d} h => by
    have hfin : a % fp32.sign < fp32.inf := by
      rcases lt_trichotomy (a % fp32.sign) fp32.inf with hlt | heq | hgt
      · exact hlt
      · rw [f32, Fmt.val_inf heq] at h; cases h
      · rw [f32, Fmt.val_nan hgt] at h; cases h
    obtain ⟨M, q, -, hv⟩ := Fmt.val_finite hfin
    rw [f32, hv] at h
    cases h
    rfl
  obtain ⟨neg, n, d, hx⟩ := isFin_iff.1 hf
  have hs := hneg hx
  rw [hx]
  unfold f32 at hx
  simp only [slices, hs, hx]
  interval_cases i
  · exact (val_round_add_sign (.fin neg n d) neg).trans (by cases neg <;> rfl)
  · exact (val_round_add_sign (minus (XR.fin neg n d).abs _) neg).trans (by cases neg <;> rfl)
  · exact (val_round_add_sign (minus (minus (XR.fin neg n d).abs _) _) neg).trans (by cases neg <;> rfl)

theorem val_passProduct {p : Nat × Nat} (hp : p ∈ passOrder) (a b : Nat) :
    fp64.val false (passProduct p a b).1 = passOf p (f32 a) (f32 b) := by
  have hsmall : p.1 < 3 ∧ p.2 < 3 := by revert p; decide
  unfold passProduct passOf
  by_cases hfin : (f32 a).isFin = true ∧ (f32 b).isFin = true
  · rw [if_neg, if_pos hfin, val_mulBf, val_slices hfin.1 hsmall.1, val_slices hfin.2 hsmall.2]
    simpa [f32] using hfin
  · rw [if_pos, if_neg hfin]
    · split <;> rfl
    · rw [not_and_or] at hfin
      simpa [f32] using hfin

/-! ### Terms of an element (R124, R127) -/

/-- The pairs of chunk `q` of a row and a column. -/
def chunkPairs (K : Nat) (ab : Nat → Nat × Nat) (q : Nat) : List (Nat × Nat) := (List.range (min 32 (K - 32 * q))).map fun i => ab (32 * q + i)

/-- One chunk's sum of products. -/
def termOf (g : Nat × Nat → Nat × Flags) (c : List (Nat × Nat)) : Nat × Flags :=
  ((chunkSum ((c.map g).map (·.1))).1, (chunkSum ((c.map g).map (·.1))).2 ||| orFlags ((c.map g).map (·.2)))

/-- The terms of chunk `q`: one for BF16, one a pass for FP32. -/
def chunkTerms (ty K : Nat) (ab : Nat → Nat × Nat) (q : Nat) : List (Nat × Flags) :=
  if ty = 2 ∨ ty = 3 then (Machine.passes (ty == 2)).map fun p => termOf (fun e => passProduct p e.1 e.2) (chunkPairs K ab q)
  else [termOf (fun e => mulBf e.1 e.2) (chunkPairs K ab q)]

theorem chunksOf_pairs (K : Nat) (ab : Nat → Nat × Nat) :
    chunksOf 32 (ceilDiv K 32) ((List.range K).map ab) = (List.range (ceilDiv K 32)).map (chunkPairs K ab) := by
  have h := chunksOf_eq 32 ((List.range K).map ab)
  simp only [List.length_map, List.length_range, drop_take_map_range] at h
  exact h

theorem val_termOf (g : Nat × Nat → Nat × Flags) (K : Nat) (ab : Nat → Nat × Nat) (q : Nat) :
    fp64.val false (termOf g (chunkPairs K ab q)).1 =
      chunk 5 fun i => if 32 * q + i < K then fp64.val false (g (ab (32 * q + i))).1 else fp64.val false 0 := by
  simp only [termOf, chunkPairs, List.map_map]
  rw [val_chunkSum (min_le_left ..)]
  refine chunk_congr fun i hi => if_congr ?_ rfl rfl
  have : 2 ^ 5 = 32 := rfl
  omega

theorem bfTerms_pairs (K : Nat) (ab : Nat → Nat × Nat) : bfTerms ((List.range K).map ab) =
    (List.range (ceilDiv K 32)).map fun q => termOf (fun e => mulBf e.1 e.2) (chunkPairs K ab q) := by
  rw [bfTerms, List.length_map, List.length_range, chunksOf_pairs, List.map_map]
  rfl

theorem fpTerms_pairs (nine : Bool) (K : Nat) (ab : Nat → Nat × Nat) : fpTerms nine ((List.range K).map ab) =
    (List.range (ceilDiv K 32)).flatMap fun q =>
      (Machine.passes nine).map fun p => termOf (fun e => passProduct p e.1 e.2) (chunkPairs K ab q) := by
  simp only [fpTerms, List.length_map, List.length_range, chunksOf_pairs, List.flatMap_map]
  rfl

theorem terms_eq (ty K : Nat) (ab : Nat → Nat × Nat) :
    (if (ty == 2 || ty == 3) = true then fpTerms (ty == 2) ((List.range K).map ab) else bfTerms ((List.range K).map ab)) =
      (List.range (ceilDiv K 32)).flatMap (chunkTerms ty K ab) := by
  have hty : (ty == 2 || ty == 3) = true ↔ ty = 2 ∨ ty = 3 := by simp
  unfold chunkTerms
  by_cases h : ty = 2 ∨ ty = 3
  · simp only [if_pos h, if_pos (hty.2 h), fpTerms_pairs]
  · simp only [if_neg h, if_neg (mt hty.1 h), bfTerms_pairs]
    rw [List.map_eq_flatMap]

theorem length_chunkTerms (ty K : Nat) (ab : Nat → Nat × Nat) (q : Nat) :
    (chunkTerms ty K ab q).length = if ty = 2 then 9 else if ty = 3 then 6 else 1 := by
  unfold chunkTerms
  by_cases h2 : ty = 2
  · simp [h2, Machine.passes]
  · by_cases h3 : ty = 3 <;> simp [h2, h3, Machine.passes]

/-- The terms of the chunks before a stop. -/
theorem take_terms {α : Type} {n : Nat} {g : Nat → List α} (hg : ∀ q, (g q).length = n) {c m : Nat} (hc : c ≤ m) :
    ((List.range m).flatMap g).take (n * c) = (List.range c).flatMap g := by
  obtain ⟨d, rfl⟩ := Nat.exists_eq_add_of_le hc
  rw [List.range_add, List.flatMap_append, List.take_left']
  simp [List.length_flatMap, hg, Nat.mul_comm]

/-- An element that is no integer sum: the chunks' terms accumulated on the earlier value. -/
theorem mulElem_eq {ty : Nat} (hty : ty ≠ 1) (acc : DWord) (K : Nat) (ab : Nat → Nat × Nat) {stop : Option Nat} {c : Nat}
    (hc : stop = none ∧ c = ceilDiv K 32 ∨ stop = some c ∧ c ≤ ceilDiv K 32) :
    (mulElem ty acc stop ((List.range K).map ab)).1 =
      BitVec.ofNat 64 (accumulate acc.toNat ((List.range c).flatMap (chunkTerms ty K ab))).1 := by
  rcases hc with ⟨rfl, rfl⟩ | ⟨rfl, hle⟩
  · simp only [mulElem, if_neg hty, terms_eq]
  · have hlen : (if ty = 2 then 9 * c else if ty = 3 then 6 * c else c) = (if ty = 2 then 9 else if ty = 3 then 6 else 1) * c := by
      split_ifs <;> simp
    simp only [mulElem, if_neg hty, terms_eq, hlen, take_terms (length_chunkTerms ty K ab) hle]

/-- The passes over a chunk. -/
theorem foldl_passes {ps : List (Nat × Nat)} (hps : ∀ p ∈ ps, p ∈ passOrder) (K : Nat) (ab : Nat → Nat × Nat) (q : Nat) (acc : XR) :
    (ps.map fun p => termOf (fun e => passProduct p e.1 e.2) (chunkPairs K ab q)).foldl (fun a t => rnd fp64 (plus a (fp64.val false t.1))) acc =
      ps.foldl (fun acc p => rnd fp64 (plus acc (chunk 5 fun i =>
        if 32 * q + i < K then passOf p (f32 (ab (32 * q + i)).1) (f32 (ab (32 * q + i)).2) else fp64.val false 0))) acc := by
  rw [List.foldl_map]
  refine List.foldl_ext _ _ _ fun a p hp => ?_
  simp only [val_termOf, val_passProduct (hps p hp)]

/-- The tile value after `c` chunks, from BF16 or FP32 operands. -/
theorem foldl_terms_bf {ty : Nat} (h2 : ty ≠ 2) (h3 : ty ≠ 3) (K : Nat) (ab : Nat → Nat × Nat) (c : Nat) (old : XR) :
    ((List.range c).flatMap (chunkTerms ty K ab)).foldl (fun a t => rnd fp64 (plus a (fp64.val false t.1))) old =
      accumulated K (fun k => product (bf (ab k).1) (bf (ab k).2)) c old := by
  simp only [List.foldl_flatMap, chunkTerms, h2, h3, or_self, if_false, List.foldl_cons, List.foldl_nil, val_termOf, val_mulBf]
  rfl

theorem foldl_terms_fp {ty : Nat} (h : ty = 2 ∨ ty = 3) (K : Nat) (ab : Nat → Nat × Nat) (c : Nat) (old : XR) :
    ((List.range c).flatMap (chunkTerms ty K ab)).foldl (fun a t => rnd fp64 (plus a (fp64.val false t.1))) old =
      accumulated32 (Machine.passes (ty == 2)) K (fun k => f32 (ab k).1) (fun k => f32 (ab k).2) c old := by
  have hps : ∀ p ∈ Machine.passes (ty == 2), p ∈ passOrder := by rcases h with rfl | rfl <;> decide
  simp only [List.foldl_flatMap, chunkTerms, if_pos h, foldl_passes hps]
  rfl

theorem chunkTerms_flatMap_ne_nil (ty K : Nat) (ab : Nat → Nat × Nat) {c : Nat} (hc : 0 < c) :
    (List.range c).flatMap (chunkTerms ty K ab) ≠ [] := by
  intro h
  have h0 := congrArg List.length (List.flatMap_eq_nil_iff.1 h 0 (List.mem_range.2 hc))
  rw [length_chunkTerms] at h0
  split_ifs at h0

/-! ### Elements of a MUL (R255, R256) -/

/-- The format of A's elements. -/
def mulFmt (x : Tensor) : Fmt := if mmaType x = 2 ∨ mmaType x = 3 then fp32 else Machine.bf16

/-- The bits of element (i, k) of A, of its map or formed from its tile, and of element (k, j) of B. -/
def bitsA (s : State) (t : Team) (x : Tensor) (i k : Nat) : Nat :=
  if mmaFlag x 1 = true then
    let v := fun k => tileVal (x.kinds.headD false) (t.tileElem (mmaATile x) (64 * i + k))
    if rotBlk (x.nat 7 1) = 0 then bitsIn (mulFmt x) (v k)
    else floatBits (mulFmt x) (rotated true v (blkSize (rotBlk (x.nat 7 1))) 0 (x.seed (rotSeed (x.nat 7 1))) 24 k)
  else s.elemBits t x.pages (x.map 0) (mmaCoord x 16 (mmaFlag x 2) k i)
def bitsB (s : State) (core : Nat) (x : Tensor) (k j : Nat) : Nat := Sparse.get 0 ((s.coreSt core).banks.bank x.bank).elems (k * 64 + j)

theorem matrixA_eq (s : State) (t : Team) (x : Tensor) (i k : Nat) : matrixA s t x i k = (mulFmt x).val false (bitsA s t x i k) := by
  unfold matrixA bitsA
  by_cases h1 : mmaFlag x 1 = true
  · by_cases hc : rotBlk (x.nat 7 1) = 0 <;> simp only [if_pos h1, hc, if_true, if_false] <;> rfl
  · simp only [if_neg h1]
    rfl

theorem mulRow_bits {s : State} {t : Team} {x : Tensor} (hk : mmaFlag x 1 = true → mmaK x % blkSize (rotBlk (x.nat 7 1)) = 0) (i : Nat) :
    (mulRow s t x i).1 = (List.range (mmaK x)).map (bitsA s t x i) := by
  unfold mulRow bitsA
  by_cases h1 : mmaFlag x 1 = true
  · simp only [if_pos h1, List.map_map]
    by_cases hc : rotBlk (x.nat 7 1) = 0
    · simp only [if_pos hc]
      rfl
    · simp only [if_neg hc, Function.comp_def, rotateRow_values true _ (blkSize_pos _) (hk h1), deliverFloat, List.map_map]
      rfl
  · simp only [if_neg h1]

/-- The elements that a MUL writes. -/
theorem mem_mulTiles {s : State} {t : Team} {core : Nat} {x : Tensor} {stop : Option Nat}
    (hk : mmaFlag x 1 = true → mmaK x % blkSize (rotBlk (x.nat 7 1)) = 0) {q : Nat × Nat × DWord} :
    q ∈ (mulEffect s t core x stop).tiles ↔ ∃ i < mmaM x, ∃ j < mmaN x, (mmaZd x, 64 * i + j,
      (mulElem (mmaType x) (if mmaFlag x 0 = true then t.tileElem (mmaZd x) (64 * i + j) else 0) stop
        ((List.range (mmaK x)).map fun k => (bitsA s t x i k, bitsB s core x k j))).1) = q := by
  simp only [mulEffect, List.length_map, List.length_range, map_range_zip_range, List.map_flatMap, List.flatMap_map, List.map_map,
    Function.comp_def, mulRow_bits hk, List.mem_map, List.mem_flatMap, List.mem_range]
  rfl

theorem integerProduct : IntegerProduct := by
  intro s t core x p hty h1
  rw [mem_mulTiles (by simp [h1])]
  simp only [hty, mulElem, if_true, List.map_map, Function.comp_def, ← List.sum_eq_foldl]
  simp only [bitsA, bitsB, h1, Bool.false_eq_true, if_false, eq_comm (a := p)]

theorem mulElem_toNat {ty : Nat} (hty : ty ≠ 1) (acc : DWord) (K : Nat) (ab : Nat → Nat × Nat) {stop : Option Nat} {c : Nat}
    (hc : stop = none ∧ c = ceilDiv K 32 ∨ stop = some c ∧ c ≤ ceilDiv K 32) :
    fp64.val false (mulElem ty acc stop ((List.range K).map ab)).1.toNat =
      fp64.val false (accumulate acc.toNat ((List.range c).flatMap (chunkTerms ty K ab))).1 := by
  rw [mulElem_eq hty acc K ab hc, BitVec.toNat_ofNat]
  exact Fmt.val_mod fp64 _

theorem tensorEffect_loadb {x : Tensor} (hk : x.kind = .mma) (hl : mmaIsLoad x = true) (s : State) (o : Op) (t : Team)
    (stop : Option Nat) : tensorEffect s o t x stop = loadbEffect s t x := by
  simp only [tensorEffect, hk, hl, if_true]

theorem tensorEffect_mul {x : Tensor} (hk : x.kind = .mma) (hl : mmaIsLoad x = false) (s : State) (o : Op) (t : Team)
    (stop : Option Nat) : tensorEffect s o t x stop = mulEffect s t o.core x stop := by
  simp only [tensorEffect, hk, hl, Bool.false_eq_true, if_false]

/-- What LOADB puts in the bank (R254). -/
theorem mem_loadb {s : State} {t : Team} {x : Tensor} {q : Nat × Nat} : q ∈ (loadbEffect s t x).bank ↔
    ∃ k < mmaK x, ∃ j < mmaN x, ∃ c, c = mmaCoord x 24 (mmaFlag x 3) k j ∧ q = (k * 64 + j, if (x.map 0).fmt = .nq4 then
      bitsIn Machine.bf16 (s.elemVal t x.pages (x.map 0) c) else s.elemBits t x.pages (x.map 0) c) := by
  simp only [loadbEffect, List.map_flatMap, List.map_map, List.mem_flatMap, List.mem_map, List.mem_range, exists_eq_left, Function.comp_def]
  refine exists_congr fun k => and_congr_right fun _ => exists_congr fun j => and_congr_right fun _ => ?_
  rw [eq_comm (b := q)]
  split <;> rfl

/-- The value of an element of a floating MUL's tile (R124, R127, R255). -/
theorem val_mulElem {s : State} {t : Team} {core : Nat} {x : Tensor} {stop : Option Nat} {c i j : Nat} (hty : mmaType x ≠ 1) (acc : DWord)
    (hc : stop = none ∧ c = ceilDiv (mmaK x) 32 ∨ stop = some c ∧ c ≤ ceilDiv (mmaK x) 32) :
    fp64.val false (mulElem (mmaType x) acc stop ((List.range (mmaK x)).map fun k => (bitsA s t x i k, bitsB s core x k j))).1.toNat =
      let b := fun k => (mulFmt x).val false (bitsB s core x k j)
      if mmaType x = 2 then accumulated32 passOrder (mmaK x) (matrixA s t x i) b c (fp64.val false acc.toNat)
      else if mmaType x = 3 then accumulated32 (passOrder.take 6) (mmaK x) (matrixA s t x i) b c (fp64.val false acc.toNat)
      else accumulated (mmaK x) (fun k => product (matrixA s t x i k) (b k)) c (fp64.val false acc.toNat) := by
  rw [mulElem_toNat hty _ _ _ hc, val_accumulate, funext (matrixA_eq s t x i)]
  by_cases h : mmaType x = 2 ∨ mmaType x = 3
  · rw [foldl_terms_fp h, mulFmt, if_pos h]
    rcases h with h | h <;> rw [h] <;> rfl
  · obtain ⟨h2, h3⟩ := not_or.1 h
    rw [foldl_terms_bf h2 h3, mulFmt, if_neg h, if_neg h2, if_neg h3]
    rfl

/-- Such an element that is a NaN is the canonical one. -/
theorem mulElem_eq_qnan {ty : Nat} (hty : ty ≠ 1) {acc : DWord} {K : Nat} {ab : Nat → Nat × Nat} {stop : Option Nat} {c : Nat}
    (hc : stop = none ∧ c = ceilDiv K 32 ∨ stop = some c ∧ c ≤ ceilDiv K 32) (h0 : 0 < c)
    (h : fp64.val false (mulElem ty acc stop ((List.range K).map ab)).1.toNat = .nan) :
    (mulElem ty acc stop ((List.range K).map ab)).1 = qnan64 := by
  rw [mulElem_toNat hty acc K ab hc] at h
  rw [mulElem_eq hty acc K ab hc, accumulate_eq_qnan (chunkTerms_flatMap_ne_nil ty K ab h0) h]
  rfl

theorem matrixSums : MatrixSums := by
  refine ⟨fun s o t x q hkind hload => ?_, fun s o t x stop c e b f old sum hkind hload hty he hc hf hb hold hsum hk => ?_⟩
  · rw [tensorEffect_loadb hkind hload]
    exact mem_loadb
  · rw [tensorEffect_mul hkind hload] at he
    subst he
    have hval : ∀ i j, fp64.val false (mulElem (mmaType x) (if mmaFlag x 0 = true then t.tileElem (mmaZd x) (64 * i + j) else 0) stop
        ((List.range (mmaK x)).map fun k => (bitsA s t x i k, bitsB s o.core x k j))).1.toNat = sum i j := by
      intro i j
      subst hsum hold hb hf
      rw [val_mulElem hty _ hc, apply_ite BitVec.toNat]
      rfl
    refine ⟨fun i hi j hj => ⟨_, (mem_mulTiles hk).2 ⟨i, hi, j, hj, rfl⟩⟩, fun p hp => ?_⟩
    obtain ⟨i, hi, j, hj, rfl⟩ := (mem_mulTiles hk).1 hp
    exact ⟨i, hi, j, hj, rfl, hval i j, fun h0 hn => mulElem_eq_qnan hty hc h0 ((hval i j).trans hn)⟩

end Sys2Proof.Spec
end

section
/-! SUPPORT. The order of exact values, and the greatest of a list (R105, R271). -/

namespace Sys2Proof.Spec

open Sys2Proof.Machine

theorem le_fin_iff {a b : Bool} {n d m k : Nat} (hd : 0 < d) (hk : 0 < k) :
    XR.le (.fin a n d) (.fin b m k) = true ↔ rat (.fin a n d) ≤ rat (.fin b m k) := le_iff_rat hd hk rfl rfl

theorem le_posInf {x : XR} (h : x.isNaN = false) : XR.le x (.inf false) = true := by
  cases x with
  | nan => cases h
  | inf neg => cases neg <;> rfl
  | fin => rfl

theorem posInf_le {x : XR} : XR.le (.inf false) x = true ↔ x = .inf false := by
  cases x with
  | nan => simp [XR.le]
  | inf neg => cases neg <;> simp [XR.le]
  | fin => simp [XR.le]

theorem le_negInf {x : XR} : XR.le x (.inf true) = true ↔ x = .inf true := by
  cases x with
  | nan => simp [XR.le]
  | inf neg => cases neg <;> simp [XR.le]
  | fin => simp [XR.le]

theorem negInf_le {x : XR} (h : x.isNaN = false) : XR.le (.inf true) x = true := by
  cases x with
  | nan => cases h
  | inf neg => rfl
  | fin => rfl

theorem le_or_ge_of_num {x y : XR} (hx : proper x) (hy : proper y) (hxn : x.isNaN = false) (hyn : y.isNaN = false) :
    XR.le x y = true ∨ XR.le y x = true := by
  cases x with
  | nan => cases hxn
  | inf neg =>
    cases neg
    · exact .inr (le_posInf hyn)
    · exact .inl (negInf_le hyn)
  | fin a n d =>
    cases y with
    | nan => cases hyn
    | inf neg =>
      cases neg
      · exact .inl rfl
      · exact .inr rfl
    | fin b m k =>
      rw [le_fin_iff hx hy, le_fin_iff hy hx]
      exact le_total _ _

theorem le_of_le_of_le {x y z : XR} (hx : proper x) (hy : proper y) (hz : proper z) (hxn : x.isNaN = false) (hzn : z.isNaN = false)
    (hxy : XR.le x y = true) (hyz : XR.le y z = true) : XR.le x z = true := by
  cases y with
  | nan => cases z <;> cases hyz
  | inf neg =>
    cases neg
    · rw [posInf_le.1 hyz]
      exact le_posInf hxn
    · rw [le_negInf.1 hxy]
      exact negInf_le hzn
  | fin b m k =>
    cases x with
    | nan => cases hxn
    | inf neg =>
      cases neg
      · cases hxy
      · exact negInf_le hzn
    | fin a n d =>
      cases z with
      | nan => cases hzn
      | inf neg =>
        cases neg
        · rfl
        · cases hyz
      | fin c p q =>
        rw [le_fin_iff hx hy] at hxy
        rw [le_fin_iff hy hz] at hyz
        rw [le_fin_iff hx hz]
        exact hxy.trans hyz

/-- The greatest of a list by R271's fold, from a bound already reached. -/
theorem foldl_greatest {l : List XR} (hl : ∀ z ∈ l, proper z ∧ z.isNaN = false) {a : XR} (ha : proper a) (han : a.isNaN = false) :
    let m := l.foldl (fun m z => if XR.le m z = true then z else m) a
    (∀ z ∈ l, XR.le z m = true) ∧ XR.le a m = true ∧ (m ∈ l ∨ m = a) := by
  induction l generalizing a with
  | nil => exact ⟨fun z hz => absurd hz List.not_mem_nil, (or_self_iff.1 (le_or_ge_of_num ha ha han han)), .inr rfl⟩
  | cons z l ih =>
    obtain ⟨⟨hz, hzn⟩, hrest⟩ := List.forall_mem_cons.1 hl
    simp only [List.foldl_cons]
    have hself : XR.le z z = true := or_self_iff.1 (le_or_ge_of_num hz hz hzn hzn)
    have hmem : ∀ {b m : XR}, (m ∈ l ∨ m = b) → proper b → b.isNaN = false → proper m ∧ m.isNaN = false := fun h hb hbn => by
      rcases h with h | rfl
      · exact hrest _ h
      · exact ⟨hb, hbn⟩
    by_cases h : XR.le a z = true
    · rw [if_pos h]
      obtain ⟨hall, hle, hm⟩ := ih hrest hz hzn
      obtain ⟨hmp, hmn⟩ := hmem hm hz hzn
      exact ⟨List.forall_mem_cons.2 ⟨hle, hall⟩, le_of_le_of_le ha hz hmp han hmn h hle, .inl (List.mem_cons.2 hm.symm)⟩
    · rw [if_neg h]
      obtain ⟨hall, hle, hm⟩ := ih hrest ha han
      obtain ⟨hmp, hmn⟩ := hmem hm ha han
      have hza := (le_or_ge_of_num hz ha hzn han).resolve_right h
      exact ⟨List.forall_mem_cons.2 ⟨le_of_le_of_le hz ha hmp hzn hmn hza hle, hall⟩, hle, hm.imp_left (List.mem_cons_of_mem _)⟩

end Sys2Proof.Spec
end

section
/-! SUPPORT. What the row instructions write (R269 to R275). -/

namespace Sys2Proof.Spec

open Sys2Proof.Machine

/-! ### Values of the row engine's arithmetic -/

@[simp] theorem xround_fst (f : Fmt) (a : XF) : (xround f a).1 = rnd f a.1 := rfl
@[simp] theorem xmul_fst (a b : XF) : (xmul a b).1 = times a.1 b.1 := rfl
@[simp] theorem xadd_fst (a b : XF) : (xadd a b).1 = plus a.1 b.1 := rfl
@[simp] theorem xsub_fst (a b : XF) : (xsub a b).1 = minus a.1 b.1 := rfl
@[simp] theorem xdiv_fst (a b : XF) : (xdiv a b).1 = over' a.1 b.1 := rfl
@[simp] theorem xq_fst (a : XF) : (xq a).1 = a.1 := rfl
@[simp] theorem reelExp_fst (z m : XF) : (reelExp z m).1 = exOf z.1 m.1 := by
  simp only [reelExp, xround_fst, xmul_fst, xsub_fst]
  rfl
@[simp] theorem xbits_eq (f : Fmt) (a : XF) : xbits f a = bitsIn f a.1 := rfl
@[simp] theorem dw_bitsIn (v : XR) : dw (bitsIn fp64 v) = dbl v := rfl

/-- A sum of terms rounded one after another. -/
theorem foldl_sum_fst {α : Type} (g : α → XF) (l : List α) (a : XF) :
    (l.foldl (fun acc v => xround fp64 (xadd acc (g v))) a).1 = l.foldl (fun a v => rnd fp64 (plus a (g v).1)) a.1 :=
  (List.foldl_hom Prod.fst fun _ _ => rfl).symm

theorem xsum_range_fst (n : Nat) (g : Nat → XF) : (xsum xadd ((List.range n).map g)).1 = running n fun i => (g i).1 := by
  rw [xsum, List.foldl_map, foldl_sum_fst]
  rfl

/-! ### Rows -/

/-- Row `r` of operand `k` element by element. -/
def rowPair (s : State) (t : Team) (x : Tensor) (k r i : Nat) : XF :=
  (rowElem s t x k r i, (x.map k).fmt.snan [s.elemBits t [] (x.map k) [i, reelOrg x + r, 0, 0, 0]])

theorem reelRow_eq (s : State) (t : Team) (x : Tensor) (k r n : Nat) :
    reelRow s t x k (reelOrg x + r) n = (List.range n).map (rowPair s t x k r) := rfl

@[simp] theorem rowPair_fst (s : State) (t : Team) (x : Tensor) (k r i : Nat) : (rowPair s t x k r i).1 = rowElem s t x k r i := rfl

/-- z[i] with its flags. -/
def zPair (s : State) (t : Team) (x : Tensor) (r i : Nat) : XF := xround fp32 (xmul (reelSc x) (rowPair s t x 0 r i))

@[simp] theorem zPair_fst (s : State) (t : Team) (x : Tensor) (r i : Nat) : (zPair s t x r i).1 = zOf s t x r i := rfl

theorem reelZ_eq (s : State) (t : Team) (x : Tensor) (r : Nat) :
    reelZ s t x r = (List.range (validOf s t x r)).map (zPair s t x r) := by
  rw [reelZ, reelRow_eq, List.map_map]
  rfl

theorem validOf_le (s : State) (t : Team) (x : Tensor) (r : Nat) : validOf s t x r ≤ reelL x := by
  unfold validOf
  split
  · exact min_le_left ..
  · exact le_rfl

@[simp] theorem reelVec_fst (s : State) (t : Team) (x : Tensor) (k i : Nat) (none : XR) :
    (reelVec s t x k i none).1 = vecElem s t x k i none := by
  unfold reelVec vecElem
  split <;> rfl

/-- A row of outputs: the values given, rounded, then +0. -/
theorem reelOut_y {x : Tensor} {n : Nat} (hn : n ≤ reelL x) (v : Nat → XF) (ent : Option (DWord × DWord)) (fl : Flags) :
    (reelOut x ((List.range n).map v) ent fl).y =
      (List.range (reelL x)).map fun i => if i < n then bitsIn (reelFmt x) (v i).1 else 0 := by
  simp only [reelOut, List.map_map, List.length_map, List.length_range]
  have h := append_replicate_eq (l := (List.range n).map fun i => bitsIn (reelFmt x) (v i).1) (n := reelL x) (by simpa using hn) 0
  rw [List.length_map, List.length_range] at h
  refine h.trans (List.map_congr_left fun i _ => ?_)
  split
  next hi => exact getD_map_range _ hi 0
  next hi => exact List.getD_eq_default _ _ (by simpa using hi)

theorem sameRow_y (x : Tensor) (b : Nat) (ent : Option (DWord × DWord)) (fl : Flags) :
    (sameRow x b ent fl).y = (List.range (reelL x)).map fun _ => b := by
  simp [sameRow, List.map_const']

/-- What rows of outputs write. -/
theorem rowsGive_rowsEffect {x : Tensor} {row : Nat → RowOut} {y : Nat → Nat → Nat} {ent : Nat → Option (DWord × DWord)}
    (hy : ∀ r, (row r).y = (List.range (reelL x)).map (y r)) (he : ∀ r, (row r).entry = ent r) :
    rowsGive x (rowsEffect x ((List.range (reelRows x)).map row)) y ent := by
  simp only [rowsGive, rowsEffect, List.length_map, List.length_range, map_range_zip_range, List.flatMap_map, List.mem_flatMap,
    List.mem_range, hy, he, mem_putRow, Nat.zero_add, implies_true, true_and]
  intro q
  refine exists_congr fun r => and_congr_right fun _ => ?_
  cases ent r with
  | none => simp
  | some e =>
    obtain ⟨a, b⟩ := e
    simp [and_assoc]

/-! ### `reel.smax` and `reel.dsmax` (R271, R272) -/

theorem proper_zOf (s : State) (t : Team) (x : Tensor) (r i : Nat) : proper (zOf s t x r i) := proper_val ..

/-- The maximum of a row's z. -/
def rowMax (s : State) (t : Team) (x : Tensor) (r : Nat) : XR := reelMax (reelZ s t x r)

theorem rowMax_eq (s : State) (t : Team) (x : Tensor) (r : Nat) : rowMax s t x r =
    ((List.range (validOf s t x r)).map (zOf s t x r)).foldl (fun m z => if XR.le m z = true then z else m) (.inf true) := by
  simp only [rowMax, reelMax, reelZ_eq, List.foldl_map, zPair_fst]
  rfl

theorem rowMax_spec {s : State} {t : Team} {x : Tensor} {r : Nat} (h : ∀ i < validOf s t x r, (zOf s t x r i).isNaN = false) :
    (∀ i < validOf s t x r, XR.le (zOf s t x r i) (rowMax s t x r) = true) ∧
      ((∃ i < validOf s t x r, zOf s t x r i = rowMax s t x r) ∨ rowMax s t x r = .inf true) := by
  have hl : ∀ z ∈ (List.range (validOf s t x r)).map (zOf s t x r), proper z ∧ z.isNaN = false := by
    simp only [List.mem_map, List.mem_range]
    rintro z ⟨i, hi, rfl⟩
    exact ⟨proper_zOf s t x r i, h i hi⟩
  obtain ⟨hall, -, hm⟩ := foldl_greatest hl (a := .inf true) trivial rfl
  rw [← rowMax_eq] at hall hm
  simpa using And.intro hall hm

theorem any_nan_reelZ (s : State) (t : Team) (x : Tensor) (r : Nat) : ((reelZ s t x r).any fun z => z.1.isNaN) = true ↔
    ∃ i < validOf s t x r, (zOf s t x r i).isNaN = true := by
  simp [reelZ_eq]

/-- A row of `reel.smax` whose maximum is NaN, +Inf or -Inf, and any other. -/
theorem smaxRow_special {s : State} {t : Team} {x : Tensor} {r : Nat}
    (h : (∃ i < validOf s t x r, (zOf s t x r i).isNaN = true) ∨ rowMax s t x r = .inf false) : ∃ fl,
    smaxRow s t x r = sameRow x (reelFmt x).qnan (some (qnan64, qnan64)) fl := by
  rw [← any_nan_reelZ] at h
  exact ⟨_, if_pos h⟩

theorem smaxRow_negInf {s : State} {t : Team} {x : Tensor} {r : Nat}
    (h : ¬ ((∃ i < validOf s t x r, (zOf s t x r i).isNaN = true) ∨ rowMax s t x r = .inf false)) (hm : rowMax s t x r = .inf true) :
    ∃ fl, smaxRow s t x r = sameRow x 0 (some (0xFFF0_0000_0000_0000, 0)) fl := by
  rw [← any_nan_reelZ] at h
  exact ⟨_, (if_neg h).trans (if_pos (.inr hm))⟩

/-- A row's exponentials. -/
def exPairs (s : State) (t : Team) (x : Tensor) (r : Nat) (m : XR) : List XF := (reelZ s t x r).map fun z => reelExp (xq z) (m, 0)

theorem exPairs_eq (s : State) (t : Team) (x : Tensor) (r : Nat) (m : XR) : exPairs s t x r m =
    (List.range (validOf s t x r)).map fun i => reelExp (xq (zPair s t x r i)) (m, 0) := by
  rw [exPairs, reelZ_eq, List.map_map]
  rfl

theorem smaxRow_finite {s : State} {t : Team} {x : Tensor} {r : Nat}
    (h : ¬ ((∃ i < validOf s t x r, (zOf s t x r i).isNaN = true) ∨ rowMax s t x r = .inf false)) (hm : rowMax s t x r ≠ .inf true) :
    let sum := xsum xadd ((exPairs s t x r (rowMax s t x r)).map xq)
    ∃ fl, smaxRow s t x r = reelOut x ((exPairs s t x r (rowMax s t x r)).map fun e => xdiv (xq e) (xq sum))
      (some (dw (xbits fp64 (rowMax s t x r, 0)), dw (xbits fp64 sum))) fl := by
  have hne : reelZ s t x r ≠ [] := fun h0 => hm (by rw [rowMax, h0]; rfl)
  rw [← any_nan_reelZ] at h
  exact ⟨_, (if_neg h).trans (if_neg (not_or.2 ⟨hne, hm⟩))⟩

theorem length_smaxRow (s : State) (t : Team) (x : Tensor) (r : Nat) : (smaxRow s t x r).y.length = reelL x := by
  by_cases h : (∃ i < validOf s t x r, (zOf s t x r i).isNaN = true) ∨ rowMax s t x r = .inf false
  · obtain ⟨fl, he⟩ := smaxRow_special h
    rw [he, sameRow_y, List.length_map, List.length_range]
  · by_cases hm : rowMax s t x r = .inf true
    · obtain ⟨fl, he⟩ := smaxRow_negInf h hm
      rw [he, sameRow_y, List.length_map, List.length_range]
    · obtain ⟨fl, he⟩ := smaxRow_finite h hm
      rw [he, exPairs_eq, List.map_map, reelOut_y (validOf_le s t x r), List.length_map, List.length_range]

theorem softmaxRow_smaxRow (s : State) (t : Team) (x : Tensor) (r : Nat) {y : Nat → Nat}
    (hy : (smaxRow s t x r).y = (List.range (reelL x)).map y) : softmaxRow s t x r y (smaxRow s t x r).entry := by
  have hvals : ∀ {v : Nat → Nat}, (smaxRow s t x r).y = (List.range (reelL x)).map v → ∀ i < reelL x, y i = v i := fun hv i hi =>
    List.map_inj_left.1 (hy.symm.trans hv) i (List.mem_range.2 hi)
  refine ⟨fun hspecial => ?_, fun hall => ?_, fun hnum hsome => ?_⟩
  · have h : (∃ i < validOf s t x r, (zOf s t x r i).isNaN = true) ∨ rowMax s t x r = .inf false := by
      by_contra hno
      rw [not_or] at hno
      have hn : ∀ i < validOf s t x r, (zOf s t x r i).isNaN = false := by simpa using hno.1
      obtain ⟨i, hi, hi'⟩ := hspecial
      have hle := (rowMax_spec hn).1 i hi
      rw [hi'.resolve_left (by simp [hn i hi]), posInf_le] at hle
      exact hno.2 hle
    obtain ⟨fl, he⟩ := smaxRow_special h
    rw [he]
    exact ⟨hvals (by rw [he, sameRow_y]), rfl⟩
  · have hn : ∀ i < validOf s t x r, (zOf s t x r i).isNaN = false := fun i hi => by rw [hall i hi]; rfl
    have hm : rowMax s t x r = .inf true := (rowMax_spec hn).2.elim (fun ⟨i, hi, h⟩ => h.symm.trans (hall i hi)) id
    obtain ⟨fl, he⟩ := smaxRow_negInf (by rw [hm]; simpa using hn) hm
    rw [he]
    exact ⟨hvals (by rw [he, sameRow_y]), rfl⟩
  · obtain ⟨hle, hmem⟩ := rowMax_spec fun i hi => (hnum i hi).1
    obtain ⟨k, hk, hk'⟩ := hsome
    have hm : rowMax s t x r ≠ .inf true := fun h => hk' (le_negInf.1 (h ▸ hle k hk))
    obtain ⟨i, hi, him⟩ := hmem.resolve_right hm
    obtain ⟨fl, he⟩ := smaxRow_finite (not_or.2 ⟨by simpa using fun i hi => (hnum i hi).1, him ▸ (hnum i hi).2⟩) hm
    simp only [exPairs_eq, List.map_map, Function.comp_def] at he
    refine ⟨_, ⟨i, hi, him⟩, hle, hvals ?_, ?_⟩
    · rw [he, reelOut_y (validOf_le s t x r)]
      simp only [xdiv_fst, xq_fst, reelExp_fst, zPair_fst, xsum_range_fst]
    · rw [he]
      simp only [reelOut, xbits_eq, xsum_range_fst, xq_fst, reelExp_fst, zPair_fst, dw_bitsIn]

/-- y[i] and d of R272 with their flags. -/
def gradPair (s : State) (t : Team) (x : Tensor) (r i : Nat) : XF :=
  xround fp64 (xdiv (xq (reelExp (xq (zPair s t x r i)) (fp64.val false (reelEntry t x r 0).toNat, 0)))
    (fp64.val false (reelEntry t x r 1).toNat, 0))
def gradDot (s : State) (t : Team) (x : Tensor) (r : Nat) : XF := (List.range (validOf s t x r)).foldl
  (fun acc i => xround fp64 (xadd acc (xmul (xq (gradPair s t x r i)) (rowPair s t x 2 r i)))) (.fin false 0 1, 0)

@[simp] theorem gradPair_fst (s : State) (t : Team) (x : Tensor) (r i : Nat) : (gradPair s t x r i).1 =
    rnd fp64 (over' (exOf (zOf s t x r i) (fp64.val false (reelEntry t x r 0).toNat)) (fp64.val false (reelEntry t x r 1).toNat)) := by
  simp only [gradPair, xround_fst, xdiv_fst, xq_fst, reelExp_fst, zPair_fst]

@[simp] theorem reelSc_fst (x : Tensor) : (reelSc x).1 = f32 (x.nat 16 4) := rfl

theorem gradDot_fst (s : State) (t : Team) (x : Tensor) (r : Nat) : (gradDot s t x r).1 =
    running (validOf s t x r) fun i => times (gradPair s t x r i).1 (rowElem s t x 2 r i) := by
  simp only [gradDot, foldl_sum_fst, xmul_fst, xq_fst, rowPair_fst]
  rfl

theorem any_special_reelZ (s : State) (t : Team) (x : Tensor) (r : Nat) :
    ((reelZ s t x r).any fun z => z.1.isNaN || z.1 == .inf false) = true ↔
      ∃ i < validOf s t x r, (zOf s t x r i).isNaN = true ∨ zOf s t x r i = .inf false := by
  simp [reelZ_eq]

/-- The row of `reel.dsmax` whose entry and values are ordinary. -/
theorem dsmaxRow_finite {s : State} {t : Team} {x : Tensor} {r : Nat}
    (hnan : ¬ ((fp64.val false (reelEntry t x r 0).toNat).isNaN || (fp64.val false (reelEntry t x r 1).toNat).isNaN) = true)
    (hinf : fp64.val false (reelEntry t x r 0).toNat ≠ .inf true)
    (hz : ¬ ∃ i < validOf s t x r, (zOf s t x r i).isNaN = true ∨ zOf s t x r i = .inf false) :
    ∃ fl, dsmaxRow s t x r = reelOut x ((List.range (validOf s t x r)).map fun i => xmul (xmul (reelSc x) (xq (gradPair s t x r i)))
      (xround fp64 (xsub (rowPair s t x 2 r i) (xq (gradDot s t x r))))) none fl := by
  rw [← any_special_reelZ] at hz
  simp only [dsmaxRow, if_neg hnan, if_neg hinf, if_neg hz]
  simp only [reelZ_eq, reelRow_eq, List.length_map, List.length_range, List.map_map, map_range_zip_map_range, List.foldl_map, Function.comp_def]
  exact ⟨_, rfl⟩

theorem exists_softmaxGradRow (s : State) (t : Team) (x : Tensor) (r : Nat) :
    ∃ y, (dsmaxRow s t x r).y = (List.range (reelL x)).map y ∧ (dsmaxRow s t x r).entry = none ∧ softmaxGradRow s t x r y := by
  unfold softmaxGradRow
  by_cases hnan : ((fp64.val false (reelEntry t x r 0).toNat).isNaN || (fp64.val false (reelEntry t x r 1).toNat).isNaN) = true
  · have he : ∃ fl, dsmaxRow s t x r = sameRow x (reelFmt x).qnan none fl := ⟨_, if_pos hnan⟩
    obtain ⟨fl, he⟩ := he
    refine ⟨_, by rw [he, sameRow_y], by rw [he]; rfl, fun _ _ _ => rfl, fun h1 h2 => ?_⟩
    rw [h1, h2] at hnan
    cases hnan
  have hno := not_or.1 (mt Bool.or_eq_true_iff.2 hnan)
  by_cases hinf : fp64.val false (reelEntry t x r 0).toNat = .inf true
  · have he : ∃ fl, dsmaxRow s t x r = sameRow x 0 none fl := ⟨_, (if_neg hnan).trans (if_pos hinf)⟩
    obtain ⟨fl, he⟩ := he
    exact ⟨_, by rw [he, sameRow_y], by rw [he]; rfl, fun h => absurd h (not_or.2 hno), fun _ _ => ⟨fun _ _ _ => rfl,
      fun h => absurd hinf h, fun h => absurd hinf h⟩⟩
  by_cases hz : ∃ i < validOf s t x r, (zOf s t x r i).isNaN = true ∨ zOf s t x r i = .inf false
  · have he : ∃ fl, dsmaxRow s t x r = sameRow x (reelFmt x).qnan none fl :=
      ⟨_, (if_neg hnan).trans ((if_neg hinf).trans (if_pos ((any_special_reelZ s t x r).2 hz)))⟩
    obtain ⟨fl, he⟩ := he
    obtain ⟨k, hk, hk'⟩ := hz
    exact ⟨_, by rw [he, sameRow_y], by rw [he]; rfl, fun h => absurd h (not_or.2 hno), fun _ _ => ⟨fun h => absurd h hinf,
      fun _ _ _ _ => rfl, fun _ h => absurd hk' (by simp [h k hk])⟩⟩
  · obtain ⟨fl, he⟩ := dsmaxRow_finite hnan hinf hz
    refine ⟨_, by rw [he, reelOut_y (validOf_le s t x r)], by rw [he]; rfl, fun h => absurd h (not_or.2 hno), fun _ _ =>
      ⟨fun h => absurd h hinf, fun _ h => absurd h hz, fun _ _ i _ => ?_⟩⟩
    simp only [xmul_fst, xround_fst, xsub_fst, xq_fst, rowPair_fst, gradDot_fst, gradPair_fst, reelSc_fst]

/-! ### `reel.norm` and `reel.dnorm` (R273, R274) -/

@[simp] theorem xlen_fst (x : Tensor) : (xlen x).1 = XR.ofInt (reelL x) := rfl

/-- A full row of outputs. -/
theorem reelOut_full (x : Tensor) (v : Nat → XF) (ent : Option (DWord × DWord)) (fl : Flags) :
    (reelOut x ((List.range (reelL x)).map v) ent fl).y = (List.range (reelL x)).map fun i => bitsIn (reelFmt x) (v i).1 := by
  rw [reelOut_y le_rfl]
  exact List.map_congr_left fun i hi => if_pos (List.mem_range.1 hi)

/-- mu, d[i] and rs of R273 with their flags. -/
def meanPair (s : State) (t : Team) (x : Tensor) (r : Nat) : XF :=
  if reelRms x then xzero else xround fp64 (xdiv (xq (xsum xadd ((List.range (reelL x)).map (rowPair s t x 0 r)))) (xlen x))
def devPair (s : State) (t : Team) (x : Tensor) (r i : Nat) : XF := xround fp64 (xsub (rowPair s t x 0 r i) (xq (meanPair s t x r)))
def squarePair (s : State) (t : Team) (x : Tensor) (r : Nat) : XF := (List.range (reelL x)).foldl
  (fun acc i => xround fp64 (xadd acc (xmul (xq (devPair s t x r i)) (xq (devPair s t x r i))))) xzero
def radicand (s : State) (t : Team) (x : Tensor) (r : Nat) : XF :=
  xadd (xq (xround fp64 (xdiv (xq (squarePair s t x r)) (xlen x)))) (reelEps x)
def rsPair (s : State) (t : Team) (x : Tensor) (r : Nat) : XF :=
  xround fp64 ((spRsq (radicand s t x r).1).1, (radicand s t x r).2 ||| (spRsq (radicand s t x r).1).2)

@[simp] theorem meanPair_fst (s : State) (t : Team) (x : Tensor) (r : Nat) : (meanPair s t x r).1 = meanOf s t x r := by
  unfold meanPair meanOf
  split
  · rfl
  · simp only [xround_fst, xdiv_fst, xq_fst, xsum_range_fst, xlen_fst, rowPair_fst]

@[simp] theorem devPair_fst (s : State) (t : Team) (x : Tensor) (r i : Nat) : (devPair s t x r i).1 = devOf s t x (meanOf s t x r) r i := by
  simp only [devPair, xround_fst, xsub_fst, xq_fst, rowPair_fst, meanPair_fst, devOf]

theorem squarePair_fst (s : State) (t : Team) (x : Tensor) (r : Nat) : (squarePair s t x r).1 =
    running (reelL x) fun i => times (devOf s t x (meanOf s t x r) r i) (devOf s t x (meanOf s t x r) r i) := by
  simp only [squarePair, foldl_sum_fst, xmul_fst, xq_fst, devPair_fst]
  rfl

@[simp] theorem reelEps_fst (x : Tensor) : (reelEps x).1 = f32 (x.nat 20 4) := rfl

@[simp] theorem rsPair_fst (s : State) (t : Team) (x : Tensor) (r : Nat) : (rsPair s t x r).1 = rsOf s t x r := by
  simp only [rsPair, radicand, xround_fst, xadd_fst, xq_fst, xdiv_fst, squarePair_fst, xlen_fst, reelEps_fst, rsOf]

/-- The row of `reel.norm`. -/
theorem normRow_eq (s : State) (t : Team) (x : Tensor) (r : Nat) : ∃ fl, normRow s t x r = reelOut x ((List.range (reelL x)).map fun i =>
      xadd (xmul (xmul (xq (devPair s t x r i)) (xq (rsPair s t x r))) (reelVec s t x 3 i (.fin false 1 1))) (reelVec s t x 4 i (.fin false 0 1)))
    (some (dw (xbits fp64 (meanPair s t x r)), dw (xbits fp64 (rsPair s t x r)))) fl := by
  simp only [normRow, reelRow_eq, List.length_map, List.length_range, List.map_map, map_range_zip_range, List.foldl_map, Function.comp_def]
  exact ⟨_, rfl⟩

theorem normRow_y (s : State) (t : Team) (x : Tensor) (r : Nat) : (normRow s t x r).y = (List.range (reelL x)).map fun i =>
    bitsIn (reelFmt x) (plus (times (times (devOf s t x (meanOf s t x r) r i) (rsOf s t x r))
      (vecElem s t x 3 i (.fin false 1 1))) (vecElem s t x 4 i (.fin false 0 1))) := by
  obtain ⟨fl, he⟩ := normRow_eq s t x r
  simp only [he, reelOut_full, xadd_fst, xmul_fst, xq_fst, devPair_fst, rsPair_fst, reelVec_fst]

theorem normRow_entry (s : State) (t : Team) (x : Tensor) (r : Nat) :
    (normRow s t x r).entry = some (dbl (meanOf s t x r), dbl (rsOf s t x r)) := by
  obtain ⟨fl, he⟩ := normRow_eq s t x r
  simp only [he, reelOut, xbits_eq, meanPair_fst, rsPair_fst, dw_bitsIn]

/-- d[i], xh[i] and g[i] of R274 with their flags, and the means of g and of g·xh. -/
def entryPair (t : Team) (x : Tensor) (r k : Nat) : XF :=
  (fp64.val false (reelEntry t x r k).toNat, snanFlag fp64 [(reelEntry t x r k).toNat])
def xhPair (s : State) (t : Team) (x : Tensor) (r i : Nat) : XF :=
  xround fp64 (xmul (xq (xround fp64 (xsub (rowPair s t x 0 r i) (entryPair t x r 0)))) (entryPair t x r 1))
def normPair (s : State) (t : Team) (x : Tensor) (r i : Nat) : XF :=
  xround fp64 (xmul (rowPair s t x 2 r i) (reelVec s t x 3 i (.fin false 1 1)))
def meanGrad (s : State) (t : Team) (x : Tensor) (r : Nat) : XF :=
  if reelRms x then xzero
  else xround fp64 (xdiv (xq (xsum xadd ((List.range (reelL x)).map fun i => xq (normPair s t x r i)))) (xlen x))
def meanGradXh (s : State) (t : Team) (x : Tensor) (r : Nat) : XF :=
  xround fp64 (xdiv (xq ((List.range (reelL x)).foldl
    (fun acc i => xround fp64 (xadd acc (xmul (xq (normPair s t x r i)) (xq (xhPair s t x r i))))) xzero)) (xlen x))

@[simp] theorem entryPair_fst (t : Team) (x : Tensor) (r k : Nat) : (entryPair t x r k).1 = fp64.val false (reelEntry t x r k).toNat := rfl

@[simp] theorem xhPair_fst (s : State) (t : Team) (x : Tensor) (r i : Nat) : (xhPair s t x r i).1 = xhOf s t x r i := by
  simp only [xhPair, xround_fst, xmul_fst, xq_fst, xsub_fst, rowPair_fst, entryPair_fst, xhOf, devOf]

@[simp] theorem normPair_fst (s : State) (t : Team) (x : Tensor) (r i : Nat) : (normPair s t x r i).1 = gradOf s t x r i := by
  simp only [normPair, xround_fst, xmul_fst, rowPair_fst, reelVec_fst, gradOf]

theorem meanGrad_fst (s : State) (t : Team) (x : Tensor) (r : Nat) : (meanGrad s t x r).1 = if reelRms x = true then .fin false 0 1
    else rnd fp64 (over' (running (reelL x) (gradOf s t x r)) (XR.ofInt (reelL x))) := by
  unfold meanGrad
  split
  · rfl
  · simp only [xround_fst, xdiv_fst, xq_fst, xsum_range_fst, xlen_fst, normPair_fst]

theorem meanGradXh_fst (s : State) (t : Team) (x : Tensor) (r : Nat) : (meanGradXh s t x r).1 =
    rnd fp64 (over' (running (reelL x) fun i => times (gradOf s t x r i) (xhOf s t x r i)) (XR.ofInt (reelL x))) := by
  simp only [meanGradXh, xround_fst, xdiv_fst, xq_fst, foldl_sum_fst, xmul_fst, xlen_fst, normPair_fst, xhPair_fst]
  rfl

/-- The row of `reel.dnorm`. -/
theorem dnormRow_eq (s : State) (t : Team) (x : Tensor) (dgb : List (XF × XF)) (r : Nat) : ∃ fl, (dnormRow s t x dgb r).1 =
    reelOut x ((List.range (reelL x)).map fun i => xmul (entryPair t x r 1) (xsub (xsub (xq (normPair s t x r i)) (xq (meanGrad s t x r)))
      (xmul (xq (xhPair s t x r i)) (xq (meanGradXh s t x r))))) none fl := by
  simp only [dnormRow, reelRow_eq, List.length_map, List.length_range, List.map_map, map_range_zip_range, map_range_zip_map_range,
    List.foldl_map, Function.comp_def]
  exact ⟨_, rfl⟩

theorem dnormRow_y (s : State) (t : Team) (x : Tensor) (dgb : List (XF × XF)) (r : Nat) :
    (dnormRow s t x dgb r).1.y = (List.range (reelL x)).map fun i => bitsIn (reelFmt x) (normGrad s t x r i) := by
  obtain ⟨fl, he⟩ := dnormRow_eq s t x dgb r
  simp only [he, reelOut_full, xmul_fst, xsub_fst, xq_fst, entryPair_fst, normPair_fst, xhPair_fst, meanGrad_fst, meanGradXh_fst, normGrad]

theorem dnormRow_entry (s : State) (t : Team) (x : Tensor) (dgb : List (XF × XF)) (r : Nat) : (dnormRow s t x dgb r).1.entry = none := by
  obtain ⟨fl, he⟩ := dnormRow_eq s t x dgb r
  rw [he]
  rfl

/-- The sums for dγ and dβ after a row. -/
theorem dnormRow_sums (s : State) (t : Team) (x : Tensor) (v : Nat → XF × XF) (r : Nat) : (dnormRow s t x ((List.range (reelL x)).map v) r).2 =
    (List.range (reelL x)).map fun i => (xround fp64 (xadd (v i).1 (xmul (rowPair s t x 2 r i) (xq (xhPair s t x r i)))),
      xround fp64 (xadd (v i).2 (rowPair s t x 2 r i))) := by
  simp only [dnormRow, reelRow_eq, List.map_map, map_range_zip_map_range, Function.comp_def]
  rfl

/-- The sums for dγ and dβ before the first row, and after `n` rows. -/
def sumsStart (s : State) (t : Team) (x : Tensor) : List (XF × XF) :=
  if x.has 5 then (List.range (reelL x)).map fun i =>
    ((fp64.val false (s.elemBits t [] (x.map 5) [i, 0, 0, 0, 0]), snanFlag fp64 [s.elemBits t [] (x.map 5) [i, 0, 0, 0, 0]]),
      (fp64.val false (s.elemBits t [] (x.map 5) [i, 1, 0, 0, 0]), snanFlag fp64 [s.elemBits t [] (x.map 5) [i, 1, 0, 0, 0]]))
  else []
def sumsAfter (s : State) (t : Team) (x : Tensor) (n : Nat) : List (XF × XF) :=
  (List.range n).foldl (fun d k => (dnormRow s t x d k).2) (sumsStart s t x)

theorem sumsAfter_succ (s : State) (t : Team) (x : Tensor) (n : Nat) :
    sumsAfter s t x (n + 1) = (dnormRow s t x (sumsAfter s t x n) n).2 := by
  rw [sumsAfter, List.range_succ, List.foldl_append]
  rfl

theorem foldl_dnormRow (s : State) (t : Team) (x : Tensor) (n : Nat) :
    ((List.range n).foldl (fun (acc : List RowOut × List (XF × XF)) k =>
      let o := dnormRow s t x acc.2 k
      (acc.1 ++ [o.1], o.2)) ([], sumsStart s t x)) =
    ((List.range n).map fun k => (dnormRow s t x [] k).1, sumsAfter s t x n) := by
  induction n with
  | zero => rfl
  | succ n ih =>
    rw [List.range_succ, List.foldl_append, ih, List.map_append, sumsAfter_succ]
    rfl

theorem sumsAfter_nil {s : State} {t : Team} {x : Tensor} (h : x.has 5 = false) (n : Nat) : sumsAfter s t x n = [] := by
  induction n with
  | zero => simp [sumsAfter, sumsStart, h]
  | succ n ih =>
    rw [sumsAfter_succ, ih]
    rfl

theorem gradSum_succ (s : State) (t : Team) (x : Tensor) (i k n : Nat) : gradSum s t x i k (n + 1) =
    rnd fp64 (plus (gradSum s t x i k n) (if k = 0 then times (rowElem s t x 2 n i) (xhOf s t x n i) else rowElem s t x 2 n i)) := by
  rw [gradSum, List.range_succ, List.foldl_append]
  rfl

theorem elemVal_f64 {m : TMap} (h : m.fmt = .f64) (s : State) (t : Team) (pages : KMap Nat) (c : List Nat) :
    s.elemVal t pages m c = fp64.val false (s.elemBits t pages m c) := by
  simp only [State.elemVal, h]
  rfl

theorem sumsAfter_eq {s : State} {t : Team} {x : Tensor} (h : x.has 5 = true) (h64 : (x.map 5).fmt = .f64) (n : Nat) :
    ∃ v, sumsAfter s t x n = (List.range (reelL x)).map v ∧ ∀ i, (v i).1.1 = gradSum s t x i 0 n ∧ (v i).2.1 = gradSum s t x i 1 n := by
  induction n with
  | zero => exact ⟨_, if_pos h, fun i => ⟨(elemVal_f64 h64 ..).symm, (elemVal_f64 h64 ..).symm⟩⟩
  | succ n ih =>
    obtain ⟨v, hv, hsum⟩ := ih
    refine ⟨_, by rw [sumsAfter_succ, hv, dnormRow_sums], fun i => ?_⟩
    simp only [xround_fst, xadd_fst, xmul_fst, xq_fst, rowPair_fst, xhPair_fst, gradSum_succ, hsum, if_true, one_ne_zero, if_false, and_self]

/-! ### The operations (R271 to R275) -/

theorem exists_lt_two (p : Nat → Prop) : (∃ k < 2, p k) ↔ p 0 ∨ p 1 := by
  constructor
  · rintro ⟨k, hk, h⟩
    interval_cases k
    · exact .inl h
    · exact .inr h
  · rintro (h | h)
    · exact ⟨0, by omega, h⟩
    · exact ⟨1, by omega, h⟩

theorem dnormEffect_rows (s : State) (t : Team) (x : Tensor) : let e1 := rowsEffect x ((List.range (reelRows x)).map fun k => (dnormRow s t x [] k).1)
    (dnormEffect s t x).reel = e1.reel ∧ ∀ (v : Nat → XF × XF) n, sumsAfter s t x (reelRows x) = (List.range n).map v →
      (dnormEffect s t x).mem = e1.mem ++ (List.range n).flatMap fun i =>
        (x.map 5).put [i, 0, 0, 0, 0] (xbits fp64 (v i).1) ++ (x.map 5).put [i, 1, 0, 0, 0] (xbits fp64 (v i).2) := by
  have he := foldl_dnormRow s t x (reelRows x)
  unfold sumsStart at he
  simp only [dnormEffect, he]
  refine ⟨trivial, fun v n hv => ?_⟩
  simp only [hv, List.length_map, List.length_range, map_range_zip_range, List.flatMap_map]

theorem rowResults : RowResults := by
  refine ⟨fun s o t x e hk he => ?_, fun s o t x e hk he => ?_, fun s o t x e hk he => ?_, fun s o t x e hk he => ?_,
    fun s o t x e hk he => ?_, fun s o t x e hk he => ?_⟩ <;> subst he <;> simp only [tensorEffect, hk, reelEffect]
  · have hy : ∀ r, (smaxRow s t x r).y = (List.range (reelL x)).map fun i => (smaxRow s t x r).y.getD i 0 := fun r =>
      eq_map_range_getD (length_smaxRow s t x r) 0
    exact ⟨_, _, rowsGive_rowsEffect hy fun _ => rfl, fun r _ => softmaxRow_smaxRow s t x r (hy r)⟩
  · choose y hy he hr using exists_softmaxGradRow s t x
    exact ⟨y, rowsGive_rowsEffect hy he, fun r _ => hr r⟩
  · exact rowsGive_rowsEffect (normRow_y s t x) (normRow_entry s t x)
  · obtain ⟨hreel, hmem⟩ := dnormEffect_rows s t x
    refine ⟨_, rowsGive_rowsEffect (dnormRow_y s t x []) (dnormRow_entry s t x []), hreel, fun h5 => ?_, fun h5 h64 => ?_⟩
    · rw [hmem (fun _ => (xzero, xzero)) 0 (sumsAfter_nil h5 _)]
      exact List.append_nil _
    · obtain ⟨v, hv, hsum⟩ := sumsAfter_eq h5 h64 (reelRows x)
      refine ⟨_, hmem v _ hv, fun p => ?_⟩
      simp only [List.mem_flatMap, List.mem_range, List.mem_append, mem_put, xbits_eq, hsum, exists_lt_two]
  · unfold statEffect
    refine ⟨fun himp => ?_, fun himp => ?_⟩ <;> rw [himp]
    · refine ⟨rfl, fun p => ?_⟩
      simp [mem_put]
    · refine ⟨rfl, fun q => ?_⟩
      simp [dw, eq_comm]
  · refine ⟨trivial, fun q => ?_⟩
    simp only [exists_lt_two, List.mem_flatMap, List.mem_range, List.mem_cons, List.not_mem_nil, or_false, Nat.add_zero]

end Sys2Proof.Spec
end

section
/-! SUPPORT. What the layer operations compute (R262 to R264). -/

namespace Sys2Proof.Spec

open Sys2Proof.Machine

/-! ### The array's input (R262, R263) -/

/-- The input of the array: rotated elements, under `layer.t` with their columns' factors. -/
def arrayIn (s : State) (t : Team) (x : Tensor) (h : LayerHold) (f : Fmt) (m k : Nat) : XR :=
  if x.kind = .layerT then times (times (turnedIn s t x h f m k) (f32 (h.cols.getD k default).cs)) (f32 (h.cols.getD k default).g)
  else turnedIn s t x h f m k

theorem driveColumn_fst (c : Column) (v : XR) : (driveColumn c v).1 = times (times v (f32 c.cs)) (f32 c.g) := rfl

theorem sideBlk_pos (x : Tensor) (h : LayerHold) : 0 < sideBlk x h := blkSize_pos _

/-- The exact input and the rotated one as functions of their element. -/
theorem plainIn_eq (s : State) (t : Team) (x : Tensor) (h : LayerHold) (f : Fmt) (m : Nat) : plainIn s t x h f m =
    if tagRotated (x.map 0).tag = true then rotated false (inputOf s t x h f m) (sideBlk x h) 0 (sideSeed x h) 48
    else inputOf s t x h f m := by
  funext k
  unfold plainIn
  split <;> rfl

theorem turnedIn_eq (s : State) (t : Team) (x : Tensor) (h : LayerHold) (f : Fmt) (m : Nat) : turnedIn s t x h f m =
    if tagRotated (x.map 0).tag = true then inputOf s t x h f m
    else rotated true (inputOf s t x h f m) (sideBlk x h) 0 (sideSeed x h) 24 := by
  funext k
  unfold turnedIn
  split <;> rfl

theorem driven_values {s : State} {t : Team} {x : Tensor} {h : LayerHold} {f : Fmt} {m n : Nat} (hcols : x.kind = .layerT → h.cols.length = n) :
    (if (x.kind == .layerT) = true then (((List.range n).map (turnedIn s t x h f m)).zip h.cols).map fun p => driveColumn p.2 p.1
      else ((List.range n).map (turnedIn s t x h f m)).map fun v => (v, (0 : Flags))).map (·.1) =
        (List.range n).map (arrayIn s t x h f m) := by
  unfold arrayIn
  by_cases hk : x.kind = .layerT
  · rw [if_pos (beq_iff_eq.2 hk), eq_map_range_getD (hcols hk) default]
    simp only [map_range_zip_map_range, List.map_map, Function.comp_def, driveColumn_fst, if_pos hk]
    refine List.map_congr_left fun k hk => ?_
    rw [getD_map_range _ (List.mem_range.1 hk)]
  · rw [if_neg (mt beq_iff_eq.1 hk)]
    simp only [List.map_map, Function.comp_def, if_neg hk]

theorem driveVector_eq {s : State} {t : Team} {x : Tensor} {h : LayerHold} {f : Fmt} {m n : Nat} (hf : (x.map 0).fmt.float = some f)
    (hlen : (layerBits s t x h m).length = n) (hn : n % sideBlk x h = 0) (hcols : x.kind = .layerT → h.cols.length = n) :
    (driveVector x h (layerBits s t x h m)).xs = (List.range n).map (plainIn s t x h f m) ∧
      (driveVector x h (layerBits s t x h m)).scale = (narrowI8 ((List.range n).map (arrayIn s t x h f m))).2.1 := by
  have hv : (layerBits s t x h m).map (f.val false) = (List.range n).map (inputOf s t x h f m) := by
    rw [eq_map_range_getD hlen 0, List.map_map]
    rfl
  have hblk : blkSize (if x.kind == .layerT then h.rotn else h.rotk) = sideBlk x h := by simp only [sideBlk, beq_iff_eq]
  have hseed : BitVec.ofNat 32 (if x.kind == .layerT then h.seedn else h.seedk) = sideSeed x h := by simp only [sideSeed, beq_iff_eq]
  have hturned : (if tagRotated (x.map 0).tag = true then (List.range n).map (inputOf s t x h f m)
      else (rotateRow true ((List.range n).map (inputOf s t x h f m)) (sideBlk x h) 0 (sideSeed x h) 24).1) =
        (List.range n).map (turnedIn s t x h f m) := by
    rw [turnedIn_eq, rotateRow_values true _ (sideBlk_pos x h) hn]
    split <;> rfl
  have hplain : (if tagRotated (x.map 0).tag = true then
      (rotateRow false ((List.range n).map (inputOf s t x h f m)) (sideBlk x h) 0 (sideSeed x h) 48).1
      else (List.range n).map (inputOf s t x h f m)) = (List.range n).map (plainIn s t x h f m) := by
    rw [plainIn_eq, rotateRow_values false _ (sideBlk_pos x h) hn]
    split <;> rfl
  simp only [driveVector, hf, hv, hblk, hseed]
  split at hturned
  next ht =>
    rw [if_pos ht] at hplain
    simp only [if_pos ht]
    exact ⟨hplain, by rw [hturned, driven_values hcols]⟩
  next ht =>
    rw [if_neg ht] at hplain
    simp only [if_neg ht]
    exact ⟨hplain, by rw [hturned, driven_values hcols]⟩

/-! ### The chain's arithmetic -/

theorem val_widen32 (b : Nat) : fp64.val false (widen32 b) = w32 b := rfl

theorem val_mul64 (a b : Nat) : fp64.val false (mul64 a b).1 = rnd fp64 (times (fp64.val false a) (fp64.val false b)) := rfl

theorem val_fadd64 (a b : Nat) : fp64.val false (fadd fp64 .rne false a b).1 = rnd fp64 (plus (fp64.val false a) (fp64.val false b)) := rfl

theorem val_columnStep (h : LayerHold) (c : Column) (a : Int) (scale : Nat) : fp64.val false (columnStep h c a scale).1 =
    let u := rnd fp64 (plus (rnd fp64 (times (XR.scale2 h.ec (XR.ofInt a)) (f32 c.g))) (w32 c.o))
    rnd fp64 (times (rnd fp64 (times u (w32 c.cs))) (w32 scale)) := by
  simp only [columnStep, val_mul64, val_fadd64, val_widen32]
  rfl

theorem val_scaleAd (x : Tensor) (d : Nat) : fp64.val false (scaleAd x d).1 = rnd fp64 (times (w32 (x.nat 20 4)) (fp64.val false d)) := by
  simp only [scaleAd, val_mul64, val_widen32]

/-- The sum of R124 from +0. -/
theorem val_bfDot (K : Nat) (ab : Nat → Nat × Nat) :
    fp64.val false (bfDot ((List.range K).map ab)).1 = dot K (fun k => bf (ab k).1) fun k => bf (ab k).2 := by
  rw [bfDot, val_accumulate, bfTerms_pairs, List.foldl_map]
  simp only [val_termOf, val_mulBf]
  rfl

/-- An output before and under ACCUM. -/
theorem val_finishOut (old : Option (XR × Flags)) (base ad : Nat) : fp64.val false (finishOut old base ad).1.toNat =
    let r := rnd fp64 (plus (fp64.val false base) (fp64.val false ad))
    match old with
    | none => r
    | some v => rnd fp64 (plus v.1 r) := by
  cases old <;> simp only [finishOut, BitVec.toNat_ofNat] <;> exact Fmt.val_mod fp64 _

/-- The inner vector of an adapter, and the term it adds to each output, under NOAD none. -/
theorem adapterF_inner {s : State} {t : Team} {x : Tensor} {h : LayerHold} (xb : Nat → Nat) :
    (adapterF s t x h ((List.range h.k).map xb)).1 =
      (List.range (layerRank x)).map fun i => bitsIn Machine.bf16 (dot h.k (fun k => bf (xb k)) (adA s t x i)) := by
  simp only [adapterF, map_range_zip_range, List.map_map, Function.comp_def, toBf, val_bfDot]
  rfl

theorem adapterF_outer {s : State} {t : Team} {x : Tensor} {h : LayerHold} (xb hb : Nat → Nat)
    (hhb : ∀ i, hb i = bitsIn Machine.bf16 (dot h.k (fun k => bf (xb k)) (adA s t x i))) :
    ∃ ad : Nat → Nat, (if layerNoad x = true then ([], List.replicate h.n 0, (0 : Flags)) else adapterF s t x h ((List.range h.k).map xb)).2.1 =
        (List.range h.n).map ad ∧ ∀ j, fp64.val false (ad j) = if layerNoad x = true then fp64.val false 0
          else rnd fp64 (times (w32 (x.nat 20 4)) (dot (layerRank x) (fun i => bf (hb i)) (adB s t x j))) := by
  split
  · exact ⟨fun _ => 0, by rw [List.map_const', List.length_range], fun _ => rfl⟩
  · simp only [adapterF, map_range_zip_range, List.map_map, Function.comp_def]
    refine ⟨_, rfl, fun j => ?_⟩
    simp only [val_scaleAd, val_bfDot, toBf, hhb]
    rfl

theorem adapterT_inner {s : State} {t : Team} {x : Tensor} {h : LayerHold} (yb : Nat → Nat) :
    (adapterT s t x h ((List.range h.n).map yb)).1 =
      (List.range (layerRank x)).map fun i => bitsIn Machine.bf16 (dot h.n (fun j => bf (yb j)) fun j => adB s t x j i) := by
  simp only [adapterT, map_range_zip_range, List.map_map, Function.comp_def, toBf, val_bfDot]
  rfl

theorem adapterT_outer {s : State} {t : Team} {x : Tensor} {h : LayerHold} (yb vb : Nat → Nat)
    (hvb : ∀ i, vb i = bitsIn Machine.bf16 (dot h.n (fun j => bf (yb j)) fun j => adB s t x j i)) :
    ∃ ad : Nat → Nat, (if layerNoad x = true then ([], List.replicate h.k 0, (0 : Flags)) else adapterT s t x h ((List.range h.n).map yb)).2.1 =
        (List.range h.k).map ad ∧ ∀ k, fp64.val false (ad k) = if layerNoad x = true then fp64.val false 0
          else rnd fp64 (times (w32 (x.nat 20 4)) (dot (layerRank x) (fun i => bf (vb i)) fun i => adA s t x i k)) := by
  split
  · exact ⟨fun _ => 0, by rw [List.map_const', List.length_range], fun _ => rfl⟩
  · simp only [adapterT, map_range_zip_range, List.map_map, Function.comp_def]
    refine ⟨_, rfl, fun k => ?_⟩
    simp only [val_scaleAd, val_bfDot, toBf, hvb]
    rfl

/-! ### Outputs of a vector -/

theorem analogSum_columns {x : Tensor} (hk : x.kind ≠ .layerT) (h : LayerHold) (m j : Nat) : analogSum x h m j = columnSum h m j := by
  simp only [analogSum, if_neg hk, List.map_map, ← List.sum_eq_foldl]
  rfl

theorem analogSum_rows {x : Tensor} (hk : x.kind = .layerT) (h : LayerHold) (m j : Nat) : analogSum x h m j = rowSum h m j := by
  simp only [analogSum, if_pos hk, List.map_map, ← List.sum_eq_foldl]
  rfl

/-- A value written at position `p` of the strip, on the old one under ACCUM. -/
def onStrip (t : Team) (x : Tensor) (p : Nat) (v : XR) : XR :=
  if layerFlag x 0 = true then
    rnd fp64 (plus (tileVal (x.kinds.getD (p / 4096) false) (t.tileElem (layerZd x + p / 4096) (p % 4096))) v)
  else v

theorem val_finishOut_strip (t : Team) (x : Tensor) (p base ad : Nat) : fp64.val false (finishOut (stripOld t x p) base ad).1.toNat =
    onStrip t x p (rnd fp64 (plus (fp64.val false base) (fp64.val false ad))) := by
  rw [val_finishOut, stripOld, onStrip]
  split_ifs
  · simp only [stripAt, Nat.add_sub_cancel_left]
  · rfl

/-- The outputs of a vector from its unrotated values and its adapter terms. -/
theorem finish_values (t : Team) (x : Tensor) (m : Nat) {L n : Nat} (q ad : Nat → Nat) (hn : 0 < n) (hL : L % n = 0) (seed : Word) :
    (((deliverFloat fp64 (rotateRow false ((List.range L).map fun j => fp64.val false (q j)) n 0 seed 48).1).1.zip ((List.range L).map ad)).zip
      (List.range L)).map (fun p => (finishOut (stripOld t x (m * L + p.2)) p.1.1 p.1.2).1) =
    (List.range L).map fun j => (finishOut (stripOld t x (m * L + j))
      (floatBits fp64 (rotated false (fun j => fp64.val false (q j)) n 0 seed 48 j)) (ad j)).1 := by
  simp only [rotateRow_values false _ hn hL, deliverFloat, List.map_map, map_range_zip_map_range, map_range_zip_range, Function.comp_def]
  rfl

theorem arrayIn_forward {s : State} {t : Team} {x : Tensor} {h : LayerHold} {f : Fmt} {m : Nat} (hk : x.kind = .layerF) :
    arrayIn s t x h f m = turnedIn s t x h f m := by
  funext k
  simp only [arrayIn, hk, reduceCtorEq, if_false]

/-- One vector of `layer.f` (R262). -/
theorem layerVector_forward {s : State} {t : Team} {x : Tensor} {h : LayerHold} {f : Fmt} {m : Nat} (hk : x.kind = .layerF)
    (hf : (x.map 0).fmt.float = some f) (hcols : h.cols.length = h.n) (hlen : (layerBits s t x h m).length = h.k)
    (hK : h.k % sideBlk x h = 0) (hN : h.n % blkSize h.rotn = 0) :
    (∃ out : Nat → DWord, (layerVector s t x h m).out = (List.range h.n).map out ∧
      ∀ j, j < h.n → fp64.val false (out j).toNat = onStrip t x (m * h.n + j) (forward s t x h f m j)) ∧
    (layerVector s t x h m).xb = (List.range h.k).map (xbOf s t x h f m) ∧
    (layerVector s t x h m).hb = if layerNoad x = true then [] else (List.range (layerRank x)).map (hbOf s t x h f m) := by
  have hL : layerOut x h = h.n := by simp only [layerOut, hk, reduceCtorEq, if_false]
  have hsum : ∀ j, analogSum x h m j = columnSum h m j := analogSum_columns (by rw [hk]; exact nofun) h m
  obtain ⟨hxs, hscale⟩ := driveVector_eq hf hlen hK (by rw [hk]; exact nofun)
  unfold layerBits at hxs hscale
  rw [arrayIn_forward hk] at hscale
  have hq : ∀ sc, (h.cols.zip (List.range h.n)).map (fun p => columnStep h p.1 (columnSum h m p.2) sc) =
      (List.range h.n).map fun j => columnStep h (h.cols.getD j default) (columnSum h m j) sc := fun sc => by
    conv_lhs => rw [eq_map_range_getD hcols default, map_range_zip_range, List.map_map]
    rfl
  obtain ⟨ad, had, hadv⟩ := adapterF_outer (s := s) (t := t) (x := x) (xbOf s t x h f m) (hbOf s t x h f m) fun _ => rfl
  have hxb : (List.range h.k).map (fun k => ((plainIn s t x h f m k).rne Machine.bf16).1) = (List.range h.k).map (xbOf s t x h f m) := rfl
  simp only [layerVector, hk, hL, hsum, hxs, hscale, hq, List.map_map, Function.comp_def, hxb, had, finish_values t x m _ ad (blkSize_pos _) hN]
  refine ⟨⟨_, rfl, fun j _ => ?_⟩, trivial, ?_⟩
  · simp only [val_finishOut_strip, val_columnStep, hadv]
    rfl
  · split
    · rfl
    · exact adapterF_inner _

theorem arrayIn_backward {s : State} {t : Team} {x : Tensor} {h : LayerHold} {f : Fmt} {m : Nat} (hk : x.kind = .layerT) :
    arrayIn s t x h f m = fun j => times (times (turnedIn s t x h f m j) (f32 (h.cols.getD j default).cs)) (f32 (h.cols.getD j default).g) := by
  funext j
  simp only [arrayIn, hk, if_true]

/-- dy's BF16 bits (R263). -/
def ybOf (s : State) (t : Team) (x : Tensor) (h : LayerHold) (f : Fmt) (m j : Nat) : Nat := bitsIn Machine.bf16 (plainIn s t x h f m j)

/-- What VMAP takes of the inner vector. -/
theorem vmap_values (s : State) (t : Team) (x : Tensor) (h : LayerHold) (f : Fmt) (m : Nat) :
    (if ((List.range h.n).map (plainIn s t x h f m)).all XR.isFin = true then (List.range (layerRank x)).map (vbOf s t x h f m)
      else ((List.range (layerRank x)).map (vbOf s t x h f m)).map fun _ => Machine.bf16.qnan) =
        (List.range (layerRank x)).map (vmapOf s t x h f m) := by
  have hall : ((List.range h.n).map (plainIn s t x h f m)).all XR.isFin = true ↔ ∀ j < h.n, (plainIn s t x h f m j).isFin = true := by simp
  unfold vmapOf
  by_cases hfin : ∀ j < h.n, (plainIn s t x h f m j).isFin = true
  · simp only [if_pos (hall.2 hfin), if_pos hfin]
  · simp only [if_neg (mt hall.1 hfin), if_neg hfin, List.map_map]
    rfl

/-- One vector of `layer.t` (R263). -/
theorem layerVector_backward {s : State} {t : Team} {x : Tensor} {h : LayerHold} {f : Fmt} {m : Nat} (hk : x.kind = .layerT)
    (hf : (x.map 0).fmt.float = some f) (hcols : h.cols.length = h.n) (hlen : (layerBits s t x h m).length = h.n)
    (hN : h.n % sideBlk x h = 0) (hK : h.k % blkSize h.rotk = 0) :
    (∃ out : Nat → DWord, (layerVector s t x h m).out = (List.range h.k).map out ∧
      ∀ k, k < h.k → fp64.val false (out k).toNat = onStrip t x (m * h.k + k) (backward s t x h f m k)) ∧
    (layerNoad x = false → (layerVector s t x h m).xb = (List.range (layerRank x)).map (vmapOf s t x h f m)) := by
  have hL : layerOut x h = h.k := by simp only [layerOut, hk, if_true]
  have hsum : ∀ k, analogSum x h m k = rowSum h m k := analogSum_rows hk h m
  obtain ⟨hxs, hscale⟩ := driveVector_eq hf hlen hN fun _ => hcols
  unfold layerBits at hxs hscale
  rw [arrayIn_backward hk] at hscale
  obtain ⟨ad, had, hadv⟩ := adapterT_outer (s := s) (t := t) (x := x) (ybOf s t x h f m) (vbOf s t x h f m) fun _ => rfl
  have hyb : (List.range h.n).map (fun j => ((plainIn s t x h f m j).rne Machine.bf16).1) = (List.range h.n).map (ybOf s t x h f m) := rfl
  have hsnd : ∀ (c : Bool) (a : List Nat × List Nat × Flags) (g : Nat → Nat), (if c = true then a else (a.1.map g, a.2)).2 = a.2 :=
    fun c _ _ => by cases c <;> rfl
  simp only [layerVector, hk, hL, hsum, hxs, hscale, List.map_map, Function.comp_def, hyb, hsnd, had, finish_values t x m _ ad (blkSize_pos _) hK]
  refine ⟨⟨_, rfl, fun k _ => ?_⟩, fun hno => ?_⟩
  · simp only [val_finishOut_strip, val_mul64, val_widen32, hadv]
    rfl
  · rw [← vmap_values]
    simp only [hno, Bool.false_eq_true, if_false, apply_ite Prod.fst, adapterT_inner]
    rfl

/-! ### The strip -/

/-- The elements that a layer operation writes. -/
theorem mem_layerTiles {s : State} {t : Team} {x : Tensor} {h : LayerHold} {out : Nat → Nat → DWord}
    (hout : ∀ m < layerM x, (layerVector s t x h m).out = (List.range (layerOut x h)).map (out m)) {q : Nat × Nat × DWord} :
    q ∈ (layerEffect s t x h).tiles ↔ ∃ m < layerM x, ∃ j < layerOut x h,
      q = (layerZd x + (m * layerOut x h + j) / 4096, (m * layerOut x h + j) % 4096, out m j) := by
  simp only [layerEffect, List.length_map, List.length_range, map_range_zip_range, List.flatMap_map, List.mem_flatMap, List.mem_range]
  refine exists_congr fun m => and_congr_right fun hm => ?_
  rw [hout m hm]
  simp only [map_range_zip_range, List.map_map, List.mem_map, List.mem_range, Function.comp_apply, stripAt, eq_comm]

theorem stripGets_of_outputs {s : State} {t : Team} {x : Tensor} {h : LayerHold} {v : Nat → Nat → XR}
    (hout : ∀ m < layerM x, ∃ out : Nat → DWord, (layerVector s t x h m).out = (List.range (layerOut x h)).map out ∧
      ∀ j, j < layerOut x h → fp64.val false (out j).toNat = onStrip t x (m * layerOut x h + j) (v m j)) :
    stripGets t x h (layerEffect s t x h) v := by
  choose! out hlist hval using hout
  refine ⟨fun m hm j hj => ⟨out m j, hval m hm j hj, (mem_layerTiles hlist).2 ⟨m, hm, j, hj, rfl⟩⟩, fun p hp => ?_⟩
  obtain ⟨m, hm, j, hj, rfl⟩ := (mem_layerTiles hlist).1 hp
  exact ⟨m, hm, j, hj, rfl, hval m hm j hj⟩

/-- The codes' sums that `layer.p` writes (R264). -/
theorem layerVector_codes {s : State} {t : Team} {x : Tensor} {h : LayerHold} (hk : x.kind = .layerP) (m : Nat) :
    (layerVector s t x h m).out = (List.range h.n).map fun j => BitVec.ofInt 64 (columnSum h m j * 2 ^ h.ec) := by
  have hL : layerOut x h = h.n := by simp only [layerOut, hk, reduceCtorEq, if_false]
  have hsum : ∀ j, analogSum x h m j = columnSum h m j := analogSum_columns (by rw [hk]; exact nofun) h m
  simp only [layerVector, hk, hL, hsum, Nat.cast_pow, Nat.cast_ofNat]

end Sys2Proof.Spec
end

section
/-! SUPPORT. The activation record, and what the layer operations write (R262 to R264, R267). -/

namespace Sys2Proof.Spec

open Sys2Proof.Machine

/-! ### Fields of a byte string -/

/-- The number in `n` bytes from offset `off` on. -/
def numAt (b : List Byte) (off n : Nat) : Nat := leVal ((b.drop off).take n)

theorem numAt_append_right {a : List Byte} (b : List Byte) {off : Nat} (n : Nat) (h : a.length ≤ off) :
    numAt (a ++ b) off n = numAt b (off - a.length) n := by
  rw [numAt, List.drop_append, List.drop_eq_nil_of_le h, List.nil_append, numAt]

theorem numAt_append_left {a : List Byte} (b : List Byte) {off n : Nat} (h : off + n ≤ a.length) :
    numAt (a ++ b) off n = numAt a off n := by
  rw [numAt, List.drop_append_of_le_length (by omega), List.take_append_of_le_length (by rw [List.length_drop]; omega), numAt]

theorem numAt_leBytes (n v : Nat) : numAt (leBytes n v) 0 n = v % 256 ^ n := by
  rw [numAt, List.drop_zero, List.take_of_length_le (leBytes_length n v).le, leVal_leBytes]

theorem numAt_leBytes_append (n v : Nat) (b : List Byte) : numAt (leBytes n v ++ b) 0 n = v % 256 ^ n := by
  rw [numAt_append_left b (by simp), numAt_leBytes]

theorem numAt_skip (k v : Nat) (b : List Byte) {off : Nat} (n : Nat) (h : k ≤ off) :
    numAt (leBytes k v ++ b) off n = numAt b (off - k) n := by
  rw [numAt_append_right b n (by simpa using h), leBytes_length]

/-- A field of one of several pieces of one length. -/
theorem numAt_flatMap_range {g : Nat → List Byte} {n M m off w : Nat} (hg : ∀ q, (g q).length = n) (hm : m < M) (hoff : off + w ≤ n)
    (rest : List Byte) : numAt ((List.range M).flatMap g ++ rest) (m * n + off) w = numAt (g m) off w := by
  obtain ⟨d, rfl⟩ := Nat.exists_eq_add_of_le (Nat.succ_le_of_lt hm)
  have hlen : ((List.range m).flatMap g).length = m * n := by simp [List.length_flatMap, hg]
  rw [List.range_add, List.flatMap_append, Nat.succ_eq_add_one, List.range_succ, List.flatMap_append, List.flatMap_singleton]
  simp only [List.append_assoc]
  rw [numAt_append_right _ _ (by omega), hlen, Nat.add_sub_cancel_left, numAt_append_left _ (by rw [hg]; exact hoff)]

/-! ### Vectors of the record -/

theorem flatMap_leBytes_zero (n d : Nat) : ((List.range d).flatMap fun _ => leBytes n 0) = List.replicate (d * n) 0 := by
  have h0 : leBytes n 0 = List.replicate n 0 := by
    induction n with
    | zero => rfl
    | succ n ih => rw [leBytes, Nat.zero_div, ih, List.replicate_succ]; rfl
  induction d with
  | zero => rw [Nat.zero_mul]; rfl
  | succ d ih => rw [List.range_succ, List.flatMap_append, ih, List.flatMap_singleton, h0, Nat.succ_mul, List.replicate_append_replicate]

/-- A padded vector is a row of two-byte numbers, zero after its elements. -/
theorem padded_eq {n c : Nat} (hn : n ≤ c) (v : Nat → Nat) :
    padded ((List.range n).map v) (2 * c) = (List.range c).flatMap fun i => leBytes 2 (if i < n then v i else 0) := by
  obtain ⟨d, rfl⟩ := Nat.exists_eq_add_of_le hn
  have hlen : ((List.range n).flatMap fun i => leBytes 2 (v i)).length = n * 2 := by simp [List.length_flatMap]
  have hlow : ((List.range n).flatMap fun i => leBytes 2 (if i < n then v i else 0)) = (List.range n).flatMap fun i => leBytes 2 (v i) :=
    List.flatMap_congr fun i hi => by rw [if_pos (List.mem_range.1 hi)]
  rw [padded, List.flatMap_map, List.range_add, List.flatMap_append, hlow, hlen, List.flatMap_map]
  simp only [Nat.not_lt.2 (Nat.le_add_right n _), if_false, flatMap_leBytes_zero]
  congr 2
  omega

theorem length_padded {n c : Nat} (hn : n ≤ c) (v : Nat → Nat) : (padded ((List.range n).map v) (2 * c)).length = 2 * c := by
  rw [padded_eq hn]
  simp [List.length_flatMap, Nat.mul_comm]

theorem numAt_padded {n c i : Nat} (hn : n ≤ c) (hi : i < c) {v : Nat → Nat} (hv : v i < 65536) :
    numAt (padded ((List.range n).map v) (2 * c)) (2 * i) 2 = if i < n then v i else 0 := by
  have h := numAt_flatMap_range (g := fun i => leBytes 2 (if i < n then v i else 0)) (off := 0) (w := 2)
    (fun q => leBytes_length 2 _) hi le_rfl []
  rw [List.append_nil, Nat.add_zero, Nat.mul_comm i 2, numAt_leBytes] at h
  rw [padded_eq hn, h]
  exact Nat.mod_eq_of_lt (by split <;> omega)

/-- Bits of a rounded value fit the format. -/
theorem bitsIn_lt {f : Fmt} (hq : f.qnan < f.sign) (v : XR) : bitsIn f v < 2 * f.sign := by
  have hsign : ∀ neg : Bool, (if neg = true then f.sign else 0) ≤ f.sign := fun neg => by cases neg <;> simp
  have hinf := Fmt.inf_lt f
  cases v with
  | nan => exact hq.trans_le (Nat.le_mul_of_pos_left _ Nat.two_pos)
  | inf neg =>
    have := hsign neg
    simp only [bitsIn, XR.round]
    omega
  | fin neg n d =>
    obtain ⟨g, hg, hr⟩ := XR.round_fin f .rne neg n d
    have := hsign neg
    rw [bitsIn, hr]
    omega

/-! ### The record (R267) -/

/-- The first 64 bytes of a record. -/
def recordHead (x : Tensor) (h : LayerHold) : List Byte :=
  leBytes 4 (recLen x h) ++ leBytes 4 h.k ++ leBytes 2 (layerM x) ++ leBytes 2 (layerRank x)
    ++ leBytes 2 (if layerNoad x then 0 else x.gena) ++ leBytes 2 (if layerNoad x then 0 else x.genb)
    ++ leBytes 2 (layerHandle x) ++ leBytes 2 h.gen
    ++ leBytes 4 64 ++ leBytes 4 (64 + layerM x * recXs h) ++ leBytes 36 0

theorem length_recordHead (x : Tensor) (h : LayerHold) : (recordHead x h).length = 64 := by simp [recordHead]

theorem recordHead_numbers (x : Tensor) (h : LayerHold) : numAt (recordHead x h) 0 4 = recLen x h % 2 ^ 32 ∧
    numAt (recordHead x h) 4 4 = h.k % 2 ^ 32 ∧ numAt (recordHead x h) 8 2 = layerM x % 65536 ∧
    numAt (recordHead x h) 10 2 = layerRank x % 65536 ∧
    numAt (recordHead x h) 12 2 = (if layerNoad x = true then 0 else x.gena) % 65536 ∧
    numAt (recordHead x h) 14 2 = (if layerNoad x = true then 0 else x.genb) % 65536 ∧
    numAt (recordHead x h) 16 2 = layerHandle x % 65536 ∧ numAt (recordHead x h) 18 2 = h.gen % 65536 ∧
    numAt (recordHead x h) 20 4 = 64 ∧ numAt (recordHead x h) 24 4 = (64 + layerM x * recXs h) % 2 ^ 32 ∧
    numAt (recordHead x h) 28 36 = 0 := by
  simp only [recordHead, List.append_assoc, numAt_leBytes_append, numAt_skip, numAt_leBytes, Nat.reduceLeDiff, Nat.reduceSub, Nat.reducePow,
    Nat.reduceMod, Nat.zero_mod, and_self]

/-- Elements of an inner vector in a record: none under NOAD. -/
def innerLen (x : Tensor) : Nat := if layerNoad x = true then 0 else layerRank x

/-- A record whose vectors hold the elements given. -/
def recordOf (x : Tensor) (h : LayerHold) (xb hb : Nat → Nat → Nat) : List Byte := recordHead x h ++
  (((List.range (layerM x)).flatMap fun m => padded ((List.range h.k).map (xb m)) (recXs h)) ++
    (List.range (layerM x)).flatMap fun m => padded ((List.range (innerLen x)).map (hb m)) (recHs x))

theorem activationRecord_eq {s : State} {t : Team} {x : Tensor} {h : LayerHold} {xb hb : Nat → Nat → Nat}
    (hx : ∀ m < layerM x, (layerVector s t x h m).xb = (List.range h.k).map (xb m))
    (hh : ∀ m < layerM x, (layerVector s t x h m).hb = (List.range (innerLen x)).map (hb m)) :
    activationRecord x h ((List.range (layerM x)).map (layerVector s t x h)) = recordOf x h xb hb := by
  have hxs : ((List.range (layerM x)).map (layerVector s t x h)).flatMap (fun v => padded v.xb (recXs h)) =
      (List.range (layerM x)).flatMap fun m => padded ((List.range h.k).map (xb m)) (recXs h) := by
    rw [List.flatMap_map]
    exact List.flatMap_congr fun m hm => by rw [hx m (List.mem_range.1 hm)]
  have hhs : ((List.range (layerM x)).map (layerVector s t x h)).flatMap (fun v => padded v.hb (recHs x)) =
      (List.range (layerM x)).flatMap fun m => padded ((List.range (innerLen x)).map (hb m)) (recHs x) := by
    rw [List.flatMap_map]
    exact List.flatMap_congr fun m hm => by rw [hh m (List.mem_range.1 hm)]
  rw [activationRecord, hxs, hhs, recordOf, ← List.append_assoc]
  rfl

/-- XS and HS as two-byte elements. -/
theorem recXs_eq (h : LayerHold) : recXs h = 2 * ((2 * h.k + 63) / 64 * 32) := by
  unfold recXs ceilDiv
  omega

theorem recHs_eq (x : Tensor) : recHs x = 2 * (if layerNoad x = true then 0 else 64) := by
  unfold recHs
  split <;> rfl

theorem k_le_recXs (h : LayerHold) : h.k ≤ (2 * h.k + 63) / 64 * 32 := by omega

theorem innerLen_le_recHs {x : Tensor} (hrank : layerRank x ≤ 64) : innerLen x ≤ if layerNoad x = true then 0 else 64 := by
  unfold innerLen
  split <;> omega

theorem length_inputPiece (h : LayerHold) (v : Nat → Nat) : (padded ((List.range h.k).map v) (recXs h)).length = recXs h := by
  rw [recXs_eq, length_padded (k_le_recXs h)]

theorem length_innerPiece {x : Tensor} (hrank : layerRank x ≤ 64) (v : Nat → Nat) :
    (padded ((List.range (innerLen x)).map v) (recHs x)).length = recHs x := by
  rw [recHs_eq, length_padded (innerLen_le_recHs hrank)]

theorem length_inputPieces (x : Tensor) (h : LayerHold) (xb : Nat → Nat → Nat) :
    ((List.range (layerM x)).flatMap fun m => padded ((List.range h.k).map (xb m)) (recXs h)).length = layerM x * recXs h := by
  simp [List.length_flatMap, length_inputPiece]

theorem length_recordOf {x : Tensor} (h : LayerHold) (xb hb : Nat → Nat → Nat) (hrank : layerRank x ≤ 64) :
    (recordOf x h xb hb).length = recLen x h := by
  simp [recordOf, recLen, length_recordHead, List.length_flatMap, length_inputPiece, length_innerPiece hrank, Nat.add_assoc]

theorem numAt_recordOf_head (x : Tensor) (h : LayerHold) (xb hb : Nat → Nat → Nat) {off n : Nat} (hn : off + n ≤ 64) :
    numAt (recordOf x h xb hb) off n = numAt (recordHead x h) off n :=
  numAt_append_left _ (by rw [length_recordHead]; exact hn)

theorem numAt_recordOf_input {x : Tensor} {h : LayerHold} {xb : Nat → Nat → Nat} (hb : Nat → Nat → Nat) {m i : Nat} (hm : m < layerM x)
    (hi : i < recXs h / 2) (hv : xb m i < 65536) :
    numAt (recordOf x h xb hb) (64 + m * recXs h + 2 * i) 2 = if i < h.k then xb m i else 0 := by
  have hi' : i < (2 * h.k + 63) / 64 * 32 := by rw [recXs_eq] at hi; omega
  rw [recordOf, numAt_append_right _ 2 (by rw [length_recordHead]; omega), length_recordHead, Nat.add_assoc, Nat.add_sub_cancel_left,
    numAt_flatMap_range (fun m => length_inputPiece h (xb m)) hm (by omega), recXs_eq, numAt_padded (k_le_recXs h) hi' hv]

theorem numAt_recordOf_inner {x : Tensor} (h : LayerHold) (xb : Nat → Nat → Nat) {hb : Nat → Nat → Nat} {m i : Nat} (hm : m < layerM x)
    (hrank : layerRank x ≤ 64) (hi : i < recHs x / 2) (hv : hb m i < 65536) :
    numAt (recordOf x h xb hb) (64 + layerM x * recXs h + m * recHs x + 2 * i) 2 = if i < layerRank x then hb m i else 0 := by
  have hi' : i < if layerNoad x = true then 0 else 64 := by rw [recHs_eq] at hi; omega
  have hno : ¬ layerNoad x = true := fun hno => by rw [if_pos hno] at hi'; omega
  have hpiece := numAt_flatMap_range (fun m => length_innerPiece hrank (hb m)) hm (show 2 * i + 2 ≤ recHs x by omega) []
  have hinner : innerLen x = layerRank x := if_neg hno
  rw [recordOf, numAt_append_right _ 2 (by rw [length_recordHead]; omega),
    numAt_append_right _ 2 (by rw [length_recordHead, length_inputPieces]; omega), length_recordHead, length_inputPieces,
    show 64 + layerM x * recXs h + m * recHs x + 2 * i - 64 - layerM x * recXs h = m * recHs x + 2 * i by omega]
  rw [List.append_nil] at hpiece
  rw [hpiece, recHs_eq, numAt_padded (innerLen_le_recHs hrank) hi' hv, hinner]

theorem recordIs_recordOf {s : State} {t : Team} {x : Tensor} {h : LayerHold} {f : Fmt} (hrank : layerRank x ≤ 64) (hM : layerM x ≤ 64)
    (hhandle : layerHandle x < 65536) (hgen : h.gen < 65536) (ha : x.gena < 65536) (hb : x.genb < 65536) (hk : h.k < 2 ^ 24) :
    recordIs s t x h f (recordOf x h (xbOf s t x h f) (hbOf s t x h f)) := by
  have hxs : (2 * h.k + 63) / 64 * 64 = recXs h := by rw [recXs_eq]; omega
  have hhs : (if layerNoad x = true then 0 else 128) = recHs x := rfl
  have hsmall : layerM x * recXs h ≤ 64 * (2 ^ 25 + 64) := Nat.mul_le_mul hM (by rw [recXs_eq]; omega)
  have hinner : layerM x * recHs x ≤ 64 * 128 := Nat.mul_le_mul hM (by rw [recHs_eq]; split <;> omega)
  have hlen : recLen x h < 2 ^ 32 := by unfold recLen; omega
  have hhead := fun off n (hn : off + n ≤ 64) => numAt_recordOf_head x h (xbOf s t x h f) (hbOf s t x h f) hn
  obtain ⟨h0, h4, h8, h10, h12, h14, h16, h18, h20, h24, h28⟩ := recordHead_numbers x h
  rw [← hhead 0 4 (by omega), Nat.mod_eq_of_lt hlen] at h0
  rw [← hhead 4 4 (by omega), Nat.mod_eq_of_lt (by omega)] at h4
  rw [← hhead 8 2 (by omega), Nat.mod_eq_of_lt (by omega)] at h8
  rw [← hhead 10 2 (by omega), Nat.mod_eq_of_lt (by omega)] at h10
  rw [← hhead 12 2 (by omega), Nat.mod_eq_of_lt (by split <;> omega)] at h12
  rw [← hhead 14 2 (by omega), Nat.mod_eq_of_lt (by split <;> omega)] at h14
  rw [← hhead 16 2 (by omega), Nat.mod_eq_of_lt hhandle] at h16
  rw [← hhead 18 2 (by omega), Nat.mod_eq_of_lt hgen] at h18
  rw [← hhead 20 4 (by omega)] at h20
  rw [← hhead 24 4 (by omega), Nat.mod_eq_of_lt (by omega)] at h24
  rw [← hhead 28 36 (by omega)] at h28
  unfold recordIs
  simp only [hxs, hhs]
  exact ⟨length_recordOf h _ _ hrank, h0, h4, h8, h10, h12, h14, h16, h18, h20, h24, h28, fun m hm =>
    ⟨fun i hi => numAt_recordOf_input _ hm hi (bitsIn_lt (by decide) _),
      fun i hi => numAt_recordOf_inner h _ hm hrank hi (bitsIn_lt (by decide) _)⟩⟩

/-! ### The operations -/

/-- A record's bytes in memory, 64 at a time. -/
theorem mem_recordWrites {a : Nat} {b : List Byte} {p : MemWrite} :
    p ∈ recordWrites a b ↔ ∃ i, 64 * i < b.length ∧ p = (false, a + 64 * i, (b.drop (64 * i)).take 64) := by
  simp only [recordWrites, chunksOf_eq, List.length_map, List.length_range, map_range_zip_range, List.map_map, List.mem_map, List.mem_range,
    lt_ceilDiv (by norm_num : 0 < 64), Function.comp_apply]
  exact exists_congr fun i => and_congr_right fun _ => eq_comm

theorem tensorEffect_layer {x : Tensor} {h : LayerHold} (hk : x.kind = .layerF ∨ x.kind = .layerT ∨ x.kind = .layerP) (hl : x.layer = some h)
    (s : State) (o : Op) (t : Team) (c : Option Nat) : tensorEffect s o t x c = layerEffect s t x h := by
  rcases hk with hk | hk | hk <;> simp only [tensorEffect, hk, hl]

theorem layerEffect_mem (s : State) (t : Team) (x : Tensor) (h : LayerHold) : (layerEffect s t x h).mem =
    (if layerFlag x 2 = true then (List.range (layerM x)).flatMap fun m =>
      let xb := (layerVector s t x h m).xb
      (xb.zip (List.range xb.length)).flatMap fun e => (x.map 3).put [e.2, m, 0, 0, 0] e.1 else []) ++
    (if layerFlag x 1 = true then
      recordWrites x.astop (activationRecord x h ((List.range (layerM x)).map (layerVector s t x h))) else []) := by
  simp only [layerEffect, List.length_map, List.length_range, map_range_zip_range, List.flatMap_map]

theorem layerResults : LayerResults := by
  refine ⟨fun s o t x h e hk hl _ he q => ?_, fun s o t x h f e hk hl hf he hcols hbits hK hN h2 => ?_,
    fun s o t x h f e hk hl hf he hcols hbits hN hK h1 => ?_⟩
  · have hL : layerOut x h = h.n := by simp only [layerOut, hk, reduceCtorEq, if_false]
    rw [← he, tensorEffect_layer (.inr (.inr hk)) hl, mem_layerTiles fun m _ => hL.symm ▸ layerVector_codes hk m, hL]
  · have hL : layerOut x h = h.n := by simp only [layerOut, hk, reduceCtorEq, if_false]
    have hvec := fun m hm => layerVector_forward hk hf hcols (hbits m hm) hK hN
    rw [tensorEffect_layer (.inl hk) hl] at he
    subst he
    rw [layerEffect_mem, h2]
    refine ⟨stripGets_of_outputs fun m hm => hL.symm ▸ (hvec m hm).1, fun h1 => by rw [h1]; rfl, fun h1 hr hM hh hg ha hb hk => ?_⟩
    have hinner : ∀ m < layerM x, (layerVector s t x h m).hb = (List.range (innerLen x)).map (hbOf s t x h f m) := fun m hm => by
      rw [(hvec m hm).2.2, innerLen]
      split <;> rfl
    refine ⟨_, recordIs_recordOf hr hM hh hg ha hb hk, fun p => ?_⟩
    rw [h1, activationRecord_eq (fun m hm => (hvec m hm).2.1) hinner]
    exact mem_recordWrites
  · have hL : layerOut x h = h.k := by simp only [layerOut, hk, if_true]
    have hvec := fun m hm => layerVector_backward hk hf hcols (hbits m hm) hN hK
    rw [tensorEffect_layer (.inr (.inl hk)) hl] at he
    subst he
    rw [layerEffect_mem, h1]
    refine ⟨stripGets_of_outputs fun m hm => hL.symm ▸ (hvec m hm).1, fun h2 => by rw [h2]; rfl, fun h2 hno p => ?_⟩
    rw [h2]
    simp only [if_true, Bool.false_eq_true, if_false, List.append_nil, List.mem_flatMap, List.mem_range]
    refine exists_congr fun m => and_congr_right fun hm => ?_
    simp only [(hvec m hm).2 hno, List.length_map, List.length_range, map_range_zip_range, List.mem_map, List.mem_range,
      exists_exists_and_eq_and, mem_put]

/-- Settles O51: what the rotations, the narrowing, the transfers, the matrix products, the rows and the layers compute, part by part. -/
theorem matrixProduct : Obligations.MatrixProduct :=
  ⟨rotatedBlocks, narrowedGroups, rotationResults, tileTransferResults, integerProduct, matrixSums, rowResults, layerResults⟩

end Sys2Proof.Spec
end
